-- ==== Sys2Proof/Word.lean ====
section
/-! DEFINITION. The byte type and nothing else: every wider field of the SLE-480 is a little-endian
run of bytes (R8) or a number with its width stated where it is held. -/

namespace Sys2Proof

/-- One byte, the unit of every memory and every wire format of the manual. -/
abbrev Byte := BitVec 8

end Sys2Proof
end

