-- ==== Sys2Proof/Syntax.lean ====
section
/-! DEFINITION. The commands the block takes: one constructor of `Instr` for each row of the table of
operations and events, with the operands its rule needs from outside. -/

namespace Sys2Proof

/-- How a dictionary write reached the server: the TRANSPORT and TAG of Table 4.14. -/
structure Via where
  transport : Nat
  tag : Nat
  deriving DecidableEq, Repr

/-- The smallest parts that the engine retires on their own (Table 16.2, Table 16.13). -/
inductive UnitName where
  | core (k : Nat)
  | array (k : Nat)
  | lane (k : Nat)
  | storeBank (k : Nat)
  | tier1Bank (k : Nat)
  | tier2Frame (k : Nat)
  | lineBank (k : Nat)
  | camera (k : Nat)
  | inertial (k : Nat)
  | groupBank (k : Nat)
  | spiMaster (k : Nat)
  | encoder (k : Nat)
  | canPort (k : Nat)
  | usb
  | pcie
  | stringLane (p l : Nat)
  | string (p : Nat)
  | meshRouter
  | breeze
  | sensor (k : Nat)
  /-- A block whose error is essential: the cause of Table 16.3 it raises. -/
  | essential (cause : Nat)
  deriving DecidableEq, Repr

/-- A CAN frame on the bus (ISO 11898-1 with the options of Table 5.2). -/
structure CanFrame where
  ide : Bool
  ident : Nat
  fdf : Bool
  brs : Bool
  esi : Bool
  rtr : Bool
  data : List Byte
  deriving DecidableEq, Repr

/-- How a transmission attempt ended (R202, R205, R239, R244, R246). -/
inductive AttemptResult where
  /-- acknowledged -/
  | success
  /-- lost arbitration -/
  | lost
  /-- a bit error as transmitter after the arbitration field (R244) -/
  | bitError
  /-- no acknowledgement (R246); `seen` says that a dominant bit stood in the error flag -/
  | ackError (seen : Bool)
  /-- a stuff error in the arbitration field, whose recessive stuff bit was seen dominant: ISO 11898-1 leaves TEC as it is -/
  | arbitrationStuff
  /-- any other error of ISO 11898-1: stuff, form, or a bit error in the arbitration field -/
  | otherError
  deriving DecidableEq, Repr

/-- How an attempt of a CAN port ended, with the transmit delay measured in it, if it came that far (R196), and how often ISO
11898-1 has the transmitter count 8 more for dominant bits after its error flag (R239). -/
structure AttemptReport where
  result : AttemptResult
  tdcv : Option Nat
  dominant : Nat
  deriving DecidableEq, Repr

/-- Sequences of 11 recessive bits that a port in bus-off has seen (R242). -/
structure RecessiveRun where
  port : Nat
  count : Nat
  deriving DecidableEq, Repr

/-- How an access of the engine in host memory fails (R260). -/
inductive HostError where
  | unsupportedRequest | completerAbort | completionTimeout | poisoned
  deriving DecidableEq, Repr

/-- The access that failed, as a STOP_CAUSE of Table 6.7, and how it failed. -/
structure HostFailure where
  cause : Nat
  error : HostError
  deriving DecidableEq, Repr

/-- The eight bytes of a USB setup packet as Table 6.15 names them. -/
structure UsbSetup where
  requestType : Nat
  request : Nat
  value : Nat
  index : Nat
  length : Nat
  deriving DecidableEq, Repr

/-- The header of a USB bulk record (Table 6.16). -/
structure RecordHeader where
  rtype : Nat
  flags : Nat
  reserved : Nat
  length : Nat
  ident : Nat
  offset : Nat
  deriving DecidableEq, Repr

/-- A CSI-2 long packet as the channel's decoder sees it (R316 to R325). -/
structure LongPacket where
  vc : Nat
  format : Nat
  payload : List Byte
  eccSingle : Bool
  eccMulti : Bool
  crcOk : Bool
  deriving DecidableEq, Repr

/-- The instructions of the test access port (R859). -/
inductive TapInstruction where
  | bypass | idcode | samplePreload | extest | clamp | highz
  deriving DecidableEq, Repr

/-- What the TRAIN flits of a string's far end announce (Table 13.6); `laneOk` is row 1 of Table 13.7. -/
structure Ident where
  addr : Nat
  port : Nat
  role : Nat
  rate : Nat
  healthy : Nat
  slice : Nat
  flags : Nat
  serial : Nat
  laneOk : Bool
  deriving DecidableEq, Repr

/-- What a lane carries for one flit (R640): header and body as they are on the line, the body scrambled. -/
structure LaneBlock where
  header : BitVec 2
  body : BitVec 256
  deriving DecidableEq, Repr

/-- The next block of a string. -/
structure StringBlock where
  port : Nat
  block : LaneBlock
  deriving DecidableEq, Repr

/-- RT_SENT, ECHO_RT and TURN of a TRAIN flit (Table 13.6). -/
structure RtEcho where
  sent : Nat
  echo : Nat
  turn : Nat
  deriving DecidableEq, Repr

/-- A block received on a lane outside UP, with the 58 line bits of bodies that stood before it there (R641). -/
structure LaneFlit where
  lane : Nat
  before : BitVec 58
  block : LaneBlock
  deriving DecidableEq, Repr

/-- Headers received on a lane, in their order (R643, R644). -/
structure LaneHeaders where
  lane : Nat
  headers : List (BitVec 2)
  deriving DecidableEq, Repr

/-- A lane that has passed its test, and the last 58 line bits of bodies received on it (R641, R649). -/
structure LaneTail where
  lane : Nat
  last : BitVec 58
  deriving DecidableEq, Repr

/-- A mesh packet: the fields of its head flit and its payload (Table 13.10), and the input at which it stands: the
string port 0 to 5, or 6 for the engine itself (R666). -/
structure Packet where
  dest : Nat
  src : Nat
  slice : Nat
  class_ : Nat
  ptype : Nat
  hops : Nat
  exit : Nat
  entry : Nat
  tag : Nat
  arg : Nat
  payload : List Byte
  input : Nat
  deriving DecidableEq, Repr

/-- The commands of the block, in the order of the table of operations and events, with twelve commands without operands put last
(so that every command with operands keeps a small constructor tag, which the compiler needs). -/
inductive Instr where
  /-- POWER_ON_RESET (R804). -/
  | powerOnReset (mode id : Nat)
  /-- WARMRST_N_FALL (R806). -/
  | warmrstNFall
  /-- WARM_RESET_REQ_WRITE (R125). -/
  | warmResetReqWrite (value : Nat)
  /-- REFCLK_25_LOSS (R856). -/
  | refclk25Loss
  /-- REFCLK_25_RETURN (R856). -/
  | refclk25Return (mode id : Nat)
  /-- PFAIL_N_ASSERT (R809). -/
  | pfailNAssert
  /-- SELFTEST (R824). -/
  | selftest (failed : List UnitName)
  /-- SELFTEST_COMPLETE (R812). -/
  | selftestComplete
  /-- PCIE_PERST_N_ASSERT (R847). -/
  | pciePerstNAssert
  /-- REGISTER_WRITE (R126). -/
  | registerWrite (fn offset value be : Nat)
  /-- ACCESS_ERR_CLEAR (R132). -/
  | accessErrClear (value : Nat)
  /-- UNMAPPED_READ (R129). -/
  | unmappedRead (fn offset : Nat)
  /-- EPOCH_LO_READ (R93). -/
  | epochLoRead
  /-- BAR2_WRITE (R875). -/
  | bar2Write (offset : Nat) (data : List (Option Byte))
  /-- BAR2_READ (R875). -/
  | bar2Read (offset len : Nat)
  /-- LINE_EDGE (R44). -/
  | lineEdge (src interval : Nat)
  /-- FRACTION_UPDATE (R45). -/
  | fractionUpdate (updates : Nat)
  /-- FRAME_START (R42). -/
  | frameStart (src : Nat)
  /-- EPOCH_FRAME_END (R47). -/
  | epochFrameEnd (src : Nat)
  /-- BLANKING_LINE (R47). -/
  | blankingLine
  /-- FREEWHEEL_ENTRY (R63). -/
  | freewheelEntry
  /-- FREEWHEEL_LINE (R63). -/
  | freewheelLine
  /-- HOLD_INTERVAL (R63). -/
  | holdInterval
  /-- REVERSE_COUNT (R48). -/
  | reverseCount (src : Nat)
  /-- SYNTHETIC_EDGE (R69). -/
  | syntheticEdge
  /-- SOURCE_WRITE (R50). -/
  | sourceWrite (v : Nat) (via : Via) (sub value : Nat)
  /-- VIRTUAL_RECORD_STEP (R67). -/
  | virtualRecordStep
  /-- CUE_ARM_WRITE (R91). -/
  | cueArmWrite (v : Nat) (via : Via) (slot : Nat)
  /-- CUE_ARM_COMMIT (R871). -/
  | cueArmCommit
  /-- CUE_CANCEL_WRITE (R80). -/
  | cueCancelWrite (v : Nat) (via : Via) (slot : Nat)
  /-- CUE_FIRE (R74). -/
  | cueFire
  /-- TRIG_PULSE_END (R84). -/
  | trigPulseEnd (pin : Nat)
  /-- DICT_READ (R142). -/
  | dictRead (v idx sub : Nat)
  /-- DICT_WRITE (R153). -/
  | dictWrite (v : Nat) (via : Via) (idx sub : Nat) (data : List Byte)
  /-- DICT_DESCRIBE (R141). -/
  | dictDescribe (v idx sub : Nat)
  /-- DEFERRED_WRITE_COMMIT (R160). -/
  | deferredWriteCommit (v : Nat)
  /-- STATE_REQUEST_READY (R173). -/
  | stateRequestReady (v : Nat) (via : Via)
  /-- STATE_REQUEST_CONFIG (R172). -/
  | stateRequestConfig (v : Nat) (via : Via)
  /-- STATE_REQUEST_RUN (R174). -/
  | stateRequestRun (v : Nat) (via : Via) (target : Nat)
  /-- STATE_REQUEST_HOLD (R763). -/
  | stateRequestHold (v : Nat) (via : Via)
  /-- STATE_REQUEST_HOLD_EXIT (R767). -/
  | stateRequestHoldExit (v : Nat) (via : Via)
  /-- BEHAVIOUR_LEVEL_REQUEST (R161). -/
  | behaviourLevelRequest (v : Nat) (via : Via) (level : Nat)
  /-- STORE (R164). -/
  | store (v : Nat) (via : Via) (value : Nat)
  /-- STORE_COMPLETE (R167). -/
  | storeComplete
  /-- STORE_ABANDONED (R167). -/
  | storeAbandoned
  /-- RESTORE (R169). -/
  | restore (v : Nat) (via : Via) (value : Nat)
  /-- BROADCAST_ENABLE (R182). -/
  | broadcastEnable (v : Nat) (via : Via) (ch value : Nat)
  /-- BROADCAST_MAP_WRITE (R181). -/
  | broadcastMapWrite (v : Nat) (via : Via) (ch k value : Nat)
  /-- CAN_READ (R214). -/
  | canRead (port : Nat) (frame : CanFrame)
  /-- CAN_WRITE (R220). -/
  | canWrite (port : Nat) (frame : CanFrame)
  /-- CAN_WRITE_INIT (R216). -/
  | canWriteInit (port : Nat) (frame : CanFrame)
  /-- CAN_DESCRIBE (R214). -/
  | canDescribe (port : Nat) (frame : CanFrame)
  /-- CAN_SEGMENT (R218). -/
  | canSegment (port : Nat) (frame : CanFrame)
  /-- CAN_SEGMENT_REQ (R218). -/
  | canSegmentReq (port : Nat) (frame : CanFrame)
  /-- CAN_CLIENT_ABORT (R229). -/
  | canClientAbort (port : Nat) (frame : CanFrame)
  /-- TRANSFER_TIMEOUT (R228). -/
  | transferTimeout (port : Nat)
  /-- MB_REQUEST (R201). -/
  | mbRequest (port mb : Nat)
  /-- MB_CANCEL (R205). -/
  | mbCancel (port mb : Nat)
  /-- CAN_ATTEMPT_END (R202). -/
  | canAttemptEnd (port : Nat) (report : AttemptReport)
  /-- CAN_FRAME_RECEIVED (R206). -/
  | canFrameReceived (port : Nat) (frame : CanFrame)
  /-- RX_POP (R206). -/
  | rxPop (port value : Nat)
  /-- HEARTBEAT (R234). -/
  | heartbeat (port : Nat)
  /-- BUS_OFF (R241). -/
  | busOff (port : Nat)
  /-- RECOVER (R242). -/
  | recover (v : Nat) (via : Via) (port value : Nat)
  /-- BUS_OFF_RECOVERY_END (R243): more sequences of 11 recessive bits have been seen. -/
  | busOffRecoveryEnd (seen : RecessiveRun)
  /-- CMD_DOORBELL (R269). -/
  | cmdDoorbell (v tail : Nat) (written : List (Nat × List Byte))
  /-- CPL_DOORBELL (R270). -/
  | cplDoorbell (v head : Nat)
  /-- RING_ENABLE (R266). -/
  | ringEnable (v : Nat)
  /-- RING_DISABLE (R267). -/
  | ringDisable (v : Nat)
  /-- VOICE_DRAIN_END (R306). -/
  | voiceDrainEnd (v : Nat)
  /-- DICT_GO_READ (R263). -/
  | dictGoRead (v : Nat)
  /-- DICT_GO_WRITE (R263). -/
  | dictGoWrite (v : Nat)
  /-- DICT_GO_DESCRIBE (R263). -/
  | dictGoDescribe (v : Nat)
  /-- INT_PENDING_CLEAR (R265). -/
  | intPendingClear (v value : Nat)
  /-- COMMAND_ADMISSION (R271). -/
  | commandAdmission
  /-- RUN_PASSAGE (R569). -/
  | runPassage (v : Nat)
  /-- RUN_TABLATURE (R517). -/
  | runTablature (v : Nat)
  /-- SOLVE_DELTA (R517). -/
  | solveDelta (v : Nat)
  /-- MOVE_TENSOR (R605). -/
  | moveTensor (v : Nat)
  /-- PIN_TENSOR (R613). -/
  | pinTensor (v : Nat)
  /-- CUE_ARM (R280). -/
  | cueArm (v : Nat)
  /-- CUE_CANCEL (R281). -/
  | cueCancel (v : Nat)
  /-- DICT_OP_READ (R282). -/
  | dictOpRead (v : Nat)
  /-- DICT_OP_WRITE (R282). -/
  | dictOpWrite (v : Nat)
  /-- DICT_OP_DESCRIBE (R282). -/
  | dictOpDescribe (v : Nat)
  /-- FENCE (R285). -/
  | fence (v : Nat)
  /-- FENCE_COMPLETE (R623). -/
  | fenceComplete (v : Nat)
  /-- LULL (R681). -/
  | lull (v : Nat)
  /-- COMPLETION_WRITE (R275). -/
  | completionWrite (v : Nat)
  /-- WAITING_COMPLETION_WRITE (R276). -/
  | waitingCompletionWrite (v : Nat)
  /-- FUNCTION_LEVEL_RESET (R305). -/
  | functionLevelReset (fn : Nat)
  /-- VF_ENABLE_CLEAR (R305). -/
  | vfEnableClear
  /-- VOICE_RESET_ENTRY (R305). -/
  | voiceResetEntry (v : Nat) (via : Via) (target value : Nat)
  /-- D3HOT_ENTRY (R259). -/
  | d3hotEntry (fn : Nat)
  /-- HOST_MEMORY_FAILURE (R314). -/
  | hostMemoryFailure (v : Nat) (failure : HostFailure)
  /-- TUNNEL_WRITE (R254). -/
  | tunnelWrite (v : Nat) (via : Via) (target value : Nat)
  /-- QUOTA_WRITE (R312). -/
  | quotaWrite (v : Nat) (via : Via) (target sub value : Nat)
  /-- USB_DICT_READ (R294). -/
  | usbDictRead (setup : UsbSetup)
  /-- USB_DICT_WRITE_DATA (R291). -/
  | usbDictWriteData (setup : UsbSetup) (data : List Byte)
  /-- USB_DICT_WRITE_STATUS (R292). -/
  | usbDictWriteStatus
  /-- USB_DICT_DESCRIBE (R294). -/
  | usbDictDescribe (setup : UsbSetup)
  /-- GET_ABORT (R295). -/
  | getAbort (setup : UsbSetup)
  /-- USB_BUS_RESET (R303). -/
  | usbBusReset
  /-- SET_CONFIGURATION (R299). -/
  | setConfiguration (value : Nat)
  /-- USB_DETACH (R848). -/
  | usbDetach
  /-- USB_COMMAND_RECORD (R299). -/
  | usbCommandRecord (hdr : RecordHeader) (payload : List Byte)
  /-- TENSOR_WRITE (R301). -/
  | tensorWrite (hdr : RecordHeader) (payload : List Byte)
  /-- TENSOR_READ (R302). -/
  | tensorRead (hdr : RecordHeader)
  /-- MAP_IMPORT (R499). -/
  | mapImportRecord (hdr : RecordHeader) (payload : List Byte)
  /-- USB_HEADER_ERROR (R300). -/
  | usbHeaderError (hdr : RecordHeader)
  /-- CLEAR_FEATURE (R300). -/
  | clearFeature
  /-- CSI_FRAME_START (R329). -/
  | csiFrameStart (link vc : Nat)
  /-- CSI_LONG_PACKET (R320). -/
  | csiLongPacket (link : Nat) (pkt : LongPacket)
  /-- CSI_FRAME_END (R323). -/
  | csiFrameEnd (link vc : Nat)
  /-- TRIGGER_EXPIRY (R332). -/
  | triggerExpiry (c : Nat)
  /-- EXTRACTION_RUN_START (R343). -/
  | extractionRunStart (c : Nat)
  /-- PENDING_RUN_START (R346). -/
  | pendingRunStart (c : Nat)
  /-- EXTRACTION_RUN_END (R369). -/
  | extractionRunEnd (c : Nat)
  /-- CAMERA_ENABLE (R371). -/
  | cameraEnable (v : Nat) (via : Via) (c value : Nat)
  /-- RECT_ENABLE (R334). -/
  | rectEnable (v : Nat) (via : Via) (c value : Nat)
  /-- CAMERA_INJECT (R376). -/
  | cameraInject (v : Nat) (via : Via) (c tensor : Nat)
  /-- VIRTUAL_FRAME_DELIVERY (R375). -/
  | virtualFrameDelivery (c : Nat)
  /-- COMB_OUTPUT_SAMPLE (R388). -/
  | combOutputSample (c : Nat) (bits : List Bool)
  /-- SPI_DRDY_EDGE (R390). -/
  | spiDrdyEdge (m : Nat)
  /-- SPI_BURST_END (R392). -/
  | spiBurstEnd (m : Nat) (rx : List Byte)
  /-- OUTPUT_EMERGE (R404). -/
  | outputEmerge (c : Nat)
  /-- VIRTUAL_SAMPLE_ENTRY (R398). -/
  | virtualSampleEntry (c : Nat)
  /-- INERTIAL_INJECT (R399). -/
  | inertialInject (v : Nat) (via : Via) (c tensor : Nat)
  /-- COEF_LOAD (R411). -/
  | coefLoad (v : Nat) (via : Via) (c tensor : Nat)
  /-- COEF_LOAD_COMPLETE (R411). -/
  | coefLoadComplete (g : Nat)
  /-- SWAP (R412). -/
  | swap (v : Nat) (via : Via) (c value : Nat)
  /-- SYNC_N_FALL (R415). -/
  | syncNFall
  /-- SYNC_WRITE (R415). -/
  | syncWrite (v : Nat) (via : Via) (c value : Nat)
  /-- CHANNEL_RESTART (R417). -/
  | channelRestart (v : Nat) (via : Via) (c sub value : Nat)
  /-- ENCODER_EDGE (R426). -/
  | encoderEdge (e : Nat) (a b : Bool)
  /-- INDEX_EVENT (R429). -/
  | indexEvent (e : Nat)
  /-- PRESET (R427). -/
  | preset (v : Nat) (via : Via) (e value : Nat)
  /-- INSTANCE_ENABLE (R440). -/
  | instanceEnable (v : Nat) (via : Via)
  /-- INSTANCE_DISABLE (R443). -/
  | instanceDisable (v : Nat) (via : Via)
  /-- FRAME_PROCESSING_START (R454). -/
  | frameProcessingStart (i : Nat)
  /-- CLOSURE_DUE (R477). -/
  | closureDue (i : Nat)
  /-- CLEAR (R481). -/
  | clearMap (v : Nat) (via : Via) (value : Nat)
  /-- EXPORT (R497). -/
  | exportMap (v : Nat) (via : Via) (value : Nat)
  /-- EXPORT_COMPLETE (R498). -/
  | exportComplete (i : Nat)
  /-- IMPORT (R500). -/
  | importMap (v : Nat) (via : Via) (tensor : Nat)
  /-- ESTIMATOR_INJECT (R450). -/
  | estimatorInject (v : Nat) (via : Via) (tensor : Nat)
  /-- SOLVER_REQUEST_START (R519). -/
  | solverRequestStart (lane : Nat)
  /-- SOLVER_RESULT_WRITE (R541). -/
  | solverResultWrite (lane : Nat)
  /-- FACTOR_REEVALUATION (R538). -/
  | factorReevaluation (lane : Nat)
  /-- EVICT (R516). -/
  | evict (v : Nat) (via : Via) (tensor : Nat)
  /-- PASSAGE_RUN_START (R575). -/
  | passageRunStart (p : Nat)
  /-- OPERATOR_GRANT (R555). -/
  | operatorGrant
  /-- OPERATOR_END (R579). -/
  | operatorEnd (p op : Nat)
  /-- PASSAGE_RUN_COMPLETE (R581). -/
  | passageRunComplete (p : Nat)
  /-- CREATE (R598). -/
  | create (v : Nat) (via : Via) (descriptor : List Byte)
  /-- RELEASE (R601). -/
  | release (v : Nat) (via : Via) (tensor : Nat)
  /-- REFRESH (R603). -/
  | refresh (v : Nat) (via : Via) (tensor : Nat)
  /-- TENSOR_MOVE_COMPLETE (R605). -/
  | tensorMoveComplete (tensor : Nat)
  /-- STALL_MOVE (R607). -/
  | stallMove (tensor tier array : Nat)
  /-- WRITE_BACK_COMPLETE (R611). -/
  | writeBackComplete (tensor : Nat)
  /-- RELOCATION (R592). -/
  | relocation (tensor tier target : Nat)
  /-- TIER2_ECC_EVENT (R630). -/
  | tier2EccEvent (address : Nat) (corrected : Bool)
  /-- ENGINE_TENSOR_RECREATE (R632). -/
  | engineTensorRecreate (tensor : Nat)
  /-- LANE_LOCK (R643). -/
  | laneLock (p : Nat) (lane : LaneHeaders)
  /-- LANE_LOCK_LOSS (R644). -/
  | laneLockLoss (p : Nat) (lanes : List LaneHeaders)
  /-- STRING_LOCKING (R645). -/
  | stringLocking (p : Nat)
  /-- LOCKING_TIMEOUT (R646). -/
  | lockingTimeout (p : Nat)
  /-- ADDRESS_LEARN (R651). -/
  | addressLearn
  /-- PLAN_CHECK (R652). -/
  | planCheck (p : Nat) (flits : List LaneFlit)
  /-- MISWIRED_RETRY (R645). -/
  | miswiredRetry (p : Nat)
  /-- RATE_SWITCH (R649). -/
  | rateSwitch (p : Nat) (relocked : List Nat)
  /-- LANE_TEST_COMPLETE (R649). -/
  | laneTestComplete (p : Nat) (passed : List LaneTail)
  /-- REQUIRED_WIDTH_WRITE (R639). -/
  | requiredWidthWrite (v : Nat) (via : Via) (p value : Nat)
  /-- RCLK_IN_LOSS (R648). -/
  | rclkInLoss
  /-- RCLK_IN_RETURN (R648). -/
  | rclkInReturn
  /-- RT_ALIGN (R655). -/
  | rtAlign (p : Nat) (train : RtEcho) (elapsed : Nat)
  /-- TRAIN_FLIT_RECEIVED (R645). -/
  | trainFlitReceived (flit : StringBlock)
  /-- DATA_FLIT_RECEIVED (R658). -/
  | dataFlitReceived (p : Nat) (header : BitVec 2) (body : BitVec 256)
  /-- NACK (R659). -/
  | nack (p : Nat) (block : LaneBlock)
  /-- REPLAY (R659). -/
  | replay (p : Nat) (block : LaneBlock)
  /-- ACK (R660). -/
  | ack (p : Nat) (block : LaneBlock)
  /-- ACK_SEND (R660). -/
  | ackSend (p : Nat)
  /-- REPLAY_TIMEOUT (R661). -/
  | replayTimeout (p : Nat)
  /-- CREDIT (R664). -/
  | credit (p : Nat) (block : LaneBlock)
  /-- CREDIT_SEND (R664). -/
  | creditSend (p : Nat)
  /-- PACKET_ROUTE (R668). -/
  | packetRoute (pkt : Packet)
  /-- ROUTE_FAIL_RECEIVED (R682). -/
  | routeFailReceived (pkt : Packet)
  /-- DETOUR_ENTRY (R671). -/
  | detourEntry (v : Nat) (via : Via) (value : Nat)
  /-- DETOUR_CLEAR (R671). -/
  | detourClear (v : Nat) (via : Via) (value : Nat)
  /-- EPOCH_PACKET (R677). -/
  | epochPacket (pkt : Packet)
  /-- EPOCH_RECORD_APPLY (R678). -/
  | epochRecordApply
  /-- LULL_ARRIVE (R681). -/
  | lullArrive (pkt : Packet)
  /-- LULL_RELEASE (R681). -/
  | lullRelease (pkt : Packet)
  /-- OPEN (R684). -/
  | openTunnel (pkt : Packet)
  /-- TUNNEL_COMMAND (R685). -/
  | tunnelCommand (pkt : Packet)
  /-- DICT_REQ (R686). -/
  | dictReq (pkt : Packet)
  /-- DMA_DATA (R687). -/
  | dmaData (pkt : Packet)
  /-- DMA_TIMEOUT (R687). -/
  | dmaTimeout (v id : Nat)
  /-- STORE_DATA (R688). -/
  | storeData (pkt : Packet)
  /-- CAM_DATA (R689). -/
  | camData (pkt : Packet)
  /-- IMU_SAMPLES (R690). -/
  | imuSamples (pkt : Packet)
  /-- INJECT_LIST (R690). -/
  | injectList (pkt : Packet)
  /-- INJECT_RECORDS (R690). -/
  | injectRecords (pkt : Packet)
  /-- BREEZE_ENABLE (R694). -/
  | breezeEnable (v : Nat) (via : Via) (value : Nat)
  /-- TX (R722). -/
  | tx (v : Nat) (via : Via) (data : List Byte)
  /-- BEACON (R714). -/
  | beacon
  /-- SLOT_TRANSMIT (R724). -/
  | slotTransmit
  /-- BREEZE_SYNC (R705, R706): the received levels up to the last bit of a sync word, one for each bit time. -/
  | breezeSync (levels : List Nat)
  /-- BREEZE_HEADER (R707): the next levels, up to the end of the header CRC. -/
  | breezeHeader (levels : List Nat)
  /-- BREEZE_FRAME_RECEIVED (R729): the levels of payload and payload CRC, with CONTRAST and RSSI over the preamble (R710). -/
  | breezeFrameReceived (contrast rssi : Nat) (payload crc : List Nat)
  /-- BEACON_RECEIVED (R717). -/
  | beaconReceived (contrast rssi : Nat) (payload crc : List Nat)
  /-- BREEZE_ACK_SEND (R727). -/
  | breezeAckSend
  /-- BREEZE_ACK_RECEIVED (R724). -/
  | breezeAckReceived (contrast rssi : Nat) (payload crc : List Nat)
  /-- ACK_TIMEOUT (R727). -/
  | ackTimeout
  /-- BEACON_MISSED (R720). -/
  | beaconMissed
  /-- SLOT_OVERRUN (R716). -/
  | slotOverrun
  /-- SOURCE_FORGET (R730). -/
  | sourceForget (source : Nat)
  /-- DEMAND_TICK (R750). -/
  | demandTick (utilisation : Nat)
  /-- THERMAL_TICK (R754). -/
  | thermalTick (sensors : List Int)
  /-- THERMAL_RELEASE (R754). -/
  | thermalRelease
  /-- CURRENT_LIMIT_STEP (R757). -/
  | currentLimitStep (icore : Nat)
  /-- CURRENT_RELEASE (R757). -/
  | currentRelease
  /-- CEILING_FLOOR_WRITE (R744). -/
  | ceilingFloorWrite (v : Nat) (via : Via) (sub value : Nat)
  /-- THERMAL_TRIP (R764). -/
  | thermalTrip (tj : Int)
  /-- TRIP_RESUME (R764). -/
  | tripResume (tj : Int)
  /-- RAIL_LINK_FAILURE (R770). -/
  | railLinkFailure (outputFault : Bool)
  /-- VR_ALERT_N (R770). -/
  | vrAlertN (statusWord : Nat)
  /-- ERROR_DETECTED (R773). -/
  | errorDetected (unit : UnitName) (check address : Nat)
  /-- FAULTED_ENTRY (R780). -/
  | faultedEntry (cause : Nat)
  /-- ATTN_ACK (R784). -/
  | attnAck (v : Nat) (via : Via) (value : Nat)
  /-- OVERFLOW_CLEAR (R787). -/
  | overflowClear (v : Nat) (via : Via) (value : Nat)
  /-- PERSIST_CLEAR (R791). -/
  | persistClear (v : Nat) (via : Via) (value : Nat)
  /-- NONCE (R794). -/
  | nonce (v : Nat) (via : Via) (data : List Byte)
  /-- LOCK (R797). -/
  | lock (v : Nat) (via : Via) (value : Nat)
  /-- FW_INSTALL (R821). -/
  | fwInstall (v : Nat) (via : Via) (tensor : Nat)
  /-- ATTEMPT_START (R201). -/
  | attemptStart (port : Nat)
  /-- RECEIVE_ERROR (R239). -/
  | receiveError (port amount : Nat)
  /-- VF_ENABLE_SET (R250). -/
  | vfEnableSet (numVfs : Nat)
  /-- D0_RETURN (R259). -/
  | d0Return (fn : Nat)
  /-- HOLDOFF_EXPIRY (R265). -/
  | holdoffExpiry (v vector : Nat)
  /-- NO_NEIGHBOUR (R652). -/
  | noNeighbour (p : Nat)
  /-- BAD_CONTROL_FLIT (R642). -/
  | badControlFlit (flit : StringBlock)
  /-- TAP_INSTRUCTION (R859). -/
  | tapInstruction (ir : TapInstruction)
  /-- VR_SETTLE (R745). -/
  | vrSettle
  /-- IDLE_GATE_ENTRY (R761). -/
  | idleGateEntry
  /-- IDLE_GATE_EXIT (R762). -/
  | idleGateExit
  /-- HOLD_ENTRY_COMPLETE (R763). -/
  | holdEntryComplete
  /-- SIGNATURE_COMPLETE (R795). -/
  | signatureComplete
  /-- FW_INSTALL_COMPLETE (R822). -/
  | fwInstallComplete
  /-- FW_INSTALL_ABANDONED (R823). -/
  | fwInstallAbandoned
  /-- PCIE_PERST_N_RELEASE (R847). -/
  | pciePerstNRelease
  /-- USB_ATTACH (R848). -/
  | usbAttach
  /-- STATUS_REPORT (R289). -/
  | statusReport
  /-- HOLD_EXIT_COMPLETE (R767). -/
  | holdExitComplete
  /-- PFAIL_N_RELEASE (R809). -/
  | pfailNRelease
  deriving DecidableEq, Repr

end Sys2Proof
end

