-- ==== Sys2Proof/Config.lean ====
section
/-! DEFINITION. What one engine fixes and what the manual leaves open: opaque constants, so that no proof can
see a value of any of them. -/

namespace Sys2Proof.Config

/-- A fresh free value: of a use of free values (log entry 7) the `n`-th. -/
opaque freeValue : Nat → Nat → Nat

/-- The identity serial fused at manufacture, 128 bits (R792, Table 16.6). -/
opaque serial : Nat

/-- The 64 bytes of the fused public key, X then Y (R792, Table 16.6). -/
opaque publicKey : List (BitVec 8)

/-- The X.509 certificate of the device authority (R793). -/
opaque certificate : List (BitVec 8)

/-- The ECDSA P-256 signature of the device key over the 73 bytes of R794, as 64 bytes r then s (R795). -/
opaque signature : List (BitVec 8) → List (BitVec 8)

/-- The gradient operator of the tracker (R365), which no rule gives: the axis (0 x, 1 y) and the 5 × 5 FP32 samples of the
previous level about a window's pixel, none where one lies outside the valid area (log entry 12). -/
opaque gradient : Nat → List (Option Nat) → Nat

/-- The tracker's step for a singular gradient matrix, for which R366's closed form states none: the axis, the matrix and the
right-hand side (log entry 12). -/
opaque singularStep : Nat → List Nat → Nat

/-- RESIDUAL (0) and MIN_EIG (1) of a LOST_BORDER record, which has no final window (log entry 12). -/
opaque borderField : Nat → List Nat → Nat

/-- How many records the queue of USB endpoint 1 IN holds before a RAW record finds it full (R433); no rule gives it
(log entry 13). -/
opaque endpointQueue : Nat

/-- Which of the image widths that fit a CONV2D or pooling operator's element counts its input has: Table 11.9 gives the
counts, not the width (log entry 15). Arguments: input pixels, output pixels, window, stride and padding. -/
opaque imageWidth : Nat → Nat → Nat → Nat → Nat → Nat

/-- The FP32 pattern of the maximum of a window that holds a NaN, which R568 does not state (log entry 15). -/
opaque maxOfNan : List Nat → Nat

/-- The estimator's numeric core, whose internals chapter 9 does not describe (log entry 11): what is asked, its inputs,
and the number of an output. What: 0 parallax of a track, 1 initialisation, 2 window solve, 3 one step of propagation, 4 a
hypothesis from three matches, 5 closure, 6 triangulation of a record, 7 relocalisation, 8 reprojection error of a match,
9 median of an even count, 10 edge between two keyframes, 11 a keyframe or point moved by a closure, 12 marginalisation,
13 a pixel of an injected record's frame, 14 growth of the covariance, 15 biases of a pose. -/
opaque estimate : Nat → List Nat → Nat → Nat

/-- The passages of the default descriptor (10) and place (11) models of the image that the part comes with (Table 17.6; log
entry 11). -/
opaque defaultModel : Nat → List (BitVec 8)

/-- Byte by byte what the WEIGHT slots of the image's default models hold, which no rule gives: model, slot, offset (log entry
11). -/
opaque defaultWeight : Nat → Nat → Nat → BitVec 8

/-- The ECDSA P-256 signature of a firmware image is valid and its key has the fused hash (R816, R821; log entry 8). -/
opaque imageSigned : List (BitVec 8) → Bool

/-- Both default models of a firmware image verify (R820; log entry 8). -/
opaque modelsSigned : List (BitVec 8) → Bool

end Sys2Proof.Config
end

