-- ==== Sys2Proof/Machine/State.lean ====
section
/-! DEFINITION. The state of one SLE-480 engine as plain data, and the state in which power-on leaves it. -/

namespace Sys2Proof.Machine

/-- A table of values by number, in ascending order of number; an unlisted number holds the reader's default. -/
abbrev Tab (α : Type) := List (Nat × α)

/-- A byte memory: listed addresses in ascending order, no zero listed; an unlisted address reads zero. -/
abbrev Memory := List Host.Cell

/-! ### Epoch (chapter 2) -/

/-- An epoch position in its three fields (R36, R87). -/
structure Pos where
  frame : Nat := 0
  line : Nat := 0
  frac : Nat := 0
  deriving DecidableEq, Repr

/-- Table 2.6. -/
inductive EpochState where
  | stopped | running | blanking | freewheel | held
  deriving DecidableEq, Repr

/-- Why the epoch is HELD: the end of the frame (R49) or a reverse count (R48). -/
inductive HeldWhy where
  | endOfFrame | reverse
  deriving DecidableEq, Repr

/-- The epoch unit (R36 to R69). `elapsed` is in units of 1/256 ns. -/
structure Epoch where
  pos : Pos := {}
  st : EpochState := .stopped
  why : HeldWhy := .endOfFrame
  estimate : Nat := 0
  fresh : Bool := true
  measurable : Bool := false
  elapsed : Nat := 0
  headerSeen : Bool := false
  rawLines : Nat := 0
  freewheelCount : Nat := 0
  frameLines : Nat := 1024
  active : Option Nat := none
  pendingSource : Option Nat := none
  pendingLines : Option Nat := none
  encRaw : Int := 0
  encMax : Int := 0
  synthOn : Bool := false
  synthPeriod : Nat := 10240000
  /-- time since the generator started or made its last edge, in units of 1/256 ns (R69) -/
  synthElapsed : Nat := 0
  virtual : Option (Nat × Nat) := none
  /-- in BLANKING, the elapsed time at which the next line falls due (R47) -/
  synthAt : Nat := 0
  stoppedCond : Bool := false
  deriving DecidableEq, Repr

/-- Who uses a cue slot: a voice, or one of the engine's internal users (R70, R71, R184, R389, R448, R723). -/
inductive CueUse where
  | voice
  | estimator (i part : Nat)
  | breeze
  | spi (m : Nat)
  | broadcast (c : Nat)
  | solve (lane : Nat)
  deriving DecidableEq, Repr

/-- One cue slot, Table 2.12; `fired` and `late` since the last arm, which took effect in update `at_` (R76, R80), `passed`
when a frame start has passed over the target (R77), `tag` the ledger tag of the entry it holds (R72); `waits` while an
engine's arm of the slot has not reached its update (R871). -/
structure Cue where
  armed : Bool := false
  action : Nat := 0
  target : Nat := 0
  period : Nat := 0
  remaining : Nat := 0
  arg : Nat := 0
  armedBy : Nat := 0xFF
  lastFired : Nat := 0
  flags : Nat := 0
  fired : Bool := false
  late : Bool := false
  passed : Bool := false
  tag : Nat := 0
  use : CueUse := .voice
  at_ : Nat := 0
  waits : Bool := false
  deriving DecidableEq, Repr

/-- One TRIG_OUT pin (R84): asserted since update `at_` or resting, the polarity of the pulse, where the pulse ends, whether
its end had been reached when it was driven, the rest level. -/
structure TrigPin where
  asserted : Bool := false
  activeHigh : Bool := true
  endPos : Nat := 0
  atOnce : Bool := false
  rest : Bool := false
  at_ : Nat := 0
  deriving DecidableEq, Repr

/-- A dictionary write that the server has accepted: voice, way, entry and bytes. -/
structure DictReq where
  voice : Nat
  via : Via
  idx : Nat
  sub : Nat
  data : List Byte
  /-- the completion of a DICT_OP (R282) -/
  cookie : Nat := 0
  irq : Bool := false
  /-- checks 1 to 8 were run when the transfer was opened (R216, R291) -/
  opened : Bool := false
  /-- FDF and BRS of a CAN transaction's first request (R213) -/
  fdf : Bool := false
  brs : Bool := false
  deriving DecidableEq, Repr

/-- An arm that reached the unit in update `at_` and waits for the rate of one per 4 ETICK (R871): from a STATE write, a
CUE_ARM command, or the engine itself, whose slot holds the cue already. -/
structure ArmWait where
  voice : Nat
  slot : Nat
  at_ : Nat := 0
  engine : Bool := false
  /-- the STATE write to commit, or the CUE_ARM command's tag, cookie and IRQ flag -/
  write : Option DictReq
  tag : Nat := 0
  cookie : Nat := 0
  irq : Bool := false
  action : Nat := 0
  target : Nat := 0
  period : Nat := 0
  remaining : Nat := 0
  arg : Nat := 0
  deriving DecidableEq, Repr

/-! ### Registers, dictionary and voices (chapters 3 to 6) -/

/-- Table 4.11. -/
inductive EngineState where
  | reset | boot | selftest | config | ready | run | hold | faulted
  deriving DecidableEq, Repr

/-- Table 0.7 (MODE[1:0] latched at the rise of PORST_N, R805). -/
inductive Mode where
  | field | mesh | bench | test
  deriving DecidableEq, Repr

/-- The strap balls as latched. -/
structure Straps where
  mode : Mode := .field
  ident : Nat := 0
  deriving DecidableEq, Repr

/-- The ordering grades of Table 0.2. -/
inductive Grade where
  | fi | mc
  deriving DecidableEq, Repr

/-- An access error latch: ACCESS_ERR and its three companions (Tables 3.13, 3.14). -/
structure ErrLatch where
  bits : Nat := 0
  offset : Nat := 0
  data : Nat := 0
  count : Nat := 0
  deriving DecidableEq, Repr

/-- The engine control block's own registers (Tables 3.12, 3.14). -/
structure Control where
  scratch : Nat := 0
  err : ErrLatch := {}
  bar2Enable : Bool := false
  deriving DecidableEq, Repr

/-- KIND of a completion (Table 6.12). -/
inductive CplKind where
  | command | cueSignal | pose | notice
  deriving DecidableEq, Repr

/-- A completion before it is written: everything of Table 6.12 but PHASE and STAMP. -/
structure Completion where
  kind : CplKind
  tag : Nat := 0
  opcode : Nat := 0
  status : Nat := 0
  cookie : Nat := 0
  info : Nat := 0
  data : Nat := 0
  irq : Bool := false
  /-- the command holds a ledger entry until this completion is written (R273) -/
  holds : Bool := false
  deriving DecidableEq, Repr

/-- A command taken from a ring and not yet carried out (R271), and the count of voice resets at its admission (R869). -/
structure Admitted where
  tag : Nat
  bytes : List Byte
  born : Nat := 0
  deriving DecidableEq, Repr

/-- VOICE_STATUS.STATE (Table 6.7). -/
inductive VoiceState where
  | idle | active | draining | stopped
  deriving DecidableEq, Repr

/-- The part of a voice that a voice reset clears (Tables 6.6, 6.7, R305). -/
structure Voice where
  state : VoiceState := .idle
  stopCause : Nat := 0
  ringEnable : Bool := false
  cmdBase : Nat := 0
  cplBase : Nat := 0
  cmdLog2 : Nat := 4
  cplLog2 : Nat := 4
  cmdHead : Nat := 0
  cmdTail : Nat := 0
  cplTail : Nat := 0
  cplHead : Nat := 0
  phase : Bool := true
  intCtrl : Nat := 0
  intMapA : Nat := 0
  intMapB : Nat := 0
  intPending : Nat := 0
  /-- per vector: the update of its last MSI-X message, and whether a source waits for it -/
  lastMsg : Tab Nat := []
  waitMsg : List Nat := []
  msix : Tab Nat := []
  err : ErrLatch := {}
  dictAddr : Nat := 0
  dictLen : Nat := 0
  dictBusy : Bool := false
  dictLength : Nat := 0
  dictAbort : Nat := 0
  dictBuf : Memory := []
  admitted : Option Admitted := none
  /-- the command at the head of the ring has been counted in QUOTA_WAITS -/
  waited : Bool := false
  fence : Option Completion := none
  /-- completions produced and not yet written; those that a full ring holds back (R276) -/
  cpl : List Completion := []
  waiting : List Completion := []
  /-- the engine-held ring of V15 and of a tunnel voice (R299, R685): commands and the count of tags -/
  queue : List (List Byte) := []
  tags : Nat := 0
  /-- DRAINING because of a voice reset (R306), not of RING_ENABLE 0 (R267) -/
  resetDrain : Bool := false
  deriving DecidableEq, Repr

/-- The part of a voice that its reset keeps. -/
structure VoiceKeep where
  binding : Nat := 0xFF
  overQuota : Bool := false
  /-- the NOTICE with code 1 held for the first ring after a reset (R306) -/
  notice : Bool := false
  journalSeq : Nat := 0
  journal : List Nat := []
  deferred : List DictReq := []
  /-- the update of the voice's last commit (R160) -/
  committed : Option Nat := none
  d3 : Bool := false
  deriving DecidableEq, Repr

/-- One MSI-X message sent: function (0 the PF, k VF k), vector, address and data. -/
structure MsixMsg where
  fn : Nat
  vector : Nat
  addr : Nat
  data : Nat
  deriving DecidableEq, Repr

/-- What the server answered to the last dictionary operation. -/
structure Reply where
  voice : Nat
  op : Nat
  idx : Nat
  sub : Nat
  abort : Nat
  data : List Byte := []
  deriving DecidableEq, Repr

/-- What the configuration space of the endpoint says of it (R256, Table 6.3). -/
structure PcieIdentity where
  vendor : Nat := 0x1F7A
  device : Nat := 0x0480
  vfDevice : Nat := 0x0481
  classCode : Nat := 0x120000
  revision : Nat := 0x00
  totalVfs : Nat := 12
  initialVfs : Nat := 12
  firstVfOffset : Nat := 1
  vfStride : Nat := 1
  ari : Bool := true
  tenBitTags : Bool := true
  noSoftReset : Bool := true
  aspmL1 : Bool := true
  deriving DecidableEq, Repr

/-- What one function's configuration space holds beside its identity (R256, R260, R265): sizes in bytes, the MSI-X Enable and
Function Mask bits, the Uncorrectable Error Status register of AER, and the Received Target Abort and Received Master Abort
bits of its Status register (bits 12 and 13). No command writes the first four (log entry 49). -/
structure PcieFn where
  maxPayload : Nat := 128
  maxReadRequest : Nat := 512
  msixEnable : Bool := true
  funcMask : Bool := false
  aer : Nat := 0
  status : Nat := 0
  deriving DecidableEq, Repr

/-- The PCI Express endpoint's own state (R250 to R260, R847): the rate of the trained link in tenths of a GT/s, and the failures
reported through AER, by function, the latest first. -/
structure Pcie where
  identity : PcieIdentity := {}
  fns : Tab PcieFn := []
  width : Nat := 4
  rate : Nat := 160
  reported : List (Nat × HostError) := []
  vfEnable : Bool := false
  numVfs : Nat := 0
  perstLow : Bool := false
  trained : Bool := true
  deriving DecidableEq, Repr

/-- A record queued on endpoint 1 IN (Table 6.17). -/
structure UsbRecord where
  rtype : Nat
  flags : Nat := 0
  ident : Nat := 0
  offset : Nat := 0
  payload : List Byte := []
  deriving DecidableEq, Repr

/-- What the descriptors of the USB device say (R289, Table 6.14); packet sizes in bytes at high and at full speed. -/
structure UsbDescriptors where
  idVendor : Nat := 0x3B1E
  idProduct : Nat := 0x0480
  bcdDevice : Nat := 0x0A00
  deviceClass : Nat := 0xFF
  interfaceClass : Nat := 0xFF
  configurations : Nat := 1
  interfaces : Nat := 1
  manufacturer : String := "Gonior Semiconductor"
  product : String := "Keacen SLE-480"
  attributes : Nat := 0xC0
  maxPower : Nat := 0
  control : Nat := 64
  bulk : Nat × Nat := (512, 64)
  interrupt : Nat × Nat := (128, 64)
  interval : Nat × Nat := (4, 1)
  deriving DecidableEq, Repr

/-- The USB port (R289 to R304). -/
structure Usb where
  /-- the update of the warm reset that detached the port, for 10 ms (Table 17.2) -/
  warmAt : Option Nat := none
  descriptors : UsbDescriptors := {}
  attached : Bool := false
  configured : Bool := false
  ringOn : Bool := false
  halted : Bool := false
  pendingWrite : Option (UsbSetup × List Byte) := none
  /-- the status stage of a write that R160 has put off is still open -/
  statusWaits : Bool := false
  lastReq : Option (UsbSetup × List Byte) := none
  lastAnswer : Option (List Byte) := none
  abort : List Byte := []
  reply : Option (List Byte) := none
  inRecords : List UsbRecord := []
  /-- the chunks of a map import by instance: offset and bytes -/
  imports : Tab (List (Nat × List Byte)) := []
  ep2 : List (List Byte) := []
  lastReport : List Byte := []
  deriving DecidableEq, Repr

/-! ### CAN FD ports (chapter 5) -/

/-- MB_STATUS.STATE (Table 5.5). -/
inductive MbState where
  | idle | pending | active | transmitted | cancelled | parked
  deriving DecidableEq, Repr

/-- One transmit mailbox. `channel` is the broadcast channel that holds it (R199). -/
structure Mailbox where
  ide : Bool := false
  ident : Nat := 0
  host : Bool := false
  brs : Bool := false
  fdf : Bool := false
  length : Nat := 0
  data : List Byte := []
  st : MbState := .idle
  cancelLate : Bool := false
  clash : Bool := false
  clashCount : Nat := 0
  cancelOut : Bool := false
  /-- an attempt of this frame has started (R236) -/
  tried : Bool := false
  channel : Option Nat := none
  /-- frames of the mailbox's service that wait behind the one in it -/
  next : List CanFrame := []
  deriving DecidableEq, Repr

/-- A frame in the receive FIFO with its stamp and its filter (R206, R208). -/
structure RxFrame where
  frame : CanFrame
  stamp : Nat
  filter : Nat
  deriving DecidableEq, Repr

/-- The open segmented transfer of a port (R214 to R229). -/
structure Transfer where
  tag : Nat
  writing : Bool
  idx : Nat
  sub : Nat
  total : Nat
  fdf : Bool
  brs : Bool
  toggle : Bool := false
  bytes : List Byte := []
  /-- the update of the last accepted client frame (R228) -/
  at_ : Nat
  deriving DecidableEq, Repr

/-- One CAN FD port's state beside its dictionary entries. -/
structure CanPort where
  joined : Bool := false
  mailboxes : Tab Mailbox := []
  filterId : Tab Nat := []
  filterMask : Tab Nat := []
  fifo : List RxFrame := []
  stampHi : Nat := 0
  attempt : Option Nat := none
  /-- the frame of the latest attempt as it stands on the bus, ESI included (R188) -/
  txFrame : Option CanFrame := none
  /-- the update in which an error-passive port ended a transmission (R240) -/
  suspendAt : Option Nat := none
  recovering : Bool := false
  /-- the update in which recovery started, and the sequences of 11 recessive bits counted since (R242) -/
  recoverAt : Nat := 0
  recovery : Nat := 0
  /-- the update of the latest heartbeat (R234) -/
  beatAt : Option Nat := none
  transfer : Option Transfer := none
  /-- the last request frame accepted, and the response to it once there is one (R222) -/
  lastReq : Option CanFrame := none
  lastRsp : Option CanFrame := none
  lastTag : Option Nat := none
  /-- FDF and BRS of the transaction's first request (R213) -/
  rspFdf : Bool := false
  rspBrs : Bool := false
  beats : Nat := 0
  deriving DecidableEq, Repr

/-! ### Tensors and the ledger (chapter 12) -/

/-- A tensor's descriptor, Table 12.5 (PINNED and IN_FLIGHT are views of `pinTier` and the ledger). -/
structure Tensor where
  gen : Nat := 1
  owner : Nat := 0
  bill : Nat := 0
  size : Nat := 0
  format : Nat := 0
  home : Nat := 1
  homeAddr : Nat := 0
  work : Nat := 0xFF
  array : Nat := 0xFF
  workAddr : Nat := 0
  dirty : Bool := false
  lost : Bool := false
  pinTier : Nat := 0xFF
  /-- a command made the pin, beside the engine's own of a held lookup (R335, R613) -/
  voicePin : Bool := false
  share : Nat := 0
  moves : Nat := 0
  lastUse : Nat := 0
  lastWrite : Nat := 0
  /-- a voice reset has released it, at this count of voice resets, while another voice's entry names it (R869) -/
  doom : Option Nat := none
  deriving DecidableEq, Repr

/-- A transient copy (R608): tensor, tier, array, address, and the voice it is charged to. -/
structure Transient where
  tensor : Nat
  tier : Nat
  array : Nat
  addr : Nat
  voice : Nat
  run : Nat
  deriving DecidableEq, Repr

/-- Where a ledger entry comes from (R621); `reserve` is the engine reserve of R620. -/
inductive LedgerSource where
  | ring | cues | estimator (i : Nat) | reserve
  deriving DecidableEq, Repr

/-- One entry of the in-flight ledger (R620 to R622). -/
structure LedgerEntry where
  voice : Nat
  source : LedgerSource
  tag : Nat
  tensors : List Nat := []
  deriving DecidableEq, Repr

/-- What a tensor move does (Table 12.7, R607, R611, R629). -/
inductive MoveKind where
  /-- makes or moves the working copy in a tier, for tier 0 on an array -/
  | toWork (tier array : Nat)
  /-- writes a dirty copy back and releases it -/
  | toHome
  /-- copies the current contents to a host address -/
  | toHost (addr : Nat)
  deriving DecidableEq, Repr

/-- A tensor move, running or waiting; a MOVE_TENSOR carries its completion (R605, R606). -/
structure Move where
  tensor : Nat
  kind : MoveKind
  voice : Nat
  cpl : Option Completion := none
  deriving DecidableEq, Repr

/-! ### Faults and events (chapter 16) -/

/-- One event of the event log without its SEQ (Table 16.4); `tick` is the update it was written in (R788). -/
structure Event where
  code : Nat
  block : Nat := 0
  inst : Nat := 0xFFFF
  detail : Nat := 0
  detail2 : Nat := 0
  flags : Nat := 0
  stamp : Nat := 0
  tick : Nat := 0
  deriving DecidableEq, Repr

/-- The event ring (newest first), the SEQ of its newest event, the persistent log (newest first, with SEQ) and
the pins (R783 to R790). -/
structure Faults where
  ring : List Event := []
  latest : Nat := 0
  persist : List (Nat × Event) := []
  retired : List UnitName := []
  cause : Nat := 0
  faultN : Bool := false
  attnN : Bool := false
  signing : Bool := false
  nonce : List Byte := []
  signature : List Byte := []
  deriving DecidableEq, Repr

/-- Levels at the board's balls that commands change (chapters 17 and 18); the levels at reset are log entry 10. -/
structure Board where
  porstLow : Bool := true
  pfail : Bool := false
  refclk : Bool := true
  rclkIn : Bool := true
  vbus : Bool := true
  encA : Nat := 0
  encB : Nat := 0
  deriving DecidableEq, Repr

/-- Capacity held without an address range of its own: an estimator instance's reservation (R440, R877), the
lists, pyramids and rings of the sensor channels (R371, R431). `who` numbers the holder. -/
structure Reservation where
  who : Nat
  voice : Nat
  tier : Nat
  bytes : Nat
  deriving DecidableEq, Repr

/-! ### Camera channels (chapter 7) -/

/-- One frame of a camera channel, as its pyramid slot holds it (R316 to R342). -/
structure CamFrame where
  /-- the count of frames of the channel up to this one -/
  serial : Nat := 0
  start : Nat := 0
  trigger : Nat := 0
  freeRun : Bool := false
  overlap : Bool := false
  /-- ingest parameters read at Frame Start (R344); `lut` is the held lookup while rectifying -/
  black : Nat := 0
  lut : Option Nat := none
  /-- accepted long packets, those beyond HEIGHT included -/
  count : Nat := 0
  /-- converted rows in the line buffers -/
  rows : List (List Nat) := []
  errorLines : Nat := 0
  short : Bool := false
  long : Bool := false
  ended : Option Nat := none
  /-- rows of each level that ingest has written, and the pixels that are not valid: level, x, y -/
  written : List Nat := [0, 0, 0, 0]
  invalid : List (Nat × Nat × Nat) := []
  deriving DecidableEq, Repr

/-- An extraction run: the frame's slot and serial, and the parameters read at its start (R344). -/
structure CamRun where
  slot : Nat
  serial : Nat
  threshold : Nat := 0
  tmin : Nat := 0
  tmax : Nat := 0
  target : Nat := 0
  gain : Nat := 0
  arc : Nat := 0
  cell : Nat := 0
  keep : Nat := 0
  most : Nat := 0
  levels : Nat := 0
  flow : Bool := false
  window : Nat := 0
  iter : Nat := 0
  residual : Nat := 0
  eig : Nat := 0
  deriving DecidableEq, Repr

/-- The previous completed run: its list, its frame's slot and serial, and that frame's start (R363, R364). -/
structure CamPrev where
  list : Nat
  slot : Nat
  serial : Nat
  start : Nat
  deriving DecidableEq, Repr

/-- A named band of a virtual frame (R374, R375). -/
structure Band where
  tensor : Nat
  first : Nat
  rows : Nat
  deriving DecidableEq, Repr

/-- The pixel bytes of a CAM_DATA packet (R689). -/
structure CamChunk where
  frame : Nat
  offset : Nat
  bytes : List Byte
  deriving DecidableEq, Repr

/-- A record of a feature list (Table 7.6). X and Y are in 1/256 pixel of level 0. -/
structure Feature where
  id : Nat
  x : Nat
  y : Nat
  level : Nat
  score : Nat
  status : Nat
  part : Bool := false
  desc : List Byte := []
  residual : Nat := 0
  age : Nat := 0
  eig : Nat := 0
  deriving DecidableEq, Repr

/-- One camera channel beside its dictionary entries. -/
structure Camera where
  serial : Nat := 0
  /-- slot of the frame in progress, and of the latest Frame Start -/
  current : Option Nat := none
  latest : Option Nat := none
  nextPyr : Nat := 0
  nextList : Nat := 0
  frames : Tab CamFrame := []
  /-- outstanding triggers, earliest first: stamp, and whether it overlapped (R328, R331) -/
  triggers : List (Nat × Bool) := []
  /-- a requested run that has not started, the run in progress, the pending run -/
  asked : Option CamRun := none
  run : Option CamRun := none
  waiting : Option CamRun := none
  prev : Option CamPrev := none
  trackId : Nat := 1
  lut : Option Nat := none
  /-- bands of the frame named and not started, with the position of naming; bands of the frame in progress -/
  named : List Band := []
  namedAt : Nat := 0
  bands : List Band := []
  virtualFrame : Option Nat := none
  chunks : List CamChunk := []
  deriving DecidableEq, Repr

/-! ### The governor (chapter 15) -/

/-- The four PMBus commands that the rail link uses, all to the regulator at address 0x40 (R769); VOUT_COMMAND with its
voltage in mV. -/
inductive RailCommand where
  | voutCommand (millivolts : Nat)
  | readVout
  | statusWord
  | clearFaults
  deriving DecidableEq, Repr

/-- The governor beside its dictionary entries, of which LEVEL holds the applied level of P0–P5 (R743 to R770). -/
structure Governor where
  /-- the rail link's latest transaction (R769) -/
  rail : Option RailCommand := none
  p6 : Bool := false
  p7 : Bool := false
  /-- READY has been entered since the reset, so the demand loop acts (R750) -/
  started : Bool := false
  /-- the level whose CCLK runs, and the level whose voltage was last reached (R745, R746) -/
  clock : Nat := 2
  volt : Nat := 2
  /-- the update at which the commanded voltage has settled -/
  settle : Option Nat := none
  /-- an exit from HOLD is under way since this update (R767) -/
  leaving : Option Nat := none
  /-- CCLK is gated by a trip in BOOT or SELFTEST (R764) -/
  bootHot : Bool := false
  /-- the latest action of the demand loop, and of the thermal loop against THROTTLE: each acts once a millisecond (R750, R754) -/
  demandAt : Option Nat := none
  thermalAt : Option Nat := none
  /-- since which update every sample has been at or below THROTTLE − HYSTERESIS (R754) -/
  coolSince : Option Nat := none
  /-- since which update ICORE has been below 0.9 × ILIMIT; the last step of CL while it exceeds ILIMIT (R757) -/
  lowSince : Option Nat := none
  stepAt : Option Nat := none
  /-- something calls for the exit from P6 (R762) -/
  wake : Bool := false
  /-- the latest update with core-clocked work (R761) -/
  workAt : Nat := 0
  /-- failed rail transactions in a row (R770) -/
  vrFails : Nat := 0
  /-- CCLK cycles not yet counted, in fifths -/
  fifths : Nat := 0
  deriving DecidableEq, Repr

/-! ### Boot flash and one-time-programmable memory (chapters 16 and 17) -/

/-- A record of a calibration slot: index, subindex, TYPE and value, and the estimator instance whose entry it is (log
entry 44: Table 17.8 has no field for it). -/
structure CalRecord where
  idx : Nat
  sub : Nat
  ty : Nat
  value : List Byte
  inst : Nat := 0
  deriving DecidableEq, Repr

/-- What the bytes of a calibration slot say (Table 17.8): erased; HEADER_CRC correct; every check of VALID correct
(R827). -/
structure CalSlot where
  erased : Bool := true
  header : Bool := false
  valid : Bool := false
  seq : Nat := 0
  erases : Nat := 0
  records : List CalRecord := []
  deriving DecidableEq, Repr

/-- A store in progress: its target 0 A or 1 B, its SEQUENCE and ERASES, and the snapshot (R164, R831, R834). -/
structure CalStore where
  target : Nat
  seq : Nat
  erases : Nat
  records : List CalRecord
  deriving DecidableEq, Repr

/-- An image location with a trailer (Tables 17.6, 17.7): whether the image verifies but for its LEVELS, and whether its
two default models do (R816, R820). -/
structure FwImage where
  seq : Nat
  version : Nat
  levels : Nat
  sound : Bool
  models : Bool
  /-- the passages of the default descriptor and place models (Table 17.6); none in an image that no install brought -/
  desc : Option (List Byte) := none
  place : Option (List Byte) := none
  deriving DecidableEq, Repr

/-- An install in progress: what the location will hold, and the tensor with its bytes, against which it is read back (R822). -/
structure FwWrite where
  image : FwImage
  tensor : Nat
  bytes : List Byte
  deriving DecidableEq, Repr

/-- The boot flash without the persistent log, the board binding, and what the boot found (R163, R797, R814 to R836). -/
structure Flash where
  /-- the bytes of the calibration slots from their start; those past the list are erased -/
  slotA : List Byte := []
  slotB : List Byte := []
  /-- ERASES of each slot's last header with a good HEADER_CRC that the engine has read (R834) -/
  erasesA : Option Nat := none
  erasesB : Option Nat := none
  imageA : Option FwImage := some { seq := 1, version := 0, levels := 3, sound := true, models := true }
  imageB : Option FwImage := none
  devices : Nat := 1
  storing : Option CalStore := none
  /-- update and epoch position of the commit of the store in progress, and of the last successful one (R165, R167) -/
  storeAt : Nat × Nat := (0, 0)
  lastStore : Option Nat := none
  installing : Option FwWrite := none
  binding : Option Nat := none
  /-- the running boot follows a cold reset, so SELFTEST tests units (R813, R824) -/
  cold : Bool := true
  fallback : Bool := false
  calDefault : Bool := false
  calAbandoned : Bool := false
  deriving DecidableEq, Repr

/-! ### Inertial and encoder channels (chapter 8) -/

/-- What a capture records: the position, the line period in force and whether the epoch stood (R388, R391, R423,
R424). -/
structure Capture where
  pos : Nat
  period : Nat
  stopped : Bool
  deriving DecidableEq, Repr

/-- A chain input sample in Q1.23 with its capture. -/
structure InSample where
  value : Int
  sat : Bool
  held : Bool
  cap : Capture
  deriving DecidableEq, Repr

/-- A value between stages in Q1.23, and whether a saturation reached it. -/
structure StageVal where
  value : Int
  sat : Bool
  deriving DecidableEq, Repr

/-- A filter output that has emerged and is not yet written; `settled` is the test of R419. -/
structure InOut where
  value : Int
  stamp : Nat
  period : Nat
  seq : Nat
  satOut : Bool
  satInternal : Bool
  held : Bool
  stopped : Bool
  bank : Nat
  settled : Bool
  deriving DecidableEq, Repr

/-- A virtual sample that has not entered the chain (R398). -/
structure VirtualSample where
  pos : Nat
  value : Nat
  period : Nat
  deriving DecidableEq, Repr

/-- One inertial channel beside its dictionary entries; histories are newest first. -/
structure Inertial where
  comb : List Int := []
  samples : List InSample := []
  /-- chain input samples since the group reset, and since the channel's restart -/
  n : Nat := 0
  since : Nat := 0
  stages : Tab (List StageVal) := []
  emerging : List InOut := []
  /-- the latest released output since the restart: value and stamp -/
  last : Option (Int × Nat) := none
  virt : List VirtualSample := []
  written : Nat := 0
  deriving DecidableEq, Repr

/-- One group: the active bank, loaded coefficients of each bank (none: the defaults of R410), the update in which a
pending swap committed, a load in progress, the update of the last group reset, the chain input samples since it (R404). -/
structure Group where
  active : Nat := 0
  bank0 : Option (List Int) := none
  bank1 : Option (List Int) := none
  swap : Option Nat := none
  loading : Option (List Int) := none
  resetAt : Option Nat := none
  n : Nat := 0
  deriving DecidableEq, Repr

/-- One SPI master: the trigger of the running burst (SPIm_CS_N is low while there is one), the bytes that MOSI carries in it
and how many it receives (R389), the pending trigger, and the superseded ones whose held samples follow the running
burst's. -/
structure SpiMaster where
  mosi : List Byte := []
  rxLen : Nat := 0
  running : Option Capture := none
  waiting : Option Capture := none
  skipped : List Capture := []
  deriving DecidableEq, Repr

/-- One encoder channel; `late` are the index events in P6 whose records wait for its exit (R879). -/
structure Encoder where
  raw : Int := 0
  reverse : Bool := false
  written : Nat := 0
  late : List (Nat × Nat × Nat) := []
  deriving DecidableEq, Repr

/-! ### The solver (chapter 10) -/

/-- The values of a result that a tablature keeps as its last solution (R545, Table 10.9); FP64 patterns. -/
structure Solution where
  iterations : Nat
  lane : Nat
  flags : Nat
  published : Nat
  reg : Nat
  cycles : Nat
  cost : Nat
  step : Nat
  x : List Nat
  deriving DecidableEq, Repr

/-- A resident tablature: its image as validated, its resident values by factor × 8 + part (FP32 patterns, row-major;
an unlisted block is zero), its place in the store, its last solution and its last command's operands. -/
structure Tablature where
  voice : Nat
  lane : Nat
  image : List Byte
  /-- slots in the store and slots in the overflow tensor (R513, R514) -/
  slots : Nat
  overflow : Nat
  values : Tab (List Nat) := []
  last : Option Solution := none
  extrap : Nat := 0
  result : Nat := 0
  iterations : Nat := 0
  /-- the store banks in which it has a slot, which no rule places: a free value, bit b for bank b -/
  banks : Nat := 0
  /-- its voice has been reset while a request of another voice uses it; it leaves the store with that request (R308) -/
  leaving : Bool := false
  deriving DecidableEq, Repr

/-- What an estimator instance's request solves (R462, R455, R476). -/
inductive EstSolve where
  | start | window | closure
  deriving DecidableEq, Repr

/-- A request on a lane. `est` is the instance, what it solves and the frame; `slot` the cue slot of its due epoch. -/
structure SolveReq where
  tab : Nat
  voice : Nat
  est : Option (Nat × EstSolve × Nat) := none
  tag : Nat := 0
  opcode : Nat := 0
  cookie : Nat := 0
  irq : Bool := false
  due : Nat := 0
  slot : Option Nat := none
  result : Nat := 0
  iterations : Nat := 1
  blocks : Nat := 0
  replace : Bool := false
  cue : Bool := false
  admitted : Nat := 0
  /-- the count of voice resets when it was accepted (R869) -/
  born : Nat := 0
  started : Bool := false
  /-- slots of the blocks merged at the start, and evaluations between iterations (R534, R538) -/
  merged : Nat := 0
  evals : Nat := 0
  deriving DecidableEq, Repr

/-- A lane: the request it runs (or accepted and not yet started) and the pending one (R520). -/
structure Lane where
  running : Option SolveReq := none
  waiting : Option SolveReq := none
  deriving DecidableEq, Repr

/-! ### Tensor arrays (chapter 11) -/

/-- A placed home: array, byte address in its tier 0, bytes, and the quadrant of a quadrant home (R575). -/
structure HomePlace where
  array : Nat
  addr : Nat
  bytes : Nat
  quadrant : Option Nat := none
  deriving DecidableEq, Repr

/-- An operator that holds quadrants of an array: a mask of them, and whether another array's quadrant runs it. -/
structure ActiveOp where
  op : Nat
  array : Nat
  quads : Nat
  stolen : Bool
  deriving DecidableEq, Repr

/-- A run of a passage, accepted or started (R573 to R583). `tensors` are the resolved tensors by slot, 0 for internal
slots and for the slots of an estimator's model, whose input bytes are `given`. -/
structure PassRun where
  voice : Nat
  /-- the estimator instance whose model this is, whether the descriptor's (else the place model's), and the frame -/
  est : Option (Nat × Bool × Nat) := none
  tag : Nat := 0
  cookie : Nat := 0
  irq : Bool := false
  cue : Bool := false
  admitted : Nat := 0
  /-- the count of voice resets when it was accepted (R869) -/
  born : Nat := 0
  image : List Byte
  tensors : List Nat
  given : List Byte := []
  started : Bool := false
  homes : List HomePlace := []
  /-- slots whose tensor is whole in its home (R577) -/
  whole : List Nat := []
  active : List ActiveOp := []
  ended : List Nat := []
  arrays : Nat := 0
  qcycles : Nat := 0
  deriving DecidableEq, Repr

/-- A passage that has been validated: the voice that loaded it, the generation validated, its image (R569, R570), and
its running and pending runs. -/
structure Passage where
  voice : Nat
  gen : Nat
  image : List Byte
  running : Option PassRun := none
  waiting : Option PassRun := none
  deriving DecidableEq, Repr

/-! ### The Breeze link (chapter 14) -/

/-- A queued message (Tables 14.10, 14.11): `pos` is its commit position, `seq` its SEQ once sent. -/
structure BreezeMsg where
  dest : Nat
  kind : Nat
  info : Nat
  body : List Byte
  pos : Nat
  released : Bool := false
  sends : Nat := 0
  seq : Option Nat := none
  deriving DecidableEq, Repr

/-- What a receiver keeps of a source (R729, R730): HIGH, bit k set when HIGH − k was accepted, and the superframe of
its last accepted frame. -/
structure BreezeSource where
  high : Nat
  got : Nat
  heard : Nat
  deriving DecidableEq, Repr

/-- A reception from its preamble on (R705 to R708). -/
structure BreezeRx where
  /-- the sum of the 16 preamble levels, whose mean is the slicer threshold, and eight times the on–off difference -/
  sum : Nat
  swing : Nat
  /-- the levels after those 16, one for each bit, and how many had come at which epoch position -/
  levels : List Nat
  marks : List (Nat × Nat)
  /-- the place of the sync word's first bit among the levels, and the update in which its last bit ended -/
  start : Nat
  ended : Nat
  /-- the slot whose window took the sync word, and whether that was the window of an ACK (R706, R727) -/
  slot : Nat
  ack : Bool
  deriving DecidableEq, Repr

/-- A frame sent: the update in which its ramp-up started (R712, R727), the radio options in force (R692, R695, R697) and
the bytes on air from the preamble on. -/
structure BreezeSent where
  start : Nat
  channel : Nat
  power : Nat
  ramp : Nat
  bitTime : Nat
  bytes : List Byte
  deriving DecidableEq, Repr

/-- The Breeze link beside its dictionary entries. -/
structure Breeze where
  queue : List BreezeMsg := []
  nextSeq : Nat := 0
  sources : Tab BreezeSource := []
  /-- S_0 of the last accepted beacon, or of the coordinator's last one, as an update (R711, R717) -/
  beacon : Option Nat := none
  /-- the timer's rate against the coordinator's once measured: this many updates over this many superframes (R717) -/
  rate : Option (Nat × Nat) := none
  misses : Nat := 0
  /-- the start of the member's own slot that it has used (R712) -/
  used : Option Nat := none
  /-- the end of the last bit of a unicast that waits for its ACK (R727) -/
  awaiting : Option Nat := none
  /-- the reception of an accepted sync word, and the header accepted after it (R706 to R708) -/
  sync : Option BreezeRx := none
  header : Option (Nat × Nat) := none
  /-- an ACK to send: the SEQ, the LINK_QUALITY and the update in which the frame ended (R727) -/
  ackDue : Option (Nat × Nat × Nat) := none
  heard : Nat := 0
  written : Nat := 0
  /-- the update until which the engine transmits; its receiver is deaf before it (Table 14.2) -/
  deaf : Nat := 0
  /-- the frames sent, the latest first -/
  sent : List BreezeSent := []
  deriving DecidableEq, Repr

/-! ### The estimator service (chapter 9) -/

/-- Table 9.3. -/
inductive EstState where
  | stopped | idle | init | tracking | lost | halted
  deriving DecidableEq, Repr

/-- A released output of an inertial channel, or an injected record (R450, R489). -/
structure EstOut where
  ch : Nat
  value : Int
  stamp : Nat
  period : Nat
  seq : Nat
  held : Bool
  stopped : Bool
  emerged : Nat
  deriving DecidableEq, Repr

/-- An observation of a keyframe (Table 9.9). -/
structure EstObs where
  point : Nat
  cam : Nat
  level : Nat
  x : Nat
  y : Nat
  deriving DecidableEq, Repr

/-- A keyframe: position as three FP64 and orientation as four FP32 patterns; `tracks` are its records' cameras and
TRACK_IDs. -/
structure EstKey where
  id : Nat
  frame : Nat
  start : Nat
  stamp : Nat
  pos : List Nat
  quat : List Nat
  emb : List Byte
  obs : List EstObs
  tracks : List (Nat × Nat)
  deriving DecidableEq, Repr

/-- A map point. -/
structure EstPoint where
  id : Nat
  pos : List Nat
  desc : List Byte
  deriving DecidableEq, Repr

/-- A pose-graph edge: relative position and quaternion and weight as FP32 patterns. -/
structure EstEdge where
  first : Nat
  second : Nat
  loop : Bool
  rel : List Nat
  weight : Nat
  deriving DecidableEq, Repr

/-- What a frame in processing waits for: its descriptors, its solve, or its embedding (R458). -/
inductive EstStage where
  | describe | solve | place
  deriving DecidableEq, Repr

/-- A list that a camera of an instance has written: the camera, the position of the write, the list, and for a model the
patch of each record and level 2 of the pyramid as they stood then (R446, Table 9.6). -/
structure EstView where
  cam : Nat
  at_ : Nat
  bytes : List Byte
  patches : List (List Nat) := []
  two : List Nat := []
  deriving DecidableEq, Repr

/-- A frame in processing: its records by camera with their patches, the landmark of each, the primary camera and its level
2, the inertial outputs that it sees, the descriptors and the embedding that a model has given so far, the inputs of its
solve as they were sent, and its outputs once it is solved. -/
structure EstFrame where
  frame : Nat
  stamp : Nat
  start : Nat
  missing : Bool := false
  plain : Bool := false
  primary : Nat := 0
  recs : List (Nat × Feature) := []
  patches : List (List Nat) := []
  two : List Nat := []
  outs : List EstOut := []
  inputs : List Nat := []
  marks : List (Option Nat) := []
  stage : EstStage := .describe
  descs : List (List Byte) := []
  emb : List Byte := []
  sol : List Nat := []
  held : Bool := false
  stopped : Bool := false
  deriving DecidableEq, Repr

/-- A processed frame that waits for P(f): whether it is SOLVED, its values (position, quaternion, velocity as FP32
patterns), its covariance, the flags it brings, and the state that its publication enters. -/
structure EstResult where
  frame : Nat
  stamp : Nat
  solved : Bool
  token : Nat := 0
  vals : List Nat := []
  cov : List Nat := []
  inliers : Nat := 0
  quality : Nat := 0
  flags : Nat := 0
  enter : Option EstState := none
  deriving DecidableEq, Repr

/-- A published optimised pose. `frame` is the frame of the SOLVED pose that its values come from. -/
structure EstPub where
  state : Nat
  quality : Nat
  stamp : Nat
  published : Nat
  frame : Nat
  token : Nat
  vals : List Nat
  cov : List Nat
  deriving DecidableEq, Repr

/-- A closure outstanding: the loop edge's keyframes, its due epoch, its variable keyframes, the window's token and the
parameters of its keyframe's frame (R460, R476), whether its request is sent, its solved token. -/
structure EstClosure where
  first : Nat
  second : Nat
  due : Nat
  vars : List Nat
  token : Nat
  iterations : Nat
  lane : Nat
  sent : Bool := false
  solved : Option Nat := none
  deriving DecidableEq, Repr

/-- One estimator instance. The numeric state of its window is a token that only opaque functions read (log entry
11). -/
structure Estimator where
  st : EstState := .stopped
  token : Nat := 0
  calib : List Nat := []
  window : List EstKey := []
  landmarks : List Nat := []
  keys : List EstKey := []
  points : List EstPoint := []
  edges : List EstEdge := []
  nextKey : Nat := 1
  nextPoint : Nat := 1
  /-- in units of 1/(65,536 × 256 × 10^9) of a point (R482) -/
  credit : Nat := 0
  first : Option EstFrame := none
  cur : Option EstFrame := none
  next : Nat := 0
  lastStamp : Nat := 0
  /-- a primary camera that retired, and the frame until which it stays primary (R452) -/
  oldPrimary : Option (Nat × Nat) := none
  /-- the state that processing has reached; `st` follows at the publications -/
  mode : EstState := .stopped
  results : List EstResult := []
  /-- the frame of the RUN entry -/
  begun : Nat := 0
  /-- writes to 0x3010–0x3030 that later frames see: commit position, key, value before (R460) -/
  olds : List (Nat × Nat × Nat) := []
  /-- the last SOLVED pose, and whether one was published since INIT or LOST was entered (R464) -/
  source : Option EstPub := none
  since : Bool := false
  pubs : List EstPub := []
  misses : Nat := 0
  weak : Nat := 0
  /-- optimised and fast poses published since the instance was enabled, which broadcast channels follow (R184) -/
  poses : Nat := 0
  fasts : Nat := 0
  outs : List EstOut := []
  lists : List (List Byte) := []
  /-- the lists of its cameras that later frames may take (R446) -/
  views : List EstView := []
  /-- the landmarks of the last solved frame's records, by camera and TRACK_ID (R465) -/
  assoc : List ((Nat × Nat) × Nat) := []
  parts : List (Nat × List Byte) := []
  records : List EstOut := []
  closure : Option EstClosure := none
  /-- a closure met and not yet applied: its due epoch and token, and the closure (R477) -/
  apply : Option (Nat × EstClosure) := none
  /-- the due epoch of the latest closure (R479) -/
  loopDue : Option Nat := none
  /-- the update in which a closure was met, until a later pose carries LOOP_APPLIED (R477) -/
  loopFlag : Option Nat := none
  /-- the snapshot of an export in progress -/
  snapshot : Option (List Byte) := none
  clampTrig : Bool := false
  clampFe : Bool := false
  dirtyTrig : Bool := false
  dirtyFe : Bool := false
  mapFull : Bool := false
  exhausted : Bool := false
  /-- the position of the retirement that left no array (R588) -/
  noArrays : Option Nat := none
  deriving DecidableEq, Repr

/-! ### Strings and the mesh (chapter 13) -/

/-- A data flit in the retry buffer: SEQ, the update of its last sending, whether a packet's tail ends in it, POS and payload. -/
structure SentFlit where
  seq : Nat
  at_ : Nat
  tail : Bool
  pos : Nat := 0
  payload : List Byte := []
  deriving DecidableEq, Repr

/-- One string beside its dictionary entries (R634 to R664). -/
structure StringPort where
  /-- lanes that have locked, and the updates of entering the state and of the first lock -/
  locked : List Nat := []
  since : Nat := 0
  firstLock : Option Nat := none
  active : List Nat := []
  /-- by lane: the search of R643 (bit offset, valid headers in a row) and the window of R644, newest first -/
  search : Tab (Nat × Nat) := []
  windows : Tab (List Bool) := []
  /-- by lane: the last 58 bits sent and received (R641); flits sent and received since the string came UP (R638) -/
  txHist : Tab (BitVec 58) := []
  rxHist : Tab (BitVec 58) := []
  txCount : Nat := 0
  rxCount : Nat := 0
  /-- blocks sent, the latest first: lane and block -/
  blocks : List (Nat × LaneBlock) := []
  /-- accepted flits of the packet that is arriving (POS and payload), and packets that have arrived and wait (R665) -/
  parts : List (Nat × List Byte) := []
  arrived : List Packet := []
  /-- the far end's last announcement, and the serial of the far end of the last UP -/
  far : Option Ident := none
  serial : Option Nat := none
  txSeq : Nat := 0
  retry : List SentFlit := []
  /-- the SEQ from which the last replay went, and how many in a row -/
  replayed : Option (Nat × Nat) := none
  rxSeq : Nat := 0
  discarding : Bool := false
  dups : Nat := 0
  toAck : Nat := 0
  ackedAt : Nat := 0
  /-- per class: flits sent and the far end's count of flits freed; flits freed here and the count last reported -/
  used : List Nat := [0, 0, 0, 0]
  freed : List Nat := [0, 0, 0, 0]
  freedHere : List Nat := [0, 0, 0, 0]
  reported : List Nat := [0, 0, 0, 0]
  reportedAt : Nat := 0
  queue : List Packet := []
  /-- the rotating pointer of the output (R666) -/
  pointer : Nat := 0
  /-- the latest control flit sent: CODE and its fields -/
  control : Option (Nat × List Nat) := none
  deriving DecidableEq, Repr

/-- A DMA or storage read that waits for its answer (R687, R688): voice, request number, address, bytes, the update. -/
structure DmaReq where
  voice : Nat
  id : Nat
  addr : Nat
  len : Nat
  at_ : Nat
  deriving DecidableEq, Repr

/-- A LULL command that waits (R681): its voice, completion, identifier and the leader that its arrival went to. -/
structure LullWait where
  voice : Nat
  cpl : Completion
  ident : Nat
  leader : Nat
  deriving DecidableEq, Repr

/-- What a tunnel voice keeps: origin, the last DICT_REQ and its answer (R684, R686). -/
structure Tunnel where
  origin : Option (Nat × Nat) := none
  lastReq : Option (Nat × List Byte) := none
  lastRsp : List Byte := []
  /-- an OPEN has come in the drain of a reset, whose end enables the ring (R685) -/
  opened : Bool := false
  deriving DecidableEq, Repr

/-- The mesh beside its dictionary entries. -/
structure Mesh where
  strings : Tab StringPort := []
  learned : Option Nat := none
  /-- the update of the first announcement, and the implied addresses by port (R651) -/
  announcedAt : Option Nat := none
  implied : Tab Nat := []
  /-- RT counts from `rtBase` at update `rtAt` (R654, R655) -/
  rtBase : Nat := 0
  rtAt : Nat := 0
  conflict : Bool := false
  detours : Tab Nat := []
  /-- records that wait for APPLY_RT: target, line period, APPLY_RT, and of a late one the update of its arrival (R678, R680) -/
  records : List (Nat × Nat × Nat × Option Nat) := []
  /-- open lulls at a leader: identifier and the addresses that have arrived -/
  lulls : List (Nat × List Nat) := []
  waits : List LullWait := []
  tunnels : Tab Tunnel := []
  dma : List DmaReq := []
  /-- answered reads: voice, address, bytes -/
  answered : List (Nat × Nat × Nat) := []
  nextDma : Nat := 0
  /-- packets delivered to an edge device or started on an output, the latest first: port and packet -/
  sent : List (Nat × Packet) := []
  deriving DecidableEq, Repr

/-- IDCODE at A0 (R860): version 0x1, part 0x0480, manufacturer 0x62D, and bit 0 set. -/
def tapIdcode : Nat := 0x1 * 2 ^ 28 + 0x0480 * 2 ^ 12 + 0x62D * 2 + 1

/-- The test access port: the instruction that acts, and what the data register that it selects has captured, the boundary
register's pins aside (R859, R860). It comes up with IDCODE as IEEE 1149.1 has it (PRESUMED, log entry 41). -/
structure Tap where
  acting : TapInstruction := .idcode
  captured : Option Nat := some tapIdcode
  deriving DecidableEq, Repr

/-- Everything the manual gives one engine. -/
structure Chip where
  /-- updates (ETICK) passed (log entry 3) -/
  now : Nat := 0
  /-- how many free values each use has taken (log entry 7) -/
  frees : Tab Nat := []
  straps : Straps := {}
  grade : Grade := .fi
  engine : EngineState := .reset
  /-- a pending transition to RUN or READY (R174) -/
  request : Option EngineState := none
  dict : Tab Nat := []
  epoch : Epoch := {}
  cues : Tab Cue := []
  armQueue : List ArmWait := []
  lastArm : Option Nat := none
  trig : Tab TrigPin := []
  epochHi : Nat := 0
  ctl : Control := {}
  voices : Tab Voice := []
  keeps : Tab VoiceKeep := []
  arbiter : Nat := 0
  hostMem : Memory := []
  msixSent : List MsixMsg := []
  /-- the bytes that the last read of BAR0 or BAR2 returned -/
  readData : List Byte := []
  reply : Option Reply := none
  pcie : Pcie := {}
  usb : Usb := {}
  can : Tab CanPort := []
  /-- the unsent message of a broadcast channel (R185, R186) -/
  unsent : Tab (List Byte) := []
  tensors : Tab Tensor := []
  /-- voice resets so far, which order work and the tensors that a reset releases (R869) -/
  resets : Nat := 0
  transients : List Transient := []
  ledger : List LedgerEntry := []
  moves : List Move := []
  tier0 : Memory := []
  tier1 : Memory := []
  tier2 : Memory := []
  faults : Faults := {}
  board : Board := {}
  reserved : List Reservation := []
  /-- LP5X installed, in MiB, as the devices' mode registers report it (R594; log entry 5) -/
  lp5x : Nat := 8192
  cams : Tab Camera := []
  gov : Governor := {}
  inertial : Tab Inertial := []
  groups : Tab Group := []
  spi : Tab SpiMaster := []
  encoders : Tab Encoder := []
  tablatures : Tab Tablature := []
  lanes : Tab Lane := []
  passages : Tab Passage := []
  /-- the rotating pointer of each array over the voices (R555) -/
  arrayPtr : Tab Nat := []
  breeze : Breeze := {}
  ests : Tab Estimator := []
  /-- the running firmware image holds the default models (R471) -/
  models : Bool := true
  mesh : Mesh := {}
  flash : Flash := {}
  /-- the test access port (R859, R860) -/
  tap : Tap := {}
  deriving DecidableEq, Repr

/-- An operation of the dictionary that has a place in the order of its update (R156 to R160, R871, R873). -/
inductive RoundOp where
  /-- a write of a register that mirrors an entry -/
  | mirror (offset value be : Nat)
  /-- a WRITE; `ok` says that its row's numbers exist and that its transport carries the voice -/
  | write (ok : Bool) (q : DictReq)
  /-- a READ (1) or DESCRIBE (4) -/
  | query (voice op idx sub : Nat)
  | deferred (voice : Nat)
  /-- an operation of the voice's register window, and an admitted DICT_OP, by its code of Table 6.5 -/
  | window (voice op : Nat)
  | command (voice op : Nat)
  | cueArm (voice : Nat)
  /-- a client frame of a CAN port whose command code is one of `codes` -/
  | canFrame (port : Nat) (codes : List Nat) (frame : CanFrame)
  | usbQuery (setup : UsbSetup) (op : Nat)
  | usbStatus
  | tunnel (pkt : Packet)
  deriving DecidableEq, Repr

/-- The dictionary operations of one update so far, in the order in which they take effect, and the chip before the first
of them (log entry 67). -/
structure Round where
  base : Chip := {}
  ops : List RoundOp := []
  deriving DecidableEq, Repr

/-- The block: the engine and the queue of commands that wait for it, first in first out. -/
structure State where
  pending : List Instr := []
  chip : Chip := {}
  round : Round := {}
  deriving DecidableEq, Repr

/-- Power-on with PORST_N low: every register at its Reset or Default value, nothing in any memory or queue
(R12; the values that no rule gives are log entries 2, 5 and 10). -/
def State.reset : State := {}

/-- Why the block stops. -/
inductive Fault where
  /-- MODE[1:0] is strapped to 0b11: manufacturing test, which R20 says the manual does not describe. Raised by
  POWER_ON_RESET and REFCLK_25_RETURN. Safe: nothing is claimed about a part in that mode. -/
  | manufacturingTest
  deriving DecidableEq, Repr

/-- Why the block refuses a command. -/
inductive Refusal where
  /-- A command without a meaning in this model, by its mnemonic. Every command has one, so nothing raises it. Safe. -/
  | notModelled (mnemonic : String)
  deriving DecidableEq, Repr

end Sys2Proof.Machine
end

