-- ==== Sys2Proof/Machine/Entries.lean ====
section
/-! DEFINITION. The entries of the object dictionary as the chapters' tables print them: one row per table row,
grouped by the index it stands at. Every type, access byte, default, range and unit of a DESCRIBE comes from here. -/

namespace Sys2Proof.Machine

/-- Table 4.2. -/
inductive Ty where
  | bool | i8 | i16 | i32 | u8 | u16 | u32 | f32 | str | blob | u64 | epoch | u128
  deriving DecidableEq, Repr

/-- The legal values of an entry: every value of its type, a union of integer intervals, an F32 interval by its bit
patterns, or for STR and BLOB an interval of lengths. -/
inductive Range where
  | whole
  | ints (ivs : List (Int × Int))
  | float (lo hi : Nat)
  | len (lo hi : Nat)
  deriving DecidableEq, Repr

/-- When an entry may be written beside Table 4.6: always, in CONFIG only, or while the estimator instance is
stopped. -/
inductive When where
  | any | config | stopped
  deriving DecidableEq, Repr

/-- One row of a dictionary table; it stands for the subindices `sub` to `hi`. -/
structure Entry where
  sub : Nat
  hi : Nat
  name : String
  ty : Ty
  access : Nat
  dflt : Nat
  range : Range
  unit : String
  cond : When
  deriving DecidableEq, Repr

/-- The rows that stand at `count` indices from `base` on, `stride` apart. -/
structure Block where
  base : Nat
  count : Nat
  stride : Nat
  rows : List Entry
  deriving DecidableEq, Repr

/-- Tables 4.9 and 16.6. -/
def entries1000 : Block := ⟨0x1000, 1, 0x1, [
    ⟨1, 1, "DEVICE_TYPE", .u32, 0x11, 1263731840, .whole, "", .any⟩]⟩

/-- Tables 4.9 and 16.6. -/
def entries1001 : Block := ⟨0x1001, 1, 0x1, [
    ⟨1, 1, "STATE", .u8, 0x01, 0, .ints [(0, 15)], "", .any⟩,
    ⟨2, 2, "REQUEST", .u8, 0x0A, 0, .ints [(3, 6)], "", .any⟩]⟩

/-- Tables 4.9 and 16.6. -/
def entries1002 : Block := ⟨0x1002, 1, 0x1, [
    ⟨1, 1, "ERROR", .u32, 0x01, 0, .ints [(0, 2147516415)], "", .any⟩]⟩

/-- Tables 4.9 and 16.6. -/
def entries1008 : Block := ⟨0x1008, 1, 0x1, [
    ⟨1, 1, "DEVICE_NAME", .str, 0x11, 0, .len 14 14, "", .any⟩]⟩

/-- Tables 4.9 and 16.6. -/
def entries1009 : Block := ⟨0x1009, 1, 0x1, [
    ⟨1, 1, "REVISION", .u16, 0x11, 16640, .whole, "", .any⟩]⟩

/-- Tables 4.9 and 16.6. -/
def entries100A : Block := ⟨0x100A, 1, 0x1, [
    ⟨1, 1, "FIRMWARE_VERSION", .u32, 0x01, 0, .whole, "", .any⟩]⟩

/-- Tables 4.9 and 16.6. -/
def entries1010 : Block := ⟨0x1010, 1, 0x1, [
    ⟨1, 1, "SERIAL", .u128, 0x11, 0, .whole, "", .any⟩,
    ⟨2, 2, "PUBLIC_KEY", .blob, 0x11, 0, .len 64 64, "", .any⟩,
    ⟨3, 3, "CERTIFICATE", .blob, 0x11, 0, .len 0 1024, "", .any⟩]⟩

/-- Tables 4.9 and 16.6. -/
def entries1011 : Block := ⟨0x1011, 1, 0x1, [
    ⟨1, 1, "NONCE", .blob, 0x02, 0, .len 32 32, "", .any⟩]⟩

/-- Tables 4.9 and 16.6. -/
def entries1012 : Block := ⟨0x1012, 1, 0x1, [
    ⟨1, 1, "STATUS", .u8, 0x01, 0, .ints [(0, 2)], "", .any⟩,
    ⟨2, 2, "SIGNATURE", .blob, 0x01, 0, .len 64 64, "", .any⟩,
    ⟨3, 3, "NONCE_ECHO", .blob, 0x01, 0, .len 32 32, "", .any⟩]⟩

/-- Tables 4.9 and 16.6. -/
def entries1018 : Block := ⟨0x1018, 1, 0x1, [
    ⟨1, 1, "HIGHEST", .u8, 0x11, 2, .whole, "level", .any⟩,
    ⟨2, 2, "ACTIVE", .u8, 0x01, 2, .ints [(1, 2)], "level", .any⟩,
    ⟨3, 3, "REQUESTED", .u8, 0x0F, 2, .ints [(1, 2)], "level", .any⟩]⟩

/-- Tables 4.9 and 16.6. -/
def entries1020 : Block := ⟨0x1020, 1, 0x1, [
    ⟨1, 1, "BINDING", .u128, 0x0B, 0, .whole, "", .any⟩,
    ⟨2, 2, "LOCK", .u32, 0x0A, 0, .ints [(1280262987, 1280262987)], "", .any⟩,
    ⟨3, 3, "LOCKED", .bool, 0x01, 0, .ints [(0, 1)], "", .any⟩]⟩

/-- Tables 4.9 and 16.6. -/
def entries1100 : Block := ⟨0x1100, 1, 0x1, [
    ⟨1, 1, "STORE", .u32, 0x0A, 0, .ints [(1398034258, 1398034258)], "", .any⟩,
    ⟨2, 2, "STORE_STATUS", .u8, 0x01, 0, .ints [(0, 3)], "", .any⟩,
    ⟨3, 3, "STORE_POSITION", .epoch, 0x01, 0, .whole, "epoch", .any⟩]⟩

/-- Tables 4.9 and 16.6. -/
def entries1101 : Block := ⟨0x1101, 1, 0x1, [
    ⟨1, 1, "RESTORE", .u32, 0x0A, 0, .ints [(1145390657, 1145390657)], "", .any⟩]⟩

/-- Table 5.12. -/
def entries1800 : Block := ⟨0x1800, 2, 0x1, [
    ⟨1, 1, "ENABLE", .bool, 0x0F, 1, .ints [(0, 1)], "", .any⟩,
    ⟨2, 2, "NODE", .u8, 0x0F, 0, .ints [(0, 63)], "", .any⟩,
    ⟨3, 3, "NODE_ACTIVE", .u8, 0x01, 0, .ints [(0, 63)], "", .any⟩,
    ⟨4, 4, "ID29", .bool, 0x0F, 0, .ints [(0, 1)], "", .any⟩,
    ⟨5, 5, "FD", .bool, 0x0F, 1, .ints [(0, 1)], "", .any⟩,
    ⟨6, 6, "BRS", .bool, 0x0F, 1, .ints [(0, 1)], "", .any⟩,
    ⟨7, 7, "NOMINAL_TIMING", .u32, 0x0F, 20844303, .whole, "", .any⟩,
    ⟨8, 8, "DATA_TIMING", .u32, 0x0F, 17695491, .whole, "", .any⟩,
    ⟨9, 9, "TDC", .u32, 0x0F, 2147483680, .whole, "", .any⟩,
    ⟨10, 10, "AUTO_RECOVER", .bool, 0x0F, 1, .ints [(0, 1)], "", .any⟩,
    ⟨11, 11, "CLASH_PARK", .bool, 0x0F, 0, .ints [(0, 1)], "", .any⟩,
    ⟨12, 12, "RECOVER", .bool, 0x0A, 0, .ints [(1, 1)], "", .any⟩,
    ⟨13, 13, "BUS_STATE", .u8, 0x01, 0, .ints [(0, 3)], "", .any⟩,
    ⟨14, 14, "TEC", .u16, 0x01, 0, .ints [(0, 256)], "", .any⟩,
    ⟨15, 15, "REC", .u8, 0x01, 0, .ints [(0, 255)], "", .any⟩,
    ⟨16, 16, "HEARTBEAT_PERIOD", .u16, 0x0F, 1000, .ints [(0, 60000)], "ms", .any⟩,
    ⟨17, 17, "MARKER_ENABLE", .bool, 0x0F, 0, .ints [(0, 1)], "", .any⟩,
    ⟨18, 18, "MARKER_DIVIDER", .u8, 0x0F, 1, .ints [(1, 255)], "frames", .any⟩,
    ⟨19, 19, "TRANSFER_TIMEOUT", .u16, 0x0F, 1000, .ints [(10, 60000)], "ms", .any⟩,
    ⟨20, 20, "FRAMES_TX", .u32, 0x01, 0, .whole, "frames", .any⟩,
    ⟨21, 21, "FRAMES_RX", .u32, 0x01, 0, .whole, "frames", .any⟩,
    ⟨22, 22, "ERROR_FRAMES", .u32, 0x01, 0, .whole, "frames", .any⟩,
    ⟨23, 23, "ACK_ERRORS", .u32, 0x01, 0, .whole, "errors", .any⟩,
    ⟨24, 24, "BUS_OFF_COUNT", .u32, 0x01, 0, .whole, "entries", .any⟩,
    ⟨25, 25, "RX_OVERFLOW", .u32, 0x01, 0, .whole, "frames", .any⟩,
    ⟨26, 26, "CLASH_EVENTS", .u32, 0x01, 0, .whole, "events", .any⟩,
    ⟨27, 27, "DICT_REPLAYS", .u32, 0x01, 0, .whole, "frames", .any⟩,
    ⟨28, 28, "SERVICE_DROPPED", .u32, 0x01, 0, .whole, "frames", .any⟩,
    ⟨29, 29, "TDC_LIMITED", .u32, 0x01, 0, .whole, "frames", .any⟩,
    ⟨30, 30, "MARKER_RX_POSITION", .epoch, 0x01, 0, .whole, "epoch", .any⟩,
    ⟨31, 31, "MARKER_RX_LOCAL", .epoch, 0x01, 0, .whole, "epoch", .any⟩,
    ⟨32, 32, "MARKER_RX_NODE", .u8, 0x01, 0, .ints [(0, 63)], "", .any⟩]⟩

/-- Table 6.21. -/
def entries1810 : Block := ⟨0x1810, 1, 0x1, [
    ⟨1, 1, "ENABLE", .bool, 0x0F, 1, .ints [(0, 1)], "", .any⟩,
    ⟨2, 2, "SPEED", .u8, 0x01, 0, .ints [(0, 2)], "", .any⟩,
    ⟨3, 3, "ADDRESS", .u8, 0x01, 0, .ints [(0, 127)], "", .any⟩,
    ⟨4, 4, "RAW_MASK", .u32, 0x0B, 0, .ints [(0, 67108863)], "", .any⟩,
    ⟨5, 5, "BUS_RESETS", .u32, 0x01, 0, .whole, "resets", .any⟩,
    ⟨6, 6, "DICT_REPLAYS", .u32, 0x01, 0, .whole, "requests", .any⟩,
    ⟨7, 7, "RAW_DROPPED", .u32, 0x01, 0, .whole, "records", .any⟩]⟩

/-- Table 14.14. -/
def entries1820 : Block := ⟨0x1820, 1, 0x1, [
    ⟨1, 1, "ENABLE", .bool, 0x0F, 0, .ints [(0, 1)], "", .any⟩,
    ⟨2, 2, "NODE", .u8, 0x0F, 1, .ints [(0, 31)], "", .any⟩,
    ⟨3, 3, "FLEET", .u8, 0x0F, 0, .ints [(0, 255)], "", .any⟩,
    ⟨4, 4, "CHANNEL", .u8, 0x0F, 20, .ints [(0, 39)], "", .any⟩,
    ⟨5, 5, "RATE", .u8, 0x0F, 0, .ints [(0, 1)], "", .any⟩,
    ⟨6, 6, "POWER", .i8, 0x0F, 0, .ints [(-20, 4)], "dBm", .any⟩,
    ⟨7, 7, "RAMP", .u8, 0x0F, 4, .ints [(1, 16)], "0.5 µs", .any⟩,
    ⟨8, 8, "SYNC_WORD", .u32, 0x0F, 1028436711, .whole, "", .any⟩,
    ⟨9, 9, "SYNC_ERRORS", .u8, 0x0F, 1, .ints [(0, 4)], "bits", .any⟩,
    ⟨10, 10, "RETRIES", .u8, 0x0F, 3, .ints [(0, 7)], "sends", .any⟩,
    ⟨11, 11, "DRIFT_MARGIN", .u8, 0x0F, 10, .ints [(1, 100)], "ppm", .any⟩,
    ⟨12, 12, "WINDOW_PERIOD", .epoch, 0x0F, 4294967296, .whole, "span", .any⟩,
    ⟨13, 13, "RING_DEPTH", .u16, 0x0F, 256, .ints [(64, 4096)], "records", .config⟩,
    ⟨14, 14, "BILL_VOICE", .u8, 0x0F, 0, .ints [(0, 15)], "voice", .config⟩,
    ⟨15, 15, "TX_QUEUED", .u8, 0x01, 0, .ints [(0, 16)], "messages", .any⟩,
    ⟨16, 16, "TX", .blob, 0x02, 0, .len 1 0, "", .any⟩,
    ⟨17, 17, "TX_LAST_SEQ", .u8, 0x01, 0, .ints [(0, 255)], "", .any⟩,
    ⟨18, 18, "TX_LAST_RESULT", .u8, 0x01, 0, .ints [(0, 4)], "", .any⟩,
    ⟨19, 19, "SUPERFRAME", .u32, 0x01, 0, .whole, "superframes", .any⟩,
    ⟨20, 20, "STATE", .u8, 0x01, 0, .ints [(0, 5)], "", .any⟩,
    ⟨21, 21, "PREDICTED_OFFSET", .u16, 0x01, 0, .whole, "0.1 µs", .any⟩,
    ⟨22, 22, "BEACON_EPOCH_RX", .epoch, 0x01, 0, .whole, "epoch", .any⟩,
    ⟨23, 23, "BEACON_EPOCH_LOCAL", .epoch, 0x01, 0, .whole, "epoch", .any⟩,
    ⟨24, 24, "BEACON_LINE_PERIOD", .u32, 0x01, 0, .whole, "1/256 ns", .any⟩,
    ⟨25, 25, "HEARD", .u32, 0x01, 0, .whole, "mask", .any⟩,
    ⟨26, 26, "LAST_LINK_QUALITY", .u8, 0x01, 0, .whole, "", .any⟩,
    ⟨27, 27, "LAST_CONTRAST", .u8, 0x01, 0, .whole, "0.5 dB", .any⟩,
    ⟨28, 28, "LAST_RSSI", .i8, 0x01, 0, .whole, "dBm", .any⟩,
    ⟨29, 45, "FRAMES_TX, FRAMES_RX, OUT_OF_SLOT, FALSE_SYNCS, PAYLOAD_CRC_ERRORS, SLOT_OVERRUNS, FOREIGN_BEACONS, BEACONS_MISSED, MUTES, ACK_TIMEOUTS, RETRIES_SENT, TX_DROPPED, DUPLICATES, STALE, EST_DROPPED, ACKS_RX, ACKS_TX", .u32, 0x01, 0, .whole, "events", .any⟩]⟩

/-- Table 4.13. -/
def entries1830 : Block := ⟨0x1830, 1, 0x1, [
    ⟨1, 1, "SEQ", .u32, 0x01, 0, .whole, "records", .any⟩,
    ⟨2, 9, "RECORD_0–RECORD_7", .blob, 0x01, 0, .len 32 32, "", .any⟩]⟩

/-- Table 3.7. -/
def entries1F00 : Block := ⟨0x1F00, 1, 0x1, [
    ⟨1, 1, "MAGIC", .u32, 0x11, 1179796820, .whole, "", .any⟩,
    ⟨2, 2, "TABLE_VERSION", .u16, 0x11, 256, .whole, "", .any⟩,
    ⟨3, 3, "ENTRY_COUNT", .u16, 0x11, 23, .ints [(1, 63)], "entries", .any⟩,
    ⟨4, 4, "CRC", .u32, 0x11, 0, .whole, "", .any⟩]⟩

/-- Table 3.7, entry k. -/
def entries1F01 : Block := ⟨0x1F01, 23, 0x1, [
    ⟨1, 1, "TYPE", .u16, 0x11, 0, .whole, "", .any⟩,
    ⟨2, 2, "VERSION", .u16, 0x11, 0, .whole, "", .any⟩,
    ⟨3, 3, "COUNT", .u16, 0x11, 0, .whole, "instances", .any⟩,
    ⟨4, 4, "FLAGS", .u16, 0x11, 0, .whole, "", .any⟩,
    ⟨5, 5, "BASE", .u64, 0x11, 0, .whole, "bytes", .any⟩,
    ⟨6, 6, "STRIDE", .u32, 0x11, 0, .whole, "bytes", .any⟩,
    ⟨7, 7, "DICT_BASE", .u16, 0x11, 0, .whole, "index", .any⟩,
    ⟨8, 8, "DICT_STRIDE", .u16, 0x11, 0, .whole, "indices", .any⟩,
    ⟨9, 9, "CAPS", .u64, 0x11, 0, .whole, "", .any⟩]⟩

/-- Table 7.9. -/
def entries2000 : Block := ⟨0x2000, 6, 0x1, [
    ⟨1, 1, "ENABLE", .bool, 0x0F, 0, .ints [(0, 1)], "", .any⟩,
    ⟨2, 2, "PAIRED", .bool, 0x0F, 0, .ints [(0, 1)], "", .config⟩,
    ⟨3, 3, "LANE_RATE", .u16, 0x0F, 1500, .ints [(80, 2500)], "Mb/s", .config⟩,
    ⟨4, 4, "VC", .u8, 0x0F, 0, .ints [(0, 3)], "", .config⟩,
    ⟨5, 5, "FORMAT", .u8, 0x0F, 43, .ints [(42, 45)], "", .config⟩,
    ⟨6, 6, "WIDTH", .u16, 0x0F, 1280, .ints [(64, 4096)], "pixels", .config⟩,
    ⟨7, 7, "HEIGHT", .u16, 0x0F, 800, .ints [(48, 8192)], "rows", .config⟩,
    ⟨8, 8, "BLACK_LEVEL", .u16, 0x0F, 0, .ints [(0, 16383)], "DN", .any⟩,
    ⟨9, 9, "TRIG_PIN", .u8, 0x0F, 255, .ints [(0, 5), (255, 255)], "", .any⟩,
    ⟨10, 10, "TRIG_GUARD", .bool, 0x0F, 1, .ints [(0, 1)], "", .any⟩,
    ⟨11, 11, "RECT_ENABLE", .bool, 0x0F, 0, .ints [(0, 1)], "", .any⟩,
    ⟨12, 12, "RECT_TENSOR", .u32, 0x0F, 0, .ints [(0, 16777215)], "", .any⟩,
    ⟨13, 13, "RECT_REACH", .u8, 0x01, 255, .ints [(0, 255)], "rows", .any⟩,
    ⟨14, 14, "FE_MODE", .u8, 0x0F, 2, .ints [(0, 2)], "", .any⟩,
    ⟨15, 15, "THRESHOLD", .u8, 0x0F, 20, .ints [(1, 255)], "intensity", .any⟩,
    ⟨16, 16, "THRESHOLD_MIN", .u8, 0x0F, 5, .ints [(1, 255)], "intensity", .any⟩,
    ⟨17, 17, "THRESHOLD_MAX", .u8, 0x0F, 80, .ints [(1, 255)], "intensity", .any⟩,
    ⟨18, 18, "PIN", .bool, 0x0F, 0, .ints [(0, 1)], "", .any⟩,
    ⟨19, 19, "TARGET", .u16, 0x0F, 1000, .ints [(16, 8192)], "features", .any⟩,
    ⟨20, 20, "GAIN", .u8, 0x0F, 4, .ints [(0, 16)], "", .any⟩,
    ⟨21, 21, "ARC", .u8, 0x0F, 9, .ints [(9, 12)], "pixels", .any⟩,
    ⟨22, 22, "CELL", .u8, 0x0F, 32, .ints [(8, 8), (16, 16), (32, 32), (64, 64)], "pixels", .any⟩,
    ⟨23, 23, "KEEP_PER_CELL", .u8, 0x0F, 2, .ints [(1, 4)], "features", .any⟩,
    ⟨24, 24, "MAX_FEATURES", .u16, 0x0F, 2048, .ints [(64, 8192)], "features", .config⟩,
    ⟨25, 25, "LEVELS_DETECT", .u8, 0x0F, 15, .ints [(1, 15)], "mask", .any⟩,
    ⟨26, 26, "FLOW_ENABLE", .bool, 0x0F, 1, .ints [(0, 1)], "", .any⟩,
    ⟨27, 27, "FLOW_WINDOW", .u8, 0x0F, 11, .ints [(7, 21)], "pixels", .any⟩,
    ⟨28, 28, "FLOW_ITER", .u8, 0x0F, 8, .ints [(1, 16)], "iterations", .any⟩,
    ⟨29, 29, "FLOW_RESIDUAL_MAX", .u8, 0x0F, 24, .ints [(1, 255)], "intensity", .any⟩,
    ⟨30, 30, "FLOW_EIG_MIN", .f32, 0x0F, 1082130432, .float 0x00000000 0x47800000, "intensity²", .any⟩,
    ⟨31, 31, "LIST_DEPTH", .u8, 0x0F, 4, .ints [(2, 16)], "lists", .config⟩,
    ⟨32, 32, "PYR_DEPTH", .u8, 0x0F, 3, .ints [(2, 4)], "tensors", .config⟩,
    ⟨33, 33, "BILL_VOICE", .u8, 0x0F, 0, .ints [(0, 15)], "voice", .config⟩,
    ⟨34, 34, "SOURCE", .u8, 0x0F, 0, .ints [(0, 1)], "", .config⟩,
    ⟨35, 35, "EXTRA_BANK", .u8, 0x0F, 0, .ints [(0, 0), (6, 7)], "bank", .config⟩,
    ⟨36, 36, "INJECT", .u32, 0x02, 0, .ints [(0, 16777215)], "", .any⟩,
    ⟨37, 37, "LAST_LIST", .u32, 0x01, 0, .ints [(0, 16777215)], "", .any⟩,
    ⟨38, 38, "LAST_STAMP", .epoch, 0x01, 0, .whole, "epoch", .any⟩,
    ⟨39, 39, "FRAMES", .u32, 0x01, 0, .whole, "frames", .any⟩,
    ⟨40, 40, "ECC_ERRORS", .u32, 0x01, 0, .whole, "packets", .any⟩,
    ⟨41, 41, "CRC_ERRORS", .u32, 0x01, 0, .whole, "rows", .any⟩,
    ⟨42, 42, "LENGTH_ERRORS", .u32, 0x01, 0, .whole, "rows", .any⟩,
    ⟨43, 43, "SHORT_FRAMES", .u32, 0x01, 0, .whole, "frames", .any⟩,
    ⟨44, 44, "LONG_FRAMES", .u32, 0x01, 0, .whole, "frames", .any⟩,
    ⟨45, 45, "DISCARDED_PACKETS", .u32, 0x01, 0, .whole, "packets", .any⟩,
    ⟨46, 46, "TRIG_SUPPRESSED", .u32, 0x01, 0, .whole, "cues", .any⟩,
    ⟨47, 47, "TRIG_OVERLAP", .u32, 0x01, 0, .whole, "triggers", .any⟩,
    ⟨48, 48, "TRIG_EXPIRED", .u32, 0x01, 0, .whole, "triggers", .any⟩,
    ⟨49, 49, "SUPERSEDED_RUNS", .u32, 0x01, 0, .whole, "runs", .any⟩,
    ⟨50, 50, "OVERRUNS", .u32, 0x01, 0, .whole, "runs", .any⟩]⟩

/-- Table 8.9. -/
def entries2100 : Block := ⟨0x2100, 16, 0x1, [
    ⟨1, 1, "ENABLE", .bool, 0x0F, 0, .ints [(0, 1)], "", .any⟩,
    ⟨2, 2, "SOURCE", .u8, 0x0F, 0, .ints [(0, 2)], "", .config⟩,
    ⟨3, 3, "PDM_PIN", .u8, 0x0F, 0, .ints [(0, 15)], "", .config⟩,
    ⟨4, 4, "PDM_EDGE", .u8, 0x0F, 0, .ints [(0, 1)], "", .any⟩,
    ⟨5, 5, "SPI_MASTER", .u8, 0x0F, 0, .ints [(0, 3)], "", .config⟩,
    ⟨6, 6, "SPI_OFFSET", .u8, 0x0F, 0, .ints [(0, 31)], "bytes", .any⟩,
    ⟨7, 7, "SPI_FORMAT", .u8, 0x0F, 1, .ints [(0, 2), (4, 6)], "", .any⟩,
    ⟨8, 8, "PHASE_INT", .u16, 0x0F, 0, .ints [(0, 4095)], "samples", .any⟩,
    ⟨9, 9, "PHASE_FRAC", .u8, 0x0F, 0, .ints [(0, 63)], "1/64 sample", .any⟩,
    ⟨10, 10, "RING_DEPTH", .u16, 0x0F, 1024, .ints [(64, 16384)], "records", .config⟩,
    ⟨11, 11, "BILL_VOICE", .u8, 0x0F, 0, .ints [(0, 15)], "voice", .config⟩,
    ⟨12, 12, "INJECT", .u32, 0x02, 0, .ints [(0, 16777215)], "", .any⟩,
    ⟨13, 13, "RATIO", .u16, 0x0F, 1, .ints [(1, 4096)], "", .config⟩,
    ⟨14, 14, "HB_STAGES", .u8, 0x0F, 255, .ints [(0, 12), (255, 255)], "stages", .config⟩,
    ⟨15, 15, "RES_TAPS", .u16, 0x0F, 1, .ints [(1, 65535)], "taps", .config⟩,
    ⟨16, 27, "HB_TAPS_1–HB_TAPS_12", .u8, 0x0F, 7, .ints [(7, 63)], "taps", .config⟩,
    ⟨28, 28, "PDM_DIV", .u16, 0x0F, 50, .ints [(41, 2500)], "ETICK", .config⟩,
    ⟨29, 29, "PDM_CLK_EXT", .bool, 0x0F, 0, .ints [(0, 1)], "", .config⟩,
    ⟨30, 30, "COEF_LOAD", .u32, 0x0A, 0, .ints [(0, 16777215)], "", .any⟩,
    ⟨31, 31, "SWAP", .bool, 0x0A, 0, .ints [(1, 1)], "", .any⟩,
    ⟨32, 32, "BANK_STATE", .u8, 0x01, 0, .ints [(0, 7)], "", .any⟩,
    ⟨33, 33, "SYNC", .u8, 0x0A, 0, .ints [(1, 2)], "", .any⟩,
    ⟨34, 34, "STATE", .u8, 0x01, 0, .ints [(0, 3)], "", .any⟩,
    ⟨35, 35, "DELAY", .u32, 0x01, 0, .whole, "1/64 sample", .any⟩,
    ⟨36, 36, "SETTLE", .u32, 0x01, 0, .whole, "samples", .any⟩,
    ⟨37, 37, "LAST_STAMP", .epoch, 0x01, 0, .whole, "epoch", .any⟩,
    ⟨38, 38, "SNAPSHOT_VALUE", .i32, 0x01, 0, .whole, "", .any⟩,
    ⟨39, 39, "SNAPSHOT_STAMP", .epoch, 0x01, 0, .whole, "epoch", .any⟩,
    ⟨40, 40, "SNAPSHOT_AT", .epoch, 0x01, 0, .whole, "epoch", .any⟩,
    ⟨41, 46, "OUTPUTS, SUPPRESSED, SAT_OUT, SAT_INTERNAL, SKIPPED_SAMPLES, RESTARTS", .u32, 0x01, 0, .whole, "events", .any⟩]⟩

/-- Table 8.9, rows 48 to 57. -/
def entries2100b : Block := ⟨0x2100, 4, 0x4, [
    ⟨48, 48, "SCK_DIV", .u8, 0x0F, 25, .ints [(5, 250)], "ETICK", .any⟩,
    ⟨49, 49, "SPI_MODE", .u8, 0x0F, 3, .ints [(0, 3)], "", .any⟩,
    ⟨50, 50, "TRIGGER", .u8, 0x0F, 1, .ints [(0, 2)], "", .any⟩,
    ⟨51, 51, "BURST_PERIOD", .epoch, 0x0F, 65536, .whole, "span", .any⟩,
    ⟨52, 52, "BURST_ANCHOR", .epoch, 0x0F, 0, .whole, "epoch", .any⟩,
    ⟨53, 53, "TX_LEN", .u8, 0x0F, 1, .ints [(0, 16)], "bytes", .any⟩,
    ⟨54, 54, "TX_DATA", .blob, 0x0F, 0, .len 16 16, "", .any⟩,
    ⟨55, 55, "RX_LEN", .u8, 0x0F, 12, .ints [(1, 32)], "bytes", .any⟩,
    ⟨56, 56, "BURSTS", .u32, 0x01, 0, .whole, "bursts", .any⟩,
    ⟨57, 57, "SUPERSEDED_BURSTS", .u32, 0x01, 0, .whole, "triggers", .any⟩]⟩

/-- Table 8.10. -/
def entries2180 : Block := ⟨0x2180, 4, 0x1, [
    ⟨1, 1, "ENABLE", .bool, 0x0F, 0, .ints [(0, 1)], "", .any⟩,
    ⟨2, 2, "INVERT", .bool, 0x0F, 0, .ints [(0, 1)], "", .any⟩,
    ⟨3, 3, "INDEX_MODE", .u8, 0x0F, 1, .ints [(0, 2)], "", .any⟩,
    ⟨4, 4, "INDEX_GATE", .u8, 0x0F, 1, .ints [(0, 1)], "", .any⟩,
    ⟨5, 5, "RING_DEPTH", .u16, 0x0F, 256, .ints [(64, 16384)], "records", .config⟩,
    ⟨6, 6, "BILL_VOICE", .u8, 0x0F, 0, .ints [(0, 15)], "voice", .config⟩,
    ⟨7, 7, "PRESET", .u32, 0x0A, 0, .whole, "counts", .any⟩,
    ⟨8, 8, "POSITION", .u32, 0x01, 0, .whole, "counts", .any⟩,
    ⟨9, 9, "INDEX_COUNT", .u32, 0x01, 0, .whole, "counts", .any⟩,
    ⟨10, 10, "CAPTURE_COUNT", .u32, 0x01, 0, .whole, "counts", .any⟩,
    ⟨11, 11, "CAPTURE_STAMP", .epoch, 0x01, 0, .whole, "epoch", .any⟩,
    ⟨12, 12, "INDEX_EVENTS", .u32, 0x01, 0, .whole, "events", .any⟩,
    ⟨13, 13, "ERRORS", .u32, 0x01, 0, .whole, "events", .any⟩,
    ⟨14, 14, "STATE", .u8, 0x01, 0, .ints [(0, 1), (3, 3)], "", .any⟩]⟩

/-- Table 2.12. -/
def entries2800 : Block := ⟨0x2800, 1, 0x1, [
    ⟨1, 1, "SOURCE", .u8, 0x0F, 0, .ints [(0, 5), (16, 19), (32, 32), (48, 49)], "", .any⟩,
    ⟨2, 2, "FRAME_LINES", .u16, 0x0F, 1024, .ints [(1, 65535)], "lines", .any⟩,
    ⟨3, 3, "PERIOD_AVG", .u8, 0x0F, 4, .ints [(0, 8)], "log2 lines", .any⟩,
    ⟨4, 4, "FREEWHEEL_LIMIT", .u16, 0x0F, 64, .ints [(0, 4095)], "lines", .any⟩,
    ⟨5, 5, "EPOCH_IN_EDGE", .u8, 0x0F, 0, .ints [(0, 1)], "", .any⟩,
    ⟨6, 6, "SYNTH_PERIOD", .u32, 0x0B, 10240000, .ints [(12800, 4294967295)], "1/256 ns", .any⟩]⟩

/-- Table 2.12. -/
def entries2801 : Block := ⟨0x2801, 1, 0x1, [
    ⟨1, 1, "POSITION", .epoch, 0x01, 0, .whole, "epoch", .any⟩,
    ⟨2, 2, "LINE_PERIOD", .u32, 0x01, 0, .whole, "1/256 ns", .any⟩,
    ⟨3, 3, "STATE", .u8, 0x01, 0, .ints [(0, 4)], "", .any⟩,
    ⟨4, 4, "ACTIVE_SOURCE", .u8, 0x01, 255, .whole, "", .any⟩,
    ⟨5, 5, "PENDING_SOURCE", .u8, 0x01, 255, .whole, "", .any⟩,
    ⟨6, 6, "FREEWHEEL_LINES", .u32, 0x01, 0, .whole, "lines", .any⟩,
    ⟨7, 7, "GLITCH_EDGES", .u32, 0x01, 0, .whole, "edges", .any⟩,
    ⟨8, 8, "SKIPPED_LINES", .u32, 0x01, 0, .whole, "lines", .any⟩,
    ⟨9, 9, "LATE_CUES", .u32, 0x01, 0, .whole, "cues", .any⟩,
    ⟨10, 10, "MISSED_PERIODS", .u32, 0x01, 0, .whole, "occurrences", .any⟩,
    ⟨11, 11, "STOP_COUNT", .u32, 0x01, 0, .whole, "stops", .any⟩]⟩

/-- Table 2.12. -/
def entries2C00 : Block := ⟨0x2C00, 1024, 0x1, [
    ⟨1, 1, "STATE", .u8, 0x03, 0, .ints [(0, 1)], "", .any⟩,
    ⟨2, 2, "ACTION", .u8, 0x03, 0, .whole, "", .any⟩,
    ⟨3, 3, "TARGET", .epoch, 0x03, 0, .whole, "epoch", .any⟩,
    ⟨4, 4, "PERIOD", .epoch, 0x03, 0, .whole, "span", .any⟩,
    ⟨5, 5, "REMAINING", .u32, 0x03, 0, .whole, "firings", .any⟩,
    ⟨6, 6, "ARG", .u64, 0x03, 0, .whole, "", .any⟩,
    ⟨7, 7, "ARMED_BY", .u8, 0x01, 255, .ints [(0, 15), (255, 255)], "voice", .any⟩,
    ⟨8, 8, "LAST_FIRED", .epoch, 0x01, 0, .whole, "epoch", .any⟩,
    ⟨9, 9, "FLAGS", .u8, 0x01, 0, .ints [(0, 15)], "", .any⟩]⟩

/-- Table 9.10. -/
def entries3000 : Block := ⟨0x3000, 1, 0x1, [
    ⟨1, 1, "SELECT", .u8, 0x03, 0, .ints [(0, 7)], "instance", .any⟩,
    ⟨2, 2, "ENABLE", .bool, 0x07, 0, .ints [(0, 1)], "", .any⟩,
    ⟨3, 3, "BIND_VOICE", .u8, 0x0F, 0, .ints [(0, 15)], "voice", .stopped⟩,
    ⟨4, 4, "STATE", .u8, 0x01, 0, .ints [(0, 5)], "", .any⟩,
    ⟨5, 5, "CAMERAS", .u8, 0x07, 1, .ints [(1, 63)], "mask", .stopped⟩,
    ⟨6, 6, "CAMERAS_ACTIVE", .u8, 0x01, 0, .ints [(0, 63)], "mask", .any⟩,
    ⟨7, 7, "GYRO", .u32, 0x07, 131328, .ints [(0, 986895)], "", .stopped⟩,
    ⟨8, 8, "ACCEL", .u32, 0x07, 328707, .ints [(0, 986895)], "", .stopped⟩,
    ⟨9, 9, "INPUT", .u8, 0x07, 0, .ints [(0, 1)], "", .stopped⟩,
    ⟨10, 10, "INJECT", .u32, 0x02, 0, .ints [(0, 16777215)], "", .any⟩,
    ⟨11, 11, "MAP_BUDGET", .u32, 0x07, 1024, .ints [(16, 31744)], "MiB", .stopped⟩,
    ⟨12, 12, "TRIG_MASK", .u8, 0x07, 0, .ints [(0, 63)], "mask", .any⟩,
    ⟨13, 13, "TRIG_LINE", .u16, 0x07, 0, .ints [(0, 65534)], "line", .any⟩,
    ⟨14, 14, "TRIG_WIDTH", .epoch, 0x07, 131072, .whole, "span", .any⟩,
    ⟨15, 15, "FE_START_LINE", .u16, 0x07, 16, .ints [(0, 65534)], "line", .any⟩,
    ⟨16, 16, "POSE_DELAY", .epoch, 0x07, 4294967296, .ints [(65536, 17179869184)], "span", .any⟩,
    ⟨17, 17, "EXTRAP_LIMIT", .u8, 0x07, 8, .ints [(1, 255)], "frames", .any⟩,
    ⟨18, 18, "POSE_CPL", .u8, 0x07, 0, .ints [(0, 2)], "", .any⟩,
    ⟨19, 19, "FLAGS", .u16, 0x01, 0, .ints [(0, 63)], "", .any⟩,
    ⟨20, 20, "FRAMES", .u32, 0x01, 0, .whole, "frames", .any⟩,
    ⟨21, 21, "MISSED", .u32, 0x01, 0, .whole, "frames", .any⟩]⟩

/-- Table 9.11. -/
def entries3010 : Block := ⟨0x3010, 1, 0x1, [
    ⟨1, 1, "INIT_MIN_TRACKS", .u16, 0x07, 100, .ints [(16, 2048)], "tracks", .any⟩,
    ⟨2, 2, "INIT_PARALLAX", .f32, 0x07, 1065353216, .float 0x3DCCCCCD 0x41A00000, "degrees", .any⟩,
    ⟨3, 3, "GRAVITY_TOL", .f32, 0x07, 1073741824, .float 0x3DCCCCCD 0x41200000, "degrees", .any⟩,
    ⟨4, 4, "MATCH_HAMMING", .u8, 0x07, 64, .ints [(1, 128)], "bits", .any⟩,
    ⟨5, 5, "KF_MIN_FRAMES", .u8, 0x07, 2, .ints [(1, 255)], "frames", .any⟩,
    ⟨6, 6, "KF_MAX_FRAMES", .u16, 0x07, 30, .ints [(2, 1000)], "frames", .any⟩,
    ⟨7, 7, "KF_TRACK_RATIO", .f32, 0x07, 1058642330, .float 0x3DCCCCCD 0x3F733333, "", .any⟩,
    ⟨8, 8, "KF_PARALLAX", .f32, 0x07, 1065353216, .float 0x3DCCCCCD 0x41A00000, "degrees", .any⟩,
    ⟨9, 9, "WINDOW_KEYFRAMES", .u8, 0x07, 32, .ints [(4, 32)], "keyframes", .stopped⟩,
    ⟨10, 10, "WINDOW_LANDMARKS", .u16, 0x07, 2048, .ints [(256, 2048)], "landmarks", .stopped⟩,
    ⟨11, 11, "SOLVE_ITER", .u8, 0x07, 4, .ints [(1, 16)], "iterations", .any⟩,
    ⟨12, 12, "SOLVE_LANE", .u8, 0x07, 255, .ints [(0, 3), (255, 255)], "lane", .any⟩,
    ⟨13, 13, "MIN_TRACKS_LOST", .u16, 0x07, 30, .ints [(6, 2048)], "inliers", .any⟩,
    ⟨14, 14, "LOST_FRAMES", .u8, 0x07, 3, .ints [(1, 255)], "frames", .any⟩,
    ⟨15, 15, "QUALITY_REF", .u16, 0x07, 400, .ints [(16, 8192)], "inliers", .any⟩,
    ⟨16, 16, "KEYFRAMES_CREATED", .u32, 0x01, 0, .whole, "keyframes", .any⟩]⟩

/-- Table 9.12. -/
def entries3020 : Block := ⟨0x3020, 1, 0x1, [
    ⟨1, 1, "NEW_POINTS_MAX", .u16, 0x07, 256, .ints [(16, 1024)], "points", .any⟩,
    ⟨2, 2, "CULL_MIN_OBS", .u8, 0x07, 2, .ints [(1, 16)], "observations", .any⟩,
    ⟨3, 3, "KF_REDUNDANCY", .f32, 0x07, 1063675494, .float 0x3F000000 0x3F800000, "", .any⟩,
    ⟨4, 4, "CLEAR", .bool, 0x02, 0, .ints [(1, 1)], "", .any⟩,
    ⟨5, 5, "EXPORT", .bool, 0x02, 0, .ints [(1, 1)], "", .any⟩,
    ⟨6, 6, "EXPORT_STATUS", .u8, 0x01, 0, .ints [(0, 2)], "", .any⟩,
    ⟨7, 7, "EXPORT_LENGTH", .u64, 0x01, 0, .whole, "bytes", .any⟩,
    ⟨8, 8, "IMPORT", .u32, 0x02, 0, .ints [(0, 16777215)], "", .any⟩,
    ⟨9, 9, "MAP_KEYFRAMES", .u32, 0x01, 0, .ints [(0, 131072)], "keyframes", .any⟩,
    ⟨10, 10, "MAP_POINTS", .u32, 0x01, 0, .ints [(0, 33554432)], "points", .any⟩,
    ⟨11, 11, "MAP_BYTES", .u64, 0x01, 0, .whole, "bytes", .any⟩,
    ⟨12, 12, "NEXT_KEYFRAME_ID", .u32, 0x01, 1, .ints [(1, 4294967295)], "", .any⟩,
    ⟨13, 13, "NEXT_POINT_ID", .u32, 0x01, 1, .ints [(1, 4294967295)], "", .any⟩,
    ⟨14, 14, "POINTS_CULLED", .u32, 0x01, 0, .whole, "points", .any⟩,
    ⟨15, 15, "KEYFRAMES_CULLED", .u32, 0x01, 0, .whole, "keyframes", .any⟩]⟩

/-- Table 9.13. -/
def entries3030 : Block := ⟨0x3030, 1, 0x1, [
    ⟨1, 1, "ENABLE", .bool, 0x07, 1, .ints [(0, 1)], "", .any⟩,
    ⟨2, 2, "CANDIDATES", .u8, 0x07, 4, .ints [(1, 8)], "keyframes", .any⟩,
    ⟨3, 3, "SCORE_MIN", .i32, 0x07, 1000000, .ints [(0, 4129024)], "", .any⟩,
    ⟨4, 4, "EXCLUDE_RECENT", .u16, 0x07, 20, .ints [(0, 4096)], "keyframes", .any⟩,
    ⟨5, 5, "RANSAC_ITER", .u16, 0x07, 256, .ints [(16, 4096)], "hypotheses", .any⟩,
    ⟨6, 6, "REPROJ_MAX", .f32, 0x07, 1073741824, .float 0x3E800000 0x41800000, "pixels", .any⟩,
    ⟨7, 7, "INLIERS_MIN", .u16, 0x07, 40, .ints [(10, 1024)], "inliers", .any⟩,
    ⟨8, 8, "LOOP_DUE", .epoch, 0x07, 8589934592, .ints [(65536, 274877906944)], "span", .any⟩,
    ⟨9, 9, "CLOSURE_ITER", .u8, 0x07, 8, .ints [(1, 16)], "iterations", .any⟩,
    ⟨10, 10, "DESC_MODEL", .u32, 0x07, 0, .whole, "", .stopped⟩,
    ⟨11, 11, "PLACE_MODEL", .u32, 0x07, 0, .whole, "", .stopped⟩,
    ⟨12, 12, "BREEZE_SHARE", .bool, 0x07, 0, .ints [(0, 1)], "", .any⟩,
    ⟨13, 16, "ACCEPTED, REJECTED, MISSED, BUSY", .u32, 0x01, 0, .whole, "loops", .any⟩,
    ⟨17, 17, "CLOSURE_SEQ", .u32, 0x01, 0, .whole, "closures", .any⟩]⟩

/-- Table 9.14. -/
def entries3040 : Block := ⟨0x3040, 1, 0x1, [
    ⟨1, 1, "STAMP", .epoch, 0x01, 0, .whole, "epoch", .any⟩,
    ⟨2, 2, "STATE", .u8, 0x01, 0, .ints [(0, 2)], "", .any⟩,
    ⟨3, 3, "QUALITY", .u8, 0x01, 0, .ints [(0, 255)], "", .any⟩,
    ⟨4, 6, "POSITION_X–Z", .f32, 0x01, 0, .whole, "m", .any⟩,
    ⟨7, 7, "QUAT_W", .f32, 0x01, 1065353216, .whole, "", .any⟩,
    ⟨8, 10, "QUAT_X–Z", .f32, 0x01, 0, .whole, "", .any⟩,
    ⟨11, 11, "POS_VAR_TRACE", .f32, 0x01, 0, .whole, "m²", .any⟩,
    ⟨12, 12, "ROT_VAR_TRACE", .f32, 0x01, 0, .whole, "rad²", .any⟩,
    ⟨13, 15, "VELOCITY_X–Z", .f32, 0x01, 0, .whole, "m/s", .any⟩,
    ⟨16, 16, "COVARIANCE", .blob, 0x01, 0, .len 84 84, "", .any⟩,
    ⟨17, 17, "FLAGS", .u16, 0x01, 0, .ints [(0, 255)], "", .any⟩,
    ⟨18, 18, "EXTRAP_COUNT", .u8, 0x01, 0, .ints [(0, 255)], "frames", .any⟩,
    ⟨19, 19, "PUBLISHED", .epoch, 0x01, 0, .whole, "epoch", .any⟩,
    ⟨20, 20, "POSE_SEQ", .u32, 0x01, 0, .whole, "poses", .any⟩,
    ⟨21, 21, "KEYFRAME_ID", .u32, 0x01, 0, .whole, "", .any⟩,
    ⟨22, 22, "CLOSURE_SEQ", .u32, 0x01, 0, .whole, "", .any⟩,
    ⟨23, 23, "INLIERS", .u16, 0x01, 0, .whole, "inliers", .any⟩]⟩

/-- Table 9.14. -/
def entries3048 : Block := ⟨0x3048, 1, 0x1, [
    ⟨1, 1, "STAMP", .epoch, 0x01, 0, .whole, "epoch", .any⟩,
    ⟨2, 2, "STATE", .u8, 0x01, 0, .ints [(0, 2)], "", .any⟩,
    ⟨3, 3, "QUALITY", .u8, 0x01, 0, .whole, "", .any⟩,
    ⟨4, 6, "POSITION_X–Z", .f32, 0x01, 0, .whole, "m", .any⟩,
    ⟨7, 7, "QUAT_W", .f32, 0x01, 1065353216, .whole, "", .any⟩,
    ⟨8, 10, "QUAT_X–Z", .f32, 0x01, 0, .whole, "", .any⟩,
    ⟨11, 13, "VELOCITY_X–Z", .f32, 0x01, 0, .whole, "m/s", .any⟩,
    ⟨14, 14, "SOURCE_STAMP", .epoch, 0x01, 0, .whole, "epoch", .any⟩,
    ⟨15, 15, "FAST_SEQ", .u32, 0x01, 0, .whole, "poses", .any⟩,
    ⟨16, 16, "FAST_DIVIDER", .u8, 0x07, 4, .ints [(1, 64)], "outputs", .any⟩,
    ⟨17, 17, "FAST_ENABLE", .bool, 0x07, 1, .ints [(0, 1)], "", .any⟩]⟩

/-- Table 10.10. -/
def entries3800 : Block := ⟨0x3800, 1, 0x1, [
    ⟨1, 1, "STORE_SLOTS", .u32, 0x01, 98304, .whole, "slots", .any⟩,
    ⟨2, 2, "SLOTS_USED", .u32, 0x01, 0, .ints [(0, 98304)], "slots", .any⟩,
    ⟨3, 3, "SHARE_V0", .u32, 0x01, 0, .ints [(0, 98304)], "slots", .any⟩,
    ⟨4, 18, "SHARE_V1–V15", .u32, 0x0F, 0, .ints [(0, 98304)], "slots", .any⟩,
    ⟨19, 19, "MY_SHARE", .u32, 0x01, 0, .whole, "slots", .any⟩,
    ⟨20, 20, "MY_USED", .u32, 0x01, 0, .whole, "slots", .any⟩,
    ⟨21, 21, "EVICT", .u32, 0x02, 0, .ints [(0, 16777215)], "", .any⟩,
    ⟨22, 22, "RESIDENT", .u16, 0x01, 0, .whole, "tablatures", .any⟩]⟩

/-- Table 10.11. -/
def entries3810 : Block := ⟨0x3810, 4, 0x1, [
    ⟨1, 1, "STATE", .u8, 0x01, 0, .ints [(0, 2)], "", .any⟩,
    ⟨2, 2, "RUNNING_TABLATURE", .u32, 0x01, 0, .whole, "", .any⟩,
    ⟨3, 3, "RUNNING_VOICE", .u8, 0x01, 255, .whole, "", .any⟩,
    ⟨4, 4, "RUNNING_DUE", .epoch, 0x01, 0, .whole, "epoch", .any⟩,
    ⟨5, 5, "PENDING_TABLATURE", .u32, 0x01, 0, .whole, "", .any⟩,
    ⟨6, 6, "RESIDENT_SLOTS", .u32, 0x01, 0, .whole, "slots", .any⟩,
    ⟨7, 7, "REQUESTS", .u32, 0x01, 0, .whole, "requests", .any⟩,
    ⟨8, 8, "SOLVED", .u32, 0x01, 0, .whole, "requests", .any⟩,
    ⟨9, 9, "ABANDONED", .u32, 0x01, 0, .whole, "requests", .any⟩,
    ⟨10, 10, "SUPERSEDED", .u32, 0x01, 0, .whole, "requests", .any⟩,
    ⟨11, 11, "REGULARISED", .u32, 0x01, 0, .whole, "pivots", .any⟩,
    ⟨12, 12, "NONFINITE", .u32, 0x01, 0, .whole, "pivots", .any⟩,
    ⟨13, 13, "BUSY_CYCLES", .u64, 0x01, 0, .whole, "cycles", .any⟩,
    ⟨14, 14, "OVERFLOW_CYCLES", .u64, 0x01, 0, .whole, "cycles", .any⟩,
    ⟨15, 15, "LAST_CYCLES", .u32, 0x01, 0, .whole, "cycles", .any⟩]⟩

/-- Table 11.11. -/
def entries4000 : Block := ⟨0x4000, 16, 0x1, [
    ⟨1, 1, "STATE", .u8, 0x01, 0, .ints [(0, 2)], "", .any⟩,
    ⟨2, 2, "QUADRANTS_BUSY", .u8, 0x01, 0, .ints [(0, 15)], "mask", .any⟩,
    ⟨3, 3, "TIER0_USED", .u32, 0x01, 0, .ints [(0, 1048576)], "bytes", .any⟩,
    ⟨4, 4, "HOMES", .u8, 0x01, 0, .ints [(0, 16)], "homes", .any⟩,
    ⟨5, 5, "OPERATORS", .u32, 0x01, 0, .whole, "operators", .any⟩,
    ⟨6, 6, "STOLEN_IN", .u32, 0x01, 0, .whole, "operators", .any⟩,
    ⟨7, 7, "STOLEN_OUT", .u32, 0x01, 0, .whole, "operators", .any⟩,
    ⟨8, 8, "SATURATED", .u32, 0x01, 0, .whole, "elements", .any⟩,
    ⟨9, 9, "NAN_OUT", .u32, 0x01, 0, .whole, "elements", .any⟩,
    ⟨10, 10, "BUSY_QCYCLES", .u64, 0x01, 0, .whole, "quadrant-cycles", .any⟩,
    ⟨11, 11, "STALL_QCYCLES", .u64, 0x01, 0, .whole, "quadrant-cycles", .any⟩,
    ⟨12, 12, "ELAPSED_CYCLES", .u64, 0x01, 0, .whole, "cycles", .any⟩,
    ⟨13, 13, "PANEL_BYTES", .u64, 0x01, 0, .whole, "bytes", .any⟩]⟩

/-- Table 12.10. -/
def entries4100 : Block := ⟨0x4100, 1, 0x1, [
    ⟨1, 1, "TIER0_CAPACITY", .u32, 0x01, 16384, .ints [(0, 16384)], "KiB", .any⟩,
    ⟨2, 2, "TIER1_CAPACITY", .u32, 0x01, 49152, .ints [(0, 49152)], "KiB", .any⟩,
    ⟨3, 3, "TIER2_CAPACITY", .u32, 0x01, 0, .ints [(0, 31488)], "MiB", .any⟩,
    ⟨4, 4, "TIER1_BANKS", .u64, 0x01, 281474976710655, .ints [(0, 281474976710655)], "", .any⟩,
    ⟨5, 5, "LP5X_INSTALLED", .u32, 0x01, 0, .ints [(4096, 32768)], "MiB", .any⟩,
    ⟨6, 6, "LP5X_RATE", .u16, 0x0F, 8533, .ints [(3200, 3200), (4266, 4266), (5500, 5500), (6400, 6400), (7500, 7500), (8533, 8533)], "MT/s", .config⟩,
    ⟨7, 7, "FRAMES_RETIRED", .u32, 0x01, 0, .ints [(0, 32768)], "frames", .any⟩,
    ⟨8, 8, "SELECT", .u32, 0x03, 0, .ints [(0, 16777215)], "", .any⟩,
    ⟨9, 9, "TENSORS", .u16, 0x01, 0, .ints [(0, 4096)], "tensors", .any⟩,
    ⟨10, 10, "DESCRIPTOR", .blob, 0x01, 0, .len 64 64, "", .any⟩,
    ⟨11, 11, "CREATE", .blob, 0x02, 0, .len 64 64, "", .any⟩,
    ⟨12, 12, "RELEASE", .u32, 0x02, 0, .ints [(0, 16777215)], "", .any⟩,
    ⟨13, 13, "REFRESH", .u32, 0x02, 0, .ints [(0, 16777215)], "", .any⟩,
    ⟨14, 14, "MIGRATIONS", .u32, 0x01, 0, .whole, "moves", .any⟩,
    ⟨15, 15, "WRITEBACKS", .u32, 0x01, 0, .whole, "moves", .any⟩,
    ⟨16, 16, "EVICTIONS", .u32, 0x01, 0, .whole, "copies", .any⟩,
    ⟨17, 17, "RELOCATIONS", .u32, 0x01, 0, .whole, "copies", .any⟩,
    ⟨18, 18, "ECC_CORRECTED", .u32, 0x01, 0, .whole, "events", .any⟩,
    ⟨19, 19, "ECC_UNCORRECTED", .u32, 0x01, 0, .whole, "events", .any⟩,
    ⟨20, 20, "MIGRATED_BYTES", .u64, 0x01, 0, .whole, "bytes", .any⟩]⟩

/-- Table 12.11. -/
def entries4200 : Block := ⟨0x4200, 1, 0x1, [
    ⟨1, 1, "CAPACITY", .u32, 0x11, 65536, .whole, "entries", .any⟩,
    ⟨2, 2, "ENGINE_RESERVE", .u16, 0x11, 256, .whole, "entries", .any⟩,
    ⟨3, 3, "IN_USE", .u32, 0x01, 0, .ints [(0, 65536)], "entries", .any⟩,
    ⟨4, 4, "HIGH_WATER", .u32, 0x01, 0, .ints [(0, 65536)], "entries", .any⟩,
    ⟨5, 5, "ALLOCATIONS", .u32, 0x01, 0, .whole, "entries", .any⟩,
    ⟨6, 6, "QUOTA_WAITS", .u32, 0x01, 0, .whole, "commands", .any⟩]⟩

/-- Table 13.14. -/
def entries4800 : Block := ⟨0x4800, 6, 0x1, [
    ⟨1, 1, "ROLE", .u8, 0x0F, 1, .ints [(0, 3)], "", .config⟩,
    ⟨2, 2, "RATE", .u8, 0x0F, 16, .ints [(8, 8), (16, 16), (32, 32)], "Gb/s", .config⟩,
    ⟨3, 3, "REQUIRED_WIDTH", .u8, 0x0F, 1, .ints [(1, 2), (4, 4)], "lanes", .any⟩,
    ⟨4, 4, "STATE", .u8, 0x01, 0, .ints [(0, 9)], "", .any⟩,
    ⟨5, 5, "WIDTH", .u8, 0x01, 0, .ints [(0, 2), (4, 4)], "lanes", .any⟩,
    ⟨6, 6, "PLAN_STATUS", .u8, 0x01, 0, .ints [(0, 6)], "", .any⟩,
    ⟨7, 7, "NEIGHBOUR_ADDRESS", .u16, 0x01, 0, .whole, "", .any⟩,
    ⟨8, 8, "NEIGHBOUR_PORT", .u8, 0x01, 255, .whole, "", .any⟩,
    ⟨9, 9, "NEIGHBOUR_SERIAL", .u32, 0x01, 0, .whole, "", .any⟩,
    ⟨10, 10, "ROUND_TRIP", .u16, 0x01, 0, .whole, "RCLK_IN cycles", .any⟩,
    ⟨11, 11, "EDGE_SLICE", .u8, 0x01, 0, .whole, "", .any⟩,
    ⟨12, 12, "MGMT", .bool, 0x01, 0, .ints [(0, 1)], "", .any⟩,
    ⟨13, 13, "FLITS_TX", .u64, 0x01, 0, .whole, "flits", .any⟩,
    ⟨14, 14, "FLITS_RX", .u64, 0x01, 0, .whole, "flits", .any⟩,
    ⟨15, 15, "CRC_ERRORS", .u32, 0x01, 0, .whole, "flits", .any⟩,
    ⟨16, 16, "REPLAYS", .u32, 0x01, 0, .whole, "replays", .any⟩,
    ⟨17, 17, "LOCK_LOSSES", .u32, 0x01, 0, .whole, "events", .any⟩,
    ⟨18, 18, "TRAININGS", .u32, 0x01, 0, .whole, "trainings", .any⟩,
    ⟨19, 19, "PACKETS_LOST", .u32, 0x01, 0, .whole, "packets", .any⟩]⟩

/-- Table 13.15. -/
def entries4810 : Block := ⟨0x4810, 1, 0x1, [
    ⟨1, 1, "ADDRESS_MODE", .u8, 0x0F, 0, .ints [(0, 1)], "", .config⟩,
    ⟨2, 2, "ADDRESS", .u16, 0x0F, 0, .ints [(0, 1023)], "", .config⟩,
    ⟨3, 3, "ADDRESS_ACTIVE", .u16, 0x01, 0, .ints [(0, 33791)], "", .any⟩,
    ⟨4, 4, "SLICE", .u8, 0x0F, 0, .ints [(0, 63)], "", .any⟩,
    ⟨5, 5, "RT", .u64, 0x01, 0, .ints [(0, 281474976710655)], "RCLK_IN cycles", .any⟩,
    ⟨6, 6, "RT_STATE", .u8, 0x01, 0, .ints [(0, 1)], "", .any⟩,
    ⟨7, 7, "RT_SOURCE", .u8, 0x01, 255, .whole, "", .any⟩,
    ⟨8, 8, "MESH_FAULTS", .u32, 0x01, 0, .ints [(0, 15)], "", .any⟩,
    ⟨9, 9, "RECORDS", .u32, 0x01, 0, .whole, "records", .any⟩,
    ⟨10, 10, "LATE_RECORDS", .u32, 0x01, 0, .whole, "records", .any⟩]⟩

/-- Table 13.16. -/
def entries4820 : Block := ⟨0x4820, 1, 0x1, [
    ⟨1, 1, "TRANSIT", .u64, 0x0F, 18446744073709551615, .whole, "mask", .any⟩,
    ⟨2, 2, "HOP_LIMIT", .u8, 0x0F, 96, .ints [(70, 255)], "hops", .any⟩,
    ⟨3, 3, "DETOUR_SELECT", .u16, 0x0B, 0, .ints [(0, 1023)], "address", .any⟩,
    ⟨4, 4, "DETOUR_ENTRY", .u8, 0x0B, 0, .whole, "", .any⟩,
    ⟨5, 5, "DETOUR_CLEAR", .bool, 0x0A, 0, .ints [(1, 1)], "", .any⟩,
    ⟨6, 11, "ROUTED, DETOURED, ADMIT_DROPS, UNROUTABLE, MISROUTED, ROUTE_FAILS_RX", .u32, 0x01, 0, .whole, "packets", .any⟩]⟩

/-- Table 13.17. -/
def entries4830 : Block := ⟨0x4830, 1, 0x1, [
    ⟨1, 1, "LEADER", .u16, 0x0F, 65535, .ints [(0, 1023), (65535, 65535)], "", .any⟩,
    ⟨2, 2, "MEMBERS", .u16, 0x0F, 0, .ints [(0, 4096)], "arrivals", .any⟩,
    ⟨3, 3, "OPEN", .u8, 0x01, 0, .ints [(0, 16)], "lulls", .any⟩,
    ⟨4, 6, "ARRIVALS_SENT, RELEASES_RX, RELEASES_SENT", .u32, 0x01, 0, .whole, "packets", .any⟩]⟩

/-- Table 15.6. -/
def entries5000 : Block := ⟨0x5000, 1, 0x1, [
    ⟨1, 1, "LEVEL", .u8, 0x01, 2, .ints [(0, 7)], "level", .any⟩,
    ⟨2, 2, "CEILING", .u8, 0x0F, 1, .ints [(0, 5)], "level", .any⟩,
    ⟨3, 3, "FLOOR", .u8, 0x0F, 5, .ints [(0, 5)], "level", .any⟩,
    ⟨4, 4, "DEMAND", .u8, 0x01, 2, .ints [(0, 5)], "level", .any⟩,
    ⟨5, 5, "UP_UTIL", .u8, 0x0F, 85, .ints [(2, 100)], "%", .any⟩,
    ⟨6, 6, "DOWN_UTIL", .u8, 0x0F, 40, .ints [(0, 99)], "%", .any⟩,
    ⟨7, 7, "UTIL", .u8, 0x01, 0, .ints [(0, 100)], "%", .any⟩,
    ⟨8, 8, "IDLE_GATE", .bool, 0x0F, 0, .ints [(0, 1)], "", .any⟩,
    ⟨9, 9, "IDLE_DELAY", .u16, 0x0F, 100, .ints [(10, 10000)], "µs", .any⟩,
    ⟨10, 10, "HOLD_CAUSE", .u8, 0x01, 0, .ints [(0, 2)], "", .any⟩,
    ⟨11, 11, "LEVEL_CHANGES", .u32, 0x01, 0, .whole, "changes", .any⟩,
    ⟨12, 19, "RESIDENCY_P0–P7", .u64, 0x01, 0, .whole, "ETICK", .any⟩]⟩

/-- Table 15.7. -/
def entries5010 : Block := ⟨0x5010, 1, 0x1, [
    ⟨1, 1, "TJ", .i16, 0x01, 0, .whole, "1/8 °C", .any⟩,
    ⟨2, 9, "SENSOR_0–7", .i16, 0x01, 0, .whole, "1/8 °C", .any⟩,
    ⟨10, 10, "SENSORS_IN_SERVICE", .u8, 0x01, 255, .whole, "", .any⟩,
    ⟨11, 11, "THROTTLE", .i16, 0x0F, 800, .ints [(480, 800)], "1/8 °C", .any⟩,
    ⟨12, 12, "HYSTERESIS", .u8, 0x0F, 40, .ints [(8, 80)], "1/8 °C", .any⟩,
    ⟨13, 13, "TRIP", .i16, 0x11, 920, .whole, "1/8 °C", .any⟩,
    ⟨14, 14, "THERMAL_LEVEL", .u8, 0x01, 0, .ints [(0, 5)], "level", .any⟩,
    ⟨15, 15, "THERMAL_OVERRIDES", .u32, 0x01, 0, .whole, "overrides", .any⟩,
    ⟨16, 16, "LAST_THERMAL_OVERRIDE", .epoch, 0x01, 0, .whole, "epoch", .any⟩,
    ⟨17, 17, "TRIPS", .u32, 0x01, 0, .whole, "trips", .any⟩,
    ⟨18, 18, "LAST_TRIP", .epoch, 0x01, 0, .whole, "epoch", .any⟩,
    ⟨19, 19, "TJ_MAX_SEEN", .i16, 0x01, 0, .whole, "1/8 °C", .any⟩]⟩

/-- Table 15.8. -/
def entries5020 : Block := ⟨0x5020, 1, 0x1, [
    ⟨1, 1, "ILIMIT", .u16, 0x0F, 20000, .ints [(4000, 24000)], "mA", .any⟩,
    ⟨2, 2, "ICORE", .u16, 0x01, 0, .whole, "mA", .any⟩,
    ⟨3, 3, "ICORE_MAX_SEEN", .u16, 0x01, 0, .whole, "mA", .any⟩,
    ⟨4, 4, "CURRENT_LEVEL", .u8, 0x01, 0, .ints [(0, 5)], "level", .any⟩,
    ⟨5, 5, "CURRENT_OVERRIDES", .u32, 0x01, 0, .whole, "overrides", .any⟩,
    ⟨6, 6, "LAST_CURRENT_OVERRIDE", .epoch, 0x01, 0, .whole, "epoch", .any⟩,
    ⟨7, 7, "VCORE_SET", .u16, 0x01, 720, .ints [(550, 850)], "mV", .any⟩,
    ⟨8, 8, "VCORE_READ", .u16, 0x01, 0, .whole, "mV", .any⟩,
    ⟨9, 9, "VR_SETTLE", .u16, 0x0F, 50, .ints [(10, 1000)], "µs", .any⟩,
    ⟨10, 10, "VR_ERRORS", .u32, 0x01, 0, .whole, "transactions", .any⟩]⟩

/-- Table 16.9. -/
def entries5800 : Block := ⟨0x5800, 1, 0x1, [
    ⟨1, 1, "SUMMARY", .u32, 0x01, 0, .ints [(0, 131071)], "", .any⟩,
    ⟨2, 2, "FAULTED_CAUSE", .u8, 0x01, 0, .ints [(0, 10)], "", .any⟩,
    ⟨3, 3, "FAULTED_AT", .epoch, 0x01, 0, .whole, "epoch", .any⟩,
    ⟨4, 4, "MESH", .u32, 0x01, 0, .ints [(0, 15)], "", .any⟩,
    ⟨5, 5, "RETIREMENTS", .u32, 0x01, 0, .whole, "units", .any⟩,
    ⟨6, 6, "ATTN_MASK", .u16, 0x0F, 22, .whole, "", .any⟩,
    ⟨7, 7, "ATTN_ACK", .bool, 0x0A, 0, .ints [(1, 1)], "", .any⟩]⟩

/-- Table 16.10. -/
def entries5810 : Block := ⟨0x5810, 1, 0x1, [
    ⟨1, 1, "CORES", .u8, 0x01, 0, .ints [(0, 15)], "mask", .any⟩,
    ⟨2, 2, "ARRAYS", .u16, 0x01, 0, .whole, "mask", .any⟩,
    ⟨3, 3, "LANES", .u8, 0x01, 0, .ints [(0, 15)], "mask", .any⟩,
    ⟨4, 4, "STORE_BANKS", .u16, 0x01, 0, .whole, "mask", .any⟩,
    ⟨5, 5, "TIER1_BANKS", .u64, 0x01, 0, .ints [(0, 281474976710655)], "mask", .any⟩,
    ⟨6, 6, "TIER2_FRAMES", .u32, 0x01, 0, .ints [(0, 32768)], "frames", .any⟩,
    ⟨7, 7, "LINE_BANKS", .u8, 0x01, 0, .whole, "mask", .any⟩,
    ⟨8, 8, "CAMERAS", .u8, 0x01, 0, .ints [(0, 63)], "mask", .any⟩,
    ⟨9, 9, "INERTIAL", .u16, 0x01, 0, .whole, "mask", .any⟩,
    ⟨10, 10, "SPI_MASTERS", .u8, 0x01, 0, .ints [(0, 15)], "mask", .any⟩,
    ⟨11, 11, "ENCODERS", .u8, 0x01, 0, .ints [(0, 15)], "mask", .any⟩,
    ⟨12, 12, "PORTS", .u8, 0x01, 0, .ints [(0, 31)], "mask", .any⟩,
    ⟨13, 13, "STRINGS", .u8, 0x01, 0, .ints [(0, 63)], "mask", .any⟩,
    ⟨14, 14, "STRING_LANES", .u32, 0x01, 0, .ints [(0, 16777215)], "mask", .any⟩,
    ⟨15, 15, "SENSORS", .u8, 0x01, 0, .whole, "mask", .any⟩]⟩

/-- Table 16.11. -/
def entries5820 : Block := ⟨0x5820, 1, 0x1, [
    ⟨1, 1, "LATEST", .u32, 0x01, 0, .whole, "", .any⟩,
    ⟨2, 2, "SELECT", .u32, 0x03, 0, .whole, "", .any⟩,
    ⟨3, 3, "RECORD", .blob, 0x01, 0, .len 32 32, "", .any⟩,
    ⟨4, 4, "OVERFLOWS", .u32, 0x01, 0, .whole, "events", .any⟩,
    ⟨5, 5, "OVERFLOW_CLEAR", .bool, 0x0A, 0, .ints [(1, 1)], "", .any⟩,
    ⟨6, 6, "PERSIST_COUNT", .u16, 0x01, 0, .ints [(0, 1024)], "events", .any⟩,
    ⟨7, 7, "PERSIST_SELECT", .u16, 0x03, 0, .ints [(0, 1023)], "", .any⟩,
    ⟨8, 8, "PERSIST_RECORD", .blob, 0x01, 0, .len 32 32, "", .any⟩,
    ⟨9, 9, "PERSIST_SKIPPED", .u32, 0x01, 0, .whole, "events", .any⟩,
    ⟨10, 10, "PERSIST_CLEAR", .u32, 0x0A, 0, .ints [(1129075282, 1129075282)], "", .any⟩]⟩

/-- Table 17.11. -/
def entries6000 : Block := ⟨0x6000, 1, 0x1, [
    ⟨1, 1, "ACTIVE_SLOT", .u8, 0x01, 255, .ints [(0, 1), (255, 255)], "", .any⟩,
    ⟨2, 2, "ACTIVE_SEQUENCE", .u32, 0x01, 0, .whole, "", .any⟩,
    ⟨3, 3, "SLOT_A_STATE", .u8, 0x01, 0, .ints [(0, 2)], "", .any⟩,
    ⟨4, 4, "SLOT_B_STATE", .u8, 0x01, 0, .ints [(0, 2)], "", .any⟩,
    ⟨5, 5, "SLOT_A_ERASES", .u32, 0x01, 0, .ints [(0, 100000)], "erases", .any⟩,
    ⟨6, 6, "SLOT_B_ERASES", .u32, 0x01, 0, .ints [(0, 100000)], "erases", .any⟩,
    ⟨7, 7, "ERASE_LIMIT", .u32, 0x11, 100000, .whole, "erases", .any⟩,
    ⟨8, 8, "RECORDS_SKIPPED", .u32, 0x01, 0, .whole, "records", .any⟩,
    ⟨9, 9, "RUNNING_IMAGE", .u8, 0x01, 0, .ints [(0, 1)], "", .any⟩,
    ⟨10, 10, "IMAGE_A_VERSION", .u32, 0x01, 0, .whole, "", .any⟩,
    ⟨11, 11, "IMAGE_B_VERSION", .u32, 0x01, 0, .whole, "", .any⟩,
    ⟨12, 12, "FW_INSTALL", .u32, 0x0A, 0, .ints [(0, 16777215)], "", .any⟩,
    ⟨13, 13, "FW_STATUS", .u8, 0x01, 0, .ints [(0, 3)], "", .any⟩,
    ⟨14, 14, "LAST_RESET", .u8, 0x01, 1, .ints [(1, 3)], "", .any⟩,
    ⟨15, 15, "WARM_RESETS", .u32, 0x01, 0, .whole, "resets", .any⟩,
    ⟨16, 16, "XSPI_DEVICES", .u8, 0x01, 0, .ints [(0, 3)], "mask", .any⟩]⟩

/-- Table 17.10. -/
def entries6010 : Block := ⟨0x6010, 6, 0x1, [
    ⟨1, 2, "FX, FY", .f32, 0x0F, 1148846080, .float 0xC9742400 0x49742400, "pixels", .any⟩,
    ⟨3, 3, "CX", .f32, 0x0F, 1142947840, .float 0xC9742400 0x49742400, "pixels", .any⟩,
    ⟨4, 4, "CY", .f32, 0x0F, 1137180672, .float 0xC9742400 0x49742400, "pixels", .any⟩,
    ⟨5, 7, "T_X–T_Z", .f32, 0x0F, 0, .float 0xC9742400 0x49742400, "m", .any⟩,
    ⟨8, 8, "Q_W", .f32, 0x0F, 1065353216, .float 0xC9742400 0x49742400, "", .any⟩,
    ⟨9, 11, "Q_X–Q_Z", .f32, 0x0F, 0, .float 0xC9742400 0x49742400, "", .any⟩]⟩

/-- Table 17.10. -/
def entries6016 : Block := ⟨0x6016, 1, 0x1, [
    ⟨1, 3, "Gyro SCALE", .f32, 0x0F, 1108058201, .float 0xC9742400 0x49742400, "rad/s", .any⟩,
    ⟨4, 6, "Gyro BIAS", .f32, 0x0F, 0, .float 0xC9742400 0x49742400, "rad/s", .any⟩,
    ⟨7, 7, "Gyro NOISE", .f32, 0x0F, 953267991, .float 0xC9742400 0x49742400, "rad/s/√Hz", .any⟩,
    ⟨8, 8, "Gyro BIAS_WALK", .f32, 0x0F, 925353388, .float 0xC9742400 0x49742400, "rad/s²/√Hz", .any⟩,
    ⟨9, 9, "Q_W", .f32, 0x0F, 1065353216, .float 0xC9742400 0x49742400, "", .any⟩,
    ⟨10, 12, "Q_X–Q_Z", .f32, 0x0F, 0, .float 0xC9742400 0x49742400, "", .any⟩]⟩

/-- Table 17.10. -/
def entries6017 : Block := ⟨0x6017, 1, 0x1, [
    ⟨1, 3, "Accel SCALE", .f32, 0x0F, 1125967895, .float 0xC9742400 0x49742400, "m/s²", .any⟩,
    ⟨4, 6, "Accel BIAS", .f32, 0x0F, 0, .float 0xC9742400 0x49742400, "m/s²", .any⟩,
    ⟨7, 7, "Accel NOISE", .f32, 0x0F, 990057071, .float 0xC9742400 0x49742400, "m/s²/√Hz", .any⟩,
    ⟨8, 8, "Accel BIAS_WALK", .f32, 0x0F, 966609234, .float 0xC9742400 0x49742400, "m/s³/√Hz", .any⟩,
    ⟨9, 11, "T_X–T_Z", .f32, 0x0F, 0, .float 0xC9742400 0x49742400, "m", .any⟩]⟩

/-- Table 4.16. -/
def entries7000 : Block := ⟨0x7000, 2, 0x1, [
    ⟨1, 1, "ENABLE", .bool, 0x0F, 0, .ints [(0, 1)], "", .any⟩,
    ⟨2, 2, "TRANSPORT", .u8, 0x0F, 0, .ints [(0, 2)], "", .any⟩,
    ⟨3, 3, "IDENTIFIER", .u32, 0x01, 0, .ints [(0, 536870911)], "", .any⟩,
    ⟨4, 4, "TRIGGER", .u8, 0x0F, 0, .ints [(0, 2)], "", .any⟩,
    ⟨5, 5, "INSTANCE", .u8, 0x0F, 0, .ints [(0, 7)], "instance", .any⟩,
    ⟨6, 6, "PERIOD", .epoch, 0x0F, 4294967296, .whole, "span", .any⟩,
    ⟨7, 7, "ANCHOR", .epoch, 0x0F, 0, .whole, "epoch", .any⟩,
    ⟨8, 8, "SENT", .u32, 0x01, 0, .whole, "messages", .any⟩,
    ⟨9, 9, "DROPPED", .u32, 0x01, 0, .whole, "messages", .any⟩]⟩

/-- Table 4.16. -/
def entries7002 : Block := ⟨0x7002, 30, 0x1, [
    ⟨1, 1, "ENABLE", .bool, 0x0F, 0, .ints [(0, 1)], "", .any⟩,
    ⟨2, 2, "TRANSPORT", .u8, 0x0F, 0, .ints [(0, 2)], "", .any⟩,
    ⟨3, 3, "IDENTIFIER", .u32, 0x0F, 0, .ints [(0, 536870911)], "", .any⟩,
    ⟨4, 4, "TRIGGER", .u8, 0x0F, 0, .ints [(0, 2)], "", .any⟩,
    ⟨5, 5, "INSTANCE", .u8, 0x0F, 0, .ints [(0, 7)], "instance", .any⟩,
    ⟨6, 6, "PERIOD", .epoch, 0x0F, 4294967296, .whole, "span", .any⟩,
    ⟨7, 7, "ANCHOR", .epoch, 0x0F, 0, .whole, "epoch", .any⟩,
    ⟨8, 8, "SENT", .u32, 0x01, 0, .whole, "messages", .any⟩,
    ⟨9, 9, "DROPPED", .u32, 0x01, 0, .whole, "messages", .any⟩]⟩

/-- Table 4.16. -/
def entries7020 : Block := ⟨0x7020, 2, 0x1, [
    ⟨1, 1, "COUNT", .u8, 0x01, 0, .ints [(0, 16)], "entries", .any⟩,
    ⟨2, 17, "MAP_0–MAP_15", .u32, 0x01, 0, .whole, "", .any⟩]⟩

/-- Table 4.16. -/
def entries7022 : Block := ⟨0x7022, 30, 0x1, [
    ⟨1, 1, "COUNT", .u8, 0x0F, 0, .ints [(0, 16)], "entries", .any⟩,
    ⟨2, 17, "MAP_0–MAP_15", .u32, 0x0F, 0, .whole, "", .any⟩]⟩

/-- Table 6.20, B. -/
def entries8000 : Block := ⟨0x8000, 16, 0x40, [
    ⟨1, 1, "BINDING", .u8, 0x01, 255, .ints [(0, 5), (255, 255)], "", .any⟩,
    ⟨2, 2, "STATE", .u8, 0x01, 0, .ints [(0, 3)], "", .any⟩,
    ⟨3, 3, "STOP_CAUSE", .u8, 0x01, 0, .ints [(0, 4)], "", .any⟩,
    ⟨4, 4, "RESET", .u32, 0x0A, 0, .ints [(1448235860, 1448235860)], "", .any⟩,
    ⟨5, 5, "TUNNEL", .bool, 0x0F, 0, .ints [(0, 1)], "", .config⟩]⟩

/-- Table 6.20, B+1 of V0. -/
def entries8001 : Block := ⟨0x8001, 1, 0x40, [
    ⟨1, 1, "QUOTA_TIER0", .u32, 0x01, 0, .ints [(0, 16384)], "KiB", .any⟩,
    ⟨2, 2, "QUOTA_TIER1", .u32, 0x01, 0, .ints [(0, 49152)], "KiB", .any⟩,
    ⟨3, 3, "QUOTA_TIER2", .u32, 0x01, 0, .ints [(0, 31744)], "MiB", .any⟩,
    ⟨4, 4, "QUOTA_LEDGER", .u32, 0x01, 0, .ints [(0, 65536)], "entries", .any⟩,
    ⟨5, 5, "QUOTA_CUES", .u16, 0x01, 0, .ints [(0, 768)], "slots", .any⟩]⟩

/-- Table 6.20, B+2. -/
def entries8002 : Block := ⟨0x8002, 16, 0x40, [
    ⟨1, 1, "USED_TIER0", .u32, 0x01, 0, .whole, "KiB", .any⟩,
    ⟨2, 2, "USED_TIER1", .u32, 0x01, 0, .whole, "KiB", .any⟩,
    ⟨3, 3, "USED_TIER2", .u32, 0x01, 0, .whole, "MiB", .any⟩,
    ⟨4, 4, "USED_LEDGER", .u32, 0x01, 0, .whole, "entries", .any⟩,
    ⟨5, 5, "USED_CUES", .u16, 0x01, 0, .whole, "slots", .any⟩,
    ⟨6, 6, "LIMIT_TIER0", .u32, 0x01, 0, .whole, "KiB", .any⟩,
    ⟨7, 7, "LIMIT_TIER1", .u32, 0x01, 0, .whole, "KiB", .any⟩,
    ⟨8, 8, "LIMIT_TIER2", .u32, 0x01, 0, .whole, "MiB", .any⟩,
    ⟨9, 9, "LIMIT_LEDGER", .u32, 0x01, 0, .whole, "entries", .any⟩,
    ⟨10, 10, "LIMIT_CUES", .u16, 0x01, 0, .whole, "slots", .any⟩]⟩

/-- Table 6.20, B+3. -/
def entries8003 : Block := ⟨0x8003, 16, 0x40, [
    ⟨1, 1, "COMMANDS", .u32, 0x01, 0, .whole, "commands", .any⟩,
    ⟨2, 2, "COMPLETIONS", .u32, 0x01, 0, .whole, "completions", .any⟩,
    ⟨3, 3, "REJECTED", .u32, 0x01, 0, .whole, "commands", .any⟩,
    ⟨4, 4, "SUPERSEDED", .u32, 0x01, 0, .whole, "commands", .any⟩,
    ⟨5, 5, "CPL_DROPPED", .u32, 0x01, 0, .whole, "completions", .any⟩,
    ⟨6, 6, "DMA_ERRORS", .u32, 0x01, 0, .whole, "accesses", .any⟩,
    ⟨7, 7, "RESETS", .u32, 0x01, 0, .whole, "resets", .any⟩]⟩

/-- Table 6.20, B+1. -/
def entries8041 : Block := ⟨0x8041, 15, 0x40, [
    ⟨1, 1, "QUOTA_TIER0", .u32, 0x0F, 0, .ints [(0, 16384)], "KiB", .any⟩,
    ⟨2, 2, "QUOTA_TIER1", .u32, 0x0F, 0, .ints [(0, 49152)], "KiB", .any⟩,
    ⟨3, 3, "QUOTA_TIER2", .u32, 0x0F, 0, .ints [(0, 31744)], "MiB", .any⟩,
    ⟨4, 4, "QUOTA_LEDGER", .u32, 0x0F, 0, .ints [(0, 65536)], "entries", .any⟩,
    ⟨5, 5, "QUOTA_CUES", .u16, 0x0F, 0, .ints [(0, 768)], "slots", .any⟩]⟩

/-- Every block of the dictionary, in ascending order of index (Table 4.5). -/
def blocks : List Block :=
  [entries1000, entries1001, entries1002, entries1008, entries1009, entries100A, entries1010, entries1011, entries1012, entries1018, entries1020, entries1100] ++
  [entries1101, entries1800, entries1810, entries1820, entries1830, entries1F00, entries1F01, entries2000, entries2100, entries2100b, entries2180, entries2800] ++
  [entries2801, entries2C00, entries3000, entries3010, entries3020, entries3030, entries3040, entries3048, entries3800, entries3810, entries4000, entries4100] ++
  [entries4200, entries4800, entries4810, entries4820, entries4830, entries5000, entries5010, entries5020, entries5800, entries5810, entries5820, entries6000] ++
  [entries6010, entries6016, entries6017, entries7000, entries7002, entries7020, entries7022, entries8000, entries8001, entries8002, entries8003, entries8041]

/-- Whether a block has the index. -/
def Block.has (b : Block) (idx : Nat) : Bool :=
  b.base ≤ idx && (idx - b.base) % b.stride == 0 && (idx - b.base) / b.stride < b.count

/-- The row of an entry, if the index is allocated and the subindex defined (subindex 0: R140). -/
def entryRow (idx sub : Nat) : Option Entry :=
  blocks.findSome? fun b =>
    if b.has idx then b.rows.find? (fun e => e.sub ≤ sub && sub ≤ e.hi) else none

/-- R143: the index is allocated. -/
def indexAllocated (idx : Nat) : Bool := blocks.any (·.has idx)

/-- R140: the highest subindex present at an index. -/
def highestSub (idx : Nat) : Nat :=
  (blocks.filter (·.has idx)).foldl (fun m b => b.rows.foldl (fun m e => Nat.max m e.hi) m) 0

/-- Table 4.2: the size in bytes of a fixed-size type; 0 for STR and BLOB. -/
def Ty.size : Ty → Nat
  | .bool | .i8 | .u8 => 1
  | .i16 | .u16 => 2
  | .i32 | .u32 | .f32 => 4
  | .u64 | .epoch => 8
  | .u128 => 16
  | .str | .blob => 0

/-- Table 4.2: the type code. -/
def Ty.code : Ty → Nat
  | .bool => 1 | .i8 => 2 | .i16 => 3 | .i32 => 4 | .u8 => 5 | .u16 => 6 | .u32 => 7 | .f32 => 8
  | .str => 9 | .blob => 10 | .u64 => 11 | .epoch => 14 | .u128 => 15

/-- Two's complement types. -/
def Ty.signed : Ty → Bool
  | .i8 | .i16 | .i32 => true
  | _ => false

/-- The key of entry index:subindex in the dictionary store. -/
def ent (idx sub : Nat) : Nat := idx * 256 + sub

/-- The key of an entry of an estimator instance (R437), kept apart from the shared keys. -/
def entEst (inst idx sub : Nat) : Nat := ent idx sub + 0x1000000 * (inst + 1)

/-- The key of a selection that each voice has of its own (R437, Tables 12.10 and 16.11). -/
def entVoice (v idx sub : Nat) : Nat := ent idx sub + 0x40000000 * (v + 1)

/-- The value that an unlisted key of the dictionary store holds: the entry's Default column. PDM_PIN of channel c
is c (Table 8.9); the identity and fretboard entries are computed by the reader. -/
def dfltOf (key : Nat) : Nat :=
  let idx := key / 256 % 0x10000
  let sub := key % 256
  if 0x2100 ≤ idx ∧ idx ≤ 0x210F ∧ sub = 3 then idx - 0x2100
  else
    match entryRow idx sub with
    | some e => e.dflt
    | none => 0

end Sys2Proof.Machine
end

