-- ==== Sys2Proof/Machine/Ops.lean ====
section
/-! DEFINITION. The named operations over tables, memories, dictionary values and counters that every meaning uses,
and the way a command's effect becomes the outcome of a step. -/

namespace Sys2Proof.Machine

/-! ### Numbers -/

/-- 2^32, the modulus of every wrapping U32 counter. -/
abbrev m32 : Nat := 0x100000000

/-- 2^64. -/
abbrev m64 : Nat := 0x10000000000000000

/-- R10, R11: a is later than b as wrapping quantities of modulus m (a difference of exactly half is not later). -/
def laterMod (m a b : Nat) : Bool :=
  let d := (a % m + (m - b % m)) % m
  0 < d && d < m / 2

/-- Bits hi to lo of n. -/
def bits (n hi lo : Nat) : Nat := n / 2 ^ lo % 2 ^ (hi + 1 - lo)

/-- Bit k of n. -/
def bit (n k : Nat) : Bool := n / 2 ^ k % 2 == 1

/-- A flag as a 0 or 1. -/
def b2n (b : Bool) : Nat := if b then 1 else 0

/-- n with bit k set. -/
def setBit (n k : Nat) : Nat := if bit n k then n else n + 2 ^ k

/-- n with bit k cleared. -/
def clearBit (n k : Nat) : Nat := if bit n k then n - 2 ^ k else n

/-- n with bit k at a value. -/
def withBit (n k : Nat) (v : Bool) : Nat := if v then setBit n k else clearBit n k

/-- The number of ones among the low `w` bits. -/
def popcount (w n : Nat) : Nat := (List.range w).countP (bit n ·)

/-- The value of a two's complement field of w bits. -/
def toSigned (w n : Nat) : Int := if n % 2 ^ w < 2 ^ (w - 1) then (n % 2 ^ w : Nat) else (n % 2 ^ w : Nat) - (2 ^ w : Nat)

/-- The two's complement pattern of w bits of an integer. -/
def ofSigned (w : Nat) (i : Int) : Nat := (i % (2 ^ w : Nat)).toNat

/-- n / d rounded to the nearest integer, ties to even (R31). -/
def divRne (n d : Nat) : Nat :=
  let q := n / d
  let r := n % d
  if 2 * r < d then q else if d < 2 * r then q + 1 else if q % 2 == 0 then q else q + 1

/-- An integer over a positive natural, rounded to nearest, ties to even. -/
def divRneInt (n : Int) (d : Nat) : Int :=
  if 0 ≤ n then (divRne n.toNat d : Nat) else - ((divRne (-n).toNat d : Nat) : Int)

/-! ### Bytes -/

/-- The little-endian value of a byte string (R8). -/
def leNat : List Byte → Nat
  | [] => 0
  | b :: r => b.toNat + 256 * leNat r

/-- The n little-endian bytes of a value (R8). -/
def leBytes : Nat → Nat → List Byte
  | 0, _ => []
  | n + 1, v => BitVec.ofNat 8 v :: leBytes n (v / 256)

/-- The little-endian field of `len` bytes at offset `off`. -/
def fieldAt (bs : List Byte) (off len : Nat) : Nat := leNat ((bs.drop off).take len)

/-- A byte string cut or zero-padded to n bytes. -/
def padTo (n : Nat) (bs : List Byte) : List Byte := (bs ++ List.replicate (n - bs.length) 0).take n

/-- One bit step of a reflected CRC register with reflected polynomial `poly`. -/
def crcStep (poly c : Nat) : Nat := if c % 2 == 1 then (c / 2) ^^^ poly else c / 2

/-- One byte through a reflected CRC register. -/
def crcByte (poly c : Nat) (b : Byte) : Nat :=
  (List.range 8).foldl (fun c _ => crcStep poly c) (c ^^^ b.toNat)

/-- The CRC-32 of R103: polynomial 0x04C11DB7 reflected, initial value and final XOR all ones. -/
def crc32 (bs : List Byte) : Nat := (bs.foldl (crcByte 0xEDB88320) 0xFFFFFFFF) ^^^ 0xFFFFFFFF

/-! ### Tables -/

/-- The value listed at a number. -/
def tabGet? {α : Type} (t : Tab α) (k : Nat) : Option α :=
  match t with
  | [] => none
  | p :: r => if p.1 = k then some p.2 else tabGet? r k

/-- The value at a number, with the default of an unlisted one. -/
def tabGet {α : Type} (d : α) (t : Tab α) (k : Nat) : α := (tabGet? t k).getD d

/-- The table with a value listed at a number. -/
def tabSet {α : Type} (t : Tab α) (k : Nat) (v : α) : Tab α :=
  match t with
  | [] => [(k, v)]
  | p :: r => if k < p.1 then (k, v) :: p :: r else if p.1 = k then (k, v) :: r else p :: tabSet r k v

/-- The table with a number unlisted. -/
def tabDel {α : Type} (t : Tab α) (k : Nat) : Tab α := t.filter (fun p => p.1 ≠ k)

/-- Numbers strictly rising. -/
def tabSorted {α : Type} : Tab α → Bool
  | [] => true
  | [_] => true
  | p :: q :: r => decide (p.1 < q.1) && tabSorted (q :: r)

/-! ### Order -/

/-- A list in order with one element put where it belongs, before those it does not follow. -/
def insertBy {α : Type} (le : α → α → Bool) (x : α) : List α → List α
  | [] => [x]
  | y :: r => if le x y then x :: y :: r else y :: insertBy le x r

/-- A list in order; equal elements keep their order. -/
def sortBy {α : Type} (le : α → α → Bool) : List α → List α
  | [] => []
  | x :: r => insertBy le x (sortBy le r)

/-! ### Memories: unlisted bytes read zero (log entry 6) -/

/-- The byte at an address. -/
def Memory.read (m : Memory) (a : Nat) : Byte := tabGet 0 m a

/-- The memory after one byte is written; a zero is unlisted. -/
def Memory.write (m : Memory) (a : Nat) (b : Byte) : Memory := if b = 0 then tabDel m a else tabSet m a b

/-- The canonical form of a memory: addresses strictly rising, no zero byte listed. -/
def Memory.wf (m : Memory) : Bool := tabSorted m && m.all (fun c => c.2 != 0)

/-- n bytes from an address on. -/
def Memory.readBytes (m : Memory) (a : Nat) : Nat → List Byte
  | 0 => []
  | n + 1 => Memory.read m a :: Memory.readBytes m (a + 1) n

/-- The memory after a byte string is written from an address on. -/
def Memory.writeBytes (m : Memory) (a : Nat) : List Byte → Memory
  | [] => m
  | b :: r => Memory.writeBytes (Memory.write m a b) (a + 1) r

/-- The memory after a range of n bytes at `dst` takes the contents of the range of n bytes at `src` of `m'`. -/
def Memory.copy (m : Memory) (dst n : Nat) (m' : Memory) (src : Nat) : Memory :=
  (m'.filter (fun c => src ≤ c.1 && c.1 < src + n)).foldl
    (fun acc c => Memory.write acc (c.1 - src + dst) c.2)
    (m.filter (fun c => !(dst ≤ c.1 && c.1 < dst + n)))

/-- The memory after a range of n bytes becomes zero. -/
def Memory.clear (m : Memory) (a n : Nat) : Memory := m.filter (fun c => !(a ≤ c.1 && c.1 < a + n))

/-! ### Dictionary values -/

/-- The stored value of an entry: the listed one, else its default. -/
def Chip.dget (c : Chip) (key : Nat) : Nat :=
  match tabGet? c.dict key with
  | some v => v
  | none => dfltOf key

/-- The chip with an entry's stored value changed; a default is unlisted. -/
def Chip.dset (c : Chip) (key v : Nat) : Chip :=
  { c with dict := if v = dfltOf key then tabDel c.dict key else tabSet c.dict key v }

/-- One more on a wrapping U32 counter (R92, R249, R315 and the like). -/
def Chip.dinc (c : Chip) (key : Nat) : Chip := c.dset key ((c.dget key + 1) % m32)

/-- n more on a wrapping U32 counter. -/
def Chip.dadd (c : Chip) (key n : Nat) : Chip := c.dset key ((c.dget key + n) % m32)

/-- n more on a wrapping U64 counter. -/
def Chip.dadd64 (c : Chip) (key n : Nat) : Chip := c.dset key ((c.dget key + n) % m64)

/-- One more on a counter that stops at its top (R787, R803). -/
def Chip.dsat (c : Chip) (key top : Nat) : Chip := c.dset key (Nat.min top (c.dget key + 1))

/-- Whether a BOOL entry holds 1. -/
def Chip.dbool (c : Chip) (key : Nat) : Bool := c.dget key == 1

/-- Canonical form of the dictionary store. -/
def dictWf (d : Tab Nat) : Bool := tabSorted d && d.all (fun p => p.2 != dfltOf p.1)

/-- The uses of free values (log entry 7). Each counts on its own, so that what one takes decides no value of another. -/
inductive FreeUse where
  | errorCount | storeStop | burst | sample | usbSpeed | usbAddress | rail | link | phase | injected
  | estSolve (i : Nat) | estPlace (i : Nat) | banks (tab : Nat) | noEstimate (tab : Nat)
  deriving DecidableEq, Repr

/-- The number of a use: its kind, and the instance or tensor that it is of. -/
def FreeUse.code : FreeUse → Nat
  | .errorCount => 0 | .storeStop => 1 | .burst => 2 | .sample => 3 | .usbSpeed => 4 | .usbAddress => 5 | .rail => 6 | .link => 7
  | .phase => 8 | .injected => 9
  | .estSolve i => 16 + i | .estPlace i => 32 + i
  | .banks t => 0x100000000 + t | .noEstimate t => 0x200000000 + t

/-- A fresh free value of a use: the chip with its count advanced, and the value. -/
def Chip.fresh (c : Chip) (u : FreeUse) : Chip × Nat :=
  let n := tabGet 0 c.frees u.code
  ({ c with frees := tabSet c.frees u.code (n + 1) }, Config.freeValue u.code n)

/-! ### Parts of the chip -/

def Chip.voice (c : Chip) (v : Nat) : Voice := tabGet {} c.voices v
def Chip.setVoice (c : Chip) (v : Nat) (x : Voice) : Chip := { c with voices := tabSet c.voices v x }
def Chip.keep (c : Chip) (v : Nat) : VoiceKeep := tabGet {} c.keeps v
def Chip.setKeep (c : Chip) (v : Nat) (x : VoiceKeep) : Chip := { c with keeps := tabSet c.keeps v x }
def Chip.cue (c : Chip) (s : Nat) : Cue := tabGet {} c.cues s
def Chip.setCue (c : Chip) (s : Nat) (x : Cue) : Chip := { c with cues := tabSet c.cues s x }
def Chip.port (c : Chip) (p : Nat) : CanPort := tabGet {} c.can p
def Chip.setPort (c : Chip) (p : Nat) (x : CanPort) : Chip := { c with can := tabSet c.can p x }
def Chip.pin (c : Chip) (p : Nat) : TrigPin := tabGet {} c.trig p
def Chip.setPin (c : Chip) (p : Nat) (x : TrigPin) : Chip := { c with trig := tabSet c.trig p x }

/-- Whether a unit has been retired (R774). -/
def Chip.isRetired (c : Chip) (u : UnitName) : Bool := c.faults.retired.contains u

/-- What stays until the next cold reset, whatever the command: the straps, the grade and the memory fitted, the levels
that hold the engine in RESET, FAULTED (R782) with FAULT_N asserted exactly in it (R783), and every retired unit (R774). -/
def Chip.untilColdReset (c old : Chip) : Chip :=
  let engine := if old.engine = .faulted then .faulted else c.engine
  { c with
    straps := old.straps
    grade := old.grade
    lp5x := old.lp5x
    engine
    board := { c.board with porstLow := old.board.porstLow, refclk := old.board.refclk }
    faults := { c.faults with
      faultN := engine == .faulted
      retired := old.faults.retired ++ c.faults.retired.filter (fun u => !old.faults.retired.contains u) } }

/-- Fold an update over a list. -/
def Chip.each {α : Type} (c : Chip) (xs : List α) (f : Chip → α → Chip) : Chip := xs.foldl f c

/-- The first n naturals from a on. -/
def rangeFrom (a n : Nat) : List Nat := (List.range n).map (· + a)

/-! ### Epoch positions -/

/-- The 64-bit value of a position: frame, line and fraction (Epoch notation). -/
def Pos.toNat (p : Pos) : Nat := p.frame * m32 + p.line * 0x10000 + p.frac

/-- A 64-bit value in its three fields. -/
def Pos.ofNat (n : Nat) : Pos := ⟨n / m32 % m32, n / 0x10000 % 0x10000, n % 0x10000⟩

/-- The current position as a 64-bit value. -/
def Chip.posNat (c : Chip) : Nat := c.epoch.pos.toNat

/-- R37: a position plus a span, at `lines` lines to the frame. -/
def Pos.add (lines : Nat) (p s : Pos) : Pos :=
  let f := p.frac + s.frac
  let l := p.line + s.line + f / 0x10000
  ⟨(p.frame + s.frame + l / lines) % m32, l % lines, f % 0x10000⟩

/-- The whole of a normalised position in fraction units, at `lines` lines to the frame. -/
def Pos.units (lines : Nat) (p : Pos) : Nat := (p.frame * lines + p.line) * 0x10000 + p.frac

/-- The normalised position of a number of fraction units (modulo 2^32 frames). -/
def Pos.ofUnits (lines : Nat) (u : Nat) : Pos :=
  ⟨u / 0x10000 / lines % m32, u / 0x10000 % lines, u % 0x10000⟩

/-- R38: one position less another, borrowing field by field. -/
def Pos.sub (lines : Nat) (p q : Pos) : Pos :=
  let total := m32 * lines * 0x10000
  Pos.ofUnits lines ((p.units lines + (total - q.units lines % total)) % total)

/-- R37 on 64-bit values. -/
def addPos (lines p s : Nat) : Nat := (Pos.add lines (Pos.ofNat p) (Pos.ofNat s)).toNat

/-- R38 on 64-bit values. -/
def subPos (lines p q : Nat) : Nat := (Pos.sub lines (Pos.ofNat p) (Pos.ofNat q)).toNat

/-- R39: position a is later than b. -/
def laterPos (a b : Nat) : Bool := laterMod m64 a b

/-- R74: position p is not earlier than the target t. -/
def reached (p t : Nat) : Bool := !laterPos t p

end Sys2Proof.Machine
end

