-- ==== Sys2Proof/Machine/Events.lean ====
section
/-! DEFINITION. Writing an event to the ring and the persistent log (R785 to R790). -/

namespace Sys2Proof.Machine

/-- R785: the epoch is STOPPED or HELD. -/
def Chip.epochNotRunning (c : Chip) : Bool := c.epoch.st == .stopped || c.epoch.st == .held

/-- Table 16.5: the codes that are persisted. -/
def persistedCode (code : Nat) : Bool := code == 0x0101 || code == 0x0201 || code == 0x0601 || code == 0x0602

/-- R788: the order of events written in one update. -/
def Event.key (e : Event) : Nat := (e.code * 0x10000 + e.block) * 0x10000 + e.inst

/-- The place of a new event in a ring held newest first: behind the events of the same update that order after it. -/
def insertEvent (e : Event) : List Event → List Event
  | [] => [e]
  | x :: r => if x.tick = e.tick ∧ e.key < x.key then x :: insertEvent e r else e :: x :: r

/-- How many events of the same update order after a new one. -/
def eventsAfter (e : Event) : List Event → Nat
  | [] => 0
  | x :: r => if x.tick = e.tick ∧ e.key < x.key then eventsAfter e r + 1 else 0

/-- R789, R790: the persistent log with an event appended, the SEQ of same-update events after it moved on. -/
def persistEvent (seq : Nat) (e : Event) (log : List (Nat × Event)) : List (Nat × Event) :=
  let shifted := log.map (fun p => if p.2.tick = e.tick ∧ e.key < p.2.key then ((p.1 + 1) % m32, p.2) else p)
  let after := shifted.takeWhile (fun p => decide (p.2.tick = e.tick ∧ e.key < p.2.key))
  (after ++ (seq, e) :: shifted.drop after.length).take 1024

/-- R786 to R790 and R784: one event is written, with the flags of Table 16.4, and asserts ATTN_N if its class is
in ATTN_MASK. -/
def Chip.log (c : Chip) (code block inst detail detail2 : Nat) : Chip :=
  let p := persistedCode code
  let e : Event := { code, block, inst, detail, detail2, flags := b2n p + 2 * b2n c.epochNotRunning,
                     stamp := c.posNat, tick := c.now }
  let f := c.faults
  let full := 4096 ≤ f.ring.length
  let latest := (f.latest + 1) % m32
  let seq := (latest + m32 - eventsAfter e f.ring % m32) % m32
  let attn := f.attnN || bit (c.dget (ent 0x5800 6)) (code / 256)
  let keepIt := p && !c.board.pfail && !(code == 0x0201 && detail == 2)
  let c1 := { c with faults := { f with
    ring := (insertEvent e f.ring).take 4096
    latest := latest
    attnN := attn
    persist := if keepIt then persistEvent seq e f.persist else f.persist } }
  let c2 := if full then c1.dsat (ent 0x5820 4) 0xFFFFFFFF else c1
  if p && c.board.pfail then c2.dsat (ent 0x5820 9) 0xFFFFFFFF else c2

/-- The 32 bytes of an event with its SEQ (Table 16.4). -/
def Event.bytes (seq : Nat) (e : Event) : List Byte :=
  leBytes 4 seq ++ leBytes 2 e.code ++ leBytes 2 e.block ++ leBytes 2 e.inst ++ leBytes 2 e.flags ++
  leBytes 4 e.detail ++ leBytes 8 e.stamp ++ leBytes 8 e.detail2

/-- Table 16.11: the event that carries a SEQ, if it is still in the ring. -/
def Chip.eventAt (c : Chip) (seq : Nat) : Option Event :=
  let back := (c.faults.latest + m32 - seq % m32) % m32
  c.faults.ring[back]?

end Sys2Proof.Machine
end

