-- ==== Sys2Proof/Machine/Rings.lean ====
section
/-! DEFINITION. Interrupts, completions and ledger entries: what a voice's rings receive and what its commands hold
(R258, R265, R273 to R276, R306, R620 to R624). -/

namespace Sys2Proof.Machine

/-- The index B + k of voice v's range (Table 6.20). -/
def vIdx (v k : Nat) : Nat := 0x8000 + 0x40 * v + k

/-! ### Interrupts -/

/-- A dword of the voice's MSI-X table; vector control reads masked until written (PCI Express, R257). -/
def Voice.msixDword (x : Voice) (k : Nat) : Nat := tabGet (if k % 4 = 3 then 1 else 0) x.msix k

/-- A function's configuration space. -/
def Chip.pcieFn (c : Chip) (fn : Nat) : PcieFn := tabGet {} c.pcie.fns fn
def Chip.setPcieFn (c : Chip) (fn : Nat) (x : PcieFn) : Chip := { c with pcie := { c.pcie with fns := tabSet c.pcie.fns fn x } }

/-- R265: the vector's message is sent, or waits for HOLDOFF, the vector's mask bit or the function's. HOLDOFF is in µs of 250
ETICK. A function whose MSI-X Enable bit is 0 sends none. -/
def Chip.sendVector (c : Chip) (v vec : Nat) : Chip :=
  let x := c.voice v
  let hold := bits x.intCtrl 9 0 * 250
  let early := match tabGet? x.lastMsg vec with
    | some t => c.now < t + hold
    | none => false
  if !(c.pcieFn v).msixEnable then c
  else if bit (x.msixDword (4 * vec + 3)) 0 || (c.pcieFn v).funcMask || early then
    c.setVoice v { x with waitMsg := if x.waitMsg.contains vec then x.waitMsg else x.waitMsg ++ [vec] }
  else
    let msg : MsixMsg := ⟨v, vec, x.msixDword (4 * vec) + m32 * x.msixDword (4 * vec + 1), x.msixDword (4 * vec + 2)⟩
    let c1 := c.setVoice v { x with lastMsg := tabSet x.lastMsg vec c.now,
                                    waitMsg := x.waitMsg.filter (· ≠ vec) }
    { c1 with msixSent := c1.msixSent ++ [msg] }

/-- The INT_MAP byte of a source (Table 6.7). -/
def Voice.mapByte (x : Voice) (src : Nat) : Nat :=
  (if src < 4 then x.intMapA else x.intMapB) / 256 ^ (src % 4) % 256

/-- Whether a voice reaches its host over PCI Express, the only transport with MSI-X. -/
def Chip.onPcie (c : Chip) (v : Nat) : Bool := (c.keep v).binding == 0 || (c.keep v).binding == 1

/-- Table 6.8, R265: an interrupt source is raised. -/
def Chip.raise (c : Chip) (v src : Nat) : Chip :=
  let x := c.voice v
  let c1 := c.setVoice v { x with intPending := setBit x.intPending src }
  let b := x.mapByte src
  if c.onPcie v && bit b 7 && bit x.intCtrl 16 then c1.sendVector v (bits b 4 0) else c1

/-! ### Completions -/

/-- The 32 bytes of a completion (Table 6.12). -/
def Completion.bytes (k : Completion) (phase : Bool) (stamp : Nat) : List Byte :=
  let kind := match k.kind with
    | .command => 0 | .cueSignal => 1 | .pose => 2 | .notice => 3
  leBytes 2 k.tag ++ leBytes 1 k.opcode ++ leBytes 1 (128 * b2n phase + kind) ++ leBytes 4 k.status ++
  leBytes 8 stamp ++ leBytes 4 k.cookie ++ leBytes 4 k.info ++ leBytes 8 k.data

/-- R275, R276: the completion ring has no free slot. -/
def Voice.cplFull (x : Voice) : Bool := 2 ^ x.cplLog2 ≤ (x.cplTail + 0x10000 - x.cplHead % 0x10000) % 0x10000

/-- A completion is produced; it is written by COMPLETION_WRITE. A voice under a reset drain gets none (R306). -/
def Chip.post (c : Chip) (v : Nat) (k : Completion) : Chip :=
  let x := c.voice v
  if x.resetDrain then c else c.setVoice v { x with cpl := x.cpl ++ [k] }

/-- A NOTICE completion (Table 6.12). -/
def Chip.notice (c : Chip) (v code : Nat) : Chip := c.post v { kind := .notice, info := code }

/-! ### The ledger -/

/-- Table 12.2, R310, R620: the in-service capacity of an item, 0 to 2 the tiers in the unit of their quota entry,
3 the ledger, 4 the cue slots. -/
def Chip.capacity (c : Chip) (item : Nat) : Nat :=
  match item with
  | 0 => 1024 * ((List.range 16).countP (fun a => !c.isRetired (.array a)))
  | 1 => 1024 * ((List.range 48).countP (fun b => !c.isRetired (.tier1Bank b)))
  | 2 => c.lp5x * 31 / 32 - 256 - c.dget (ent 0x4100 7)
  | 3 => 65280
  | _ => 768

/-- The LIMIT of a voice in an item (B+2:6–10; R310, R628): V0 has what the others leave. -/
def Chip.limit (c : Chip) (v item : Nat) : Nat :=
  if v = 0 then
    c.capacity item - ((rangeFrom 1 15).map (fun w => c.dget (ent (vIdx w 2) (item + 6)))).foldl (· + ·) 0
  else c.dget (ent (vIdx v 2) (item + 6))

/-- The QUOTA of a voice in an item (B+1:1–5; R310). -/
def Chip.quota (c : Chip) (v item : Nat) : Nat :=
  if v = 0 then
    c.capacity item - ((rangeFrom 1 15).map (fun w => c.dget (ent (vIdx w 1) (item + 1)))).foldl (· + ·) 0
  else c.dget (ent (vIdx v 1) (item + 1))

/-- The ledger entries charged to a voice (USED_LEDGER); the engine reserve is charged to none. -/
def Chip.ledgerUsed (c : Chip) (v : Nat) : Nat :=
  c.ledger.countP (fun e => e.voice == v && e.source != .reserve)

/-- R272: the voice's ledger quota has room. -/
def Chip.ledgerRoom (c : Chip) (v : Nat) : Bool := c.ledgerUsed v < c.limit v 3

/-- A ledger entry is taken (R620, R621): ALLOCATIONS and HIGH_WATER follow. -/
def Chip.ledgerAdd (c : Chip) (e : LedgerEntry) : Chip :=
  let c1 := { c with ledger := c.ledger ++ [e] }
  let c2 := c1.dinc (ent 0x4200 5)
  if c2.dget (ent 0x4200 4) < c1.ledger.length then c2.dset (ent 0x4200 4) c1.ledger.length else c2

/-- The entry of a key is released (R621). -/
def Chip.ledgerDrop (c : Chip) (v : Nat) (src : LedgerSource) (tag : Nat) : Chip :=
  { c with ledger := c.ledger.filter (fun e => !(e.voice == v && e.source == src && e.tag == tag)) }

/-- The entry of a key names further tensors (R622). -/
def Chip.ledgerName (c : Chip) (v : Nat) (src : LedgerSource) (tag : Nat) (ts : List Nat) : Chip :=
  { c with ledger := c.ledger.map (fun e =>
      if e.voice == v && e.source == src && e.tag == tag then { e with tensors := e.tensors ++ ts.filter (fun t => !e.tensors.contains t) } else e) }

/-- The tensors that a request on a lane names (R622). -/
def SolveReq.names (r : SolveReq) (t : Nat) : Bool := r.tab == t || r.blocks == t || r.result == t

/-- R335: a channel holds the tensor as its lookup. -/
def Chip.lutHeld (c : Chip) (t : Nat) : Bool := c.cams.any (fun (p : Nat × Camera) => p.2.lut == some t)

/-- R622: a ledger entry names the tensor; so does a request of a cue, whose entry the cue holds. A held lookup (R335)
and a named band (R375) count as in flight. -/
def Chip.inFlight (c : Chip) (t : Nat) : Bool :=
  c.ledger.any (fun e => e.tensors.contains t) ||
  c.passages.any (fun (p : Nat × Passage) =>
    (p.2.running.toList ++ p.2.waiting.toList).any (fun r => p.1 == t || r.tensors.contains t)) ||
  c.lanes.any (fun (p : Nat × Lane) => (p.2.running.toList ++ p.2.waiting.toList).any (·.names t)) ||
  c.lutHeld t || c.cams.any (fun (p : Nat × Camera) => (p.2.named ++ p.2.bands).any (fun b => b.tensor == t))

/-! ### Admitted commands -/

/-- R272: the opcodes that hold a ledger entry. -/
def takesEntry (opcode : Nat) : Bool := opcode == 1 || opcode == 2 || opcode == 3 || opcode == 4 || opcode == 6 || opcode == 10

/-- OPCODE, COOKIE and the IRQ flag of a command (Table 6.10). -/
def Admitted.opcode (a : Admitted) : Nat := fieldAt a.bytes 0 1
def Admitted.cookie (a : Admitted) : Nat := fieldAt a.bytes 4 4
def Admitted.irq (a : Admitted) : Bool := bit (fieldAt a.bytes 1 1) 0

/-- An operand field. -/
def Admitted.arg (a : Admitted) (off len : Nat) : Nat := fieldAt a.bytes off len

/-- The voice's admitted command, if its opcode is the given one. -/
def Chip.admittedAs (c : Chip) (v opcode : Nat) : Option Admitted :=
  match (c.voice v).admitted with
  | some a => if a.opcode = opcode then some a else none
  | none => none

/-- The admitted command is taken up. -/
def Chip.takeUp (c : Chip) (v : Nat) : Chip := c.setVoice v { c.voice v with admitted := none }

/-- A COMMAND completion with the given result (Table 6.12). -/
def Chip.complete (c : Chip) (v tag opcode cookie : Nat) (irq : Bool) (status info data : Nat) : Chip :=
  c.post v { kind := .command, tag, opcode, status, cookie, info, data, irq, holds := takesEntry opcode }

/-- The admitted command completes. -/
def Chip.finish (c : Chip) (v : Nat) (a : Admitted) (status info data : Nat) : Chip :=
  (c.takeUp v).complete v a.tag a.opcode a.cookie a.irq status info data

end Sys2Proof.Machine
end

