-- ==== Sys2Proof/Machine/Epoch.lean ====
section
/-! DEFINITION. The epoch unit: how its position moves, where it holds and stops, and how a source or frame length
changes (R36 to R69). The steps that the engine takes when a frame starts stand in EpochCommands. -/

namespace Sys2Proof.Machine

/-- 1/256 ns in one update of 4 ns. -/
def etickUnits : Nat := 1024

/-- Table 2.3: camera source codes. -/
def isCameraSource (src : Nat) : Bool := src < 6

/-- Table 2.3: encoder source codes. -/
def isEncoderSource (src : Nat) : Bool := 0x10 ≤ src && src < 0x14

/-- R45, R59: the fraction after `elapsed` since the last line edge. -/
def fractionAt (elapsed estimate : Nat) : Nat :=
  if estimate = 0 then 0 else Nat.min 0xFFFF (0x10000 * elapsed / estimate)

/-- R46: an edge this close to the one before is a glitch; STRING and SYNTHETIC have none. -/
def isGlitch (src interval estimate : Nat) : Bool :=
  src != 0x30 && src != 0x31 && decide (4 * interval < estimate)

/-- R57, R60: the estimate after a measured interval: est + (m − est) ÷ 2^n, the sum rounded to nearest, ties to even. -/
def averaged (est m n : Nat) : Nat := divRne (est * 2 ^ n + Nat.min m 0xFFFFFFFF - est) (2 ^ n)

/-- R56 to R58: one interval between real line edges enters the estimate. -/
def Chip.measure (c : Chip) (m : Nat) : Chip :=
  let e := c.epoch
  let est := if e.fresh then Nat.min m 0xFFFFFFFF else averaged e.estimate m (c.dget (ent 0x2800 3))
  { c with epoch := { e with estimate := est, fresh := false } }

/-- R66, R84: the pin goes to the inactive level of the pulse that drives it. -/
def TrigPin.release (p : TrigPin) : TrigPin :=
  if p.asserted then { p with asserted := false, rest := !p.activeHigh } else p

/-- R66: every asserted TRIG_OUT pin deasserts. -/
def Chip.releasePins (c : Chip) : Chip := { c with trig := c.trig.map (fun (p : Nat × TrigPin) => (p.1, p.2.release)) }

/-- R64 to R66: the epoch enters STOPPED from another state. The TRIG_OUT pins go to their inactive levels. The epoch unit
has no instance number in the manual: its events carry INSTANCE 0xFFFF (DESIGN CHOICE, log 24). -/
def Chip.stopEpoch (c : Chip) : Chip :=
  if c.epoch.st = .stopped then c
  else
    let c1 := ({ c with epoch := { c.epoch with st := .stopped, stoppedCond := true, freewheelCount := 0 } }).releasePins
    (c1.dinc (ent 0x2801 11)).log 0x0502 0x0013 0xFFFF 0 0

/-- R49: the epoch waits at the end of the frame. -/
def Chip.holdEpoch (c : Chip) : Chip :=
  let e := c.epoch
  { c with epoch := { e with st := .held, why := .endOfFrame,
                             pos := { e.pos with line := e.frameLines - 1, frac := 0xFFFF } } }

/-- One synthesised line in BLANKING or FREEWHEEL (R47, R49, R63). -/
def Chip.synthLine (c : Chip) : Chip :=
  let e := c.epoch
  if e.frameLines ≤ e.pos.line + 1 then c.holdEpoch
  else { c with epoch := { e with pos := { e.pos with line := e.pos.line + 1, frac := 0 } } }

/-- R54: a 64-bit position with its line field carried into a new frame length. -/
def renormalise (lines n : Nat) : Nat :=
  let p := Pos.ofNat n
  if p.line < lines then n else (Pos.mk ((p.frame + p.line / lines) % m32) (p.line % lines) p.frac).toNat

/-- R54: every armed cue's target and period are carried into the new frame length. -/
def Chip.renormaliseCues (c : Chip) (lines : Nat) : Chip :=
  { c with cues := c.cues.map (fun p =>
      let q := p.2
      if q.armed then
        let t := renormalise lines q.target
        let d := renormalise lines q.period
        (p.1, { q with target := t, period := d,
                       flags := if t ≠ q.target ∨ d ≠ q.period then setBit q.flags 3 else q.flags })
      else p) }

/-- R77: the armed cues whose targets a frame start passes over are marked. -/
def Chip.markPassed (c : Chip) (old new : Nat) : Chip :=
  { c with cues := c.cues.map (fun p =>
      if p.2.armed && laterPos p.2.target old && laterPos new p.2.target then (p.1, { p.2 with passed := true })
      else p) }

/-- R41, Table 0.7: whether the mode provides a source. -/
def Chip.hasSource (c : Chip) (src : Nat) : Bool :=
  if src = 0x30 then c.straps.mode == .mesh else if src = 0x31 then c.straps.mode == .bench else true

/-- R42, R43: the position after a frame start, with the skipped positions counted. -/
def Chip.nextFrame (c : Chip) : Chip :=
  let e := c.epoch
  let old := e.pos.toNat
  let pos : Pos := ⟨(e.pos.frame + 1) % m32, 0, 0⟩
  let skipped := if e.st = .stopped then 0 else e.frameLines - 1 - e.pos.line
  let c1 := if skipped = 0 then c else c.dadd (ent 0x2801 8) skipped
  let c2 := c1.markPassed old pos.toNat
  { c2 with epoch := { e with pos, st := .running, freewheelCount := 0, rawLines := 0, elapsed := 0,
                              headerSeen := false, measurable := false, encRaw := 0, encMax := 0,
                              stoppedCond := false } }

/-- R54, R77: a frame start at a switch point. The armed cues are carried into the new frame length first, so that those
are passed over whose carried targets the frame start passes. -/
def Chip.switchFrame (c : Chip) (lines : Nat) : Chip :=
  let c1 := (if lines = c.epoch.frameLines then c else c.renormaliseCues lines).nextFrame
  { c1 with epoch := { c1.epoch with frameLines := lines, pendingLines := none, fresh := true } }

/-- R51 to R53, R58: a frame start of source `src`: the switch point of a pending source or frame length, or a frame start
of the active source. Any other source's frame start does nothing. -/
def Chip.frameStartOf (c : Chip) (src : Nat) : Chip :=
  let e := c.epoch
  if e.pendingSource = some src then
    let c1 := c.switchFrame (e.pendingLines.getD e.frameLines)
    { c1 with epoch := { c1.epoch with active := some src, pendingSource := none, synthOn := src == 0x31,
                                       virtual := if src = 0x30 then e.virtual else none } }
  else if e.active = some src then
    match e.pendingSource, e.pendingLines with
    | none, some lines => c.switchFrame lines
    | _, _ => c.nextFrame
  else c

/-- Whether a frame start of source `src` would take effect: the mode provides the source (Table 0.7), and it is active or
pending. None does in P7 (Table 2.7) or before the end of BOOT (R870). -/
def Chip.takesFrameStart (c : Chip) (src : Nat) : Bool :=
  !c.gov.p7 && c.engine != .reset && c.engine != .boot && c.hasSource src &&
  (c.epoch.pendingSource == some src || c.epoch.active == some src)

/-- R44, R48, R49, R56: one real line edge of the active source in RUNNING, FREEWHEEL or HELD by a reverse count,
`m` after the edge before it. -/
def Chip.realLine (c : Chip) (m : Nat) : Chip :=
  let e := c.epoch
  let c1 := if e.measurable && e.st != .freewheel then c.measure m else c
  let e := c1.epoch
  let raw := e.rawLines + 1
  let line := if e.st = .freewheel then Nat.max (e.pos.line + 1) raw else e.pos.line + 1
  let e' := { e with rawLines := raw, elapsed := 0, measurable := true, freewheelCount := 0 }
  if e.frameLines ≤ line then ({ c1 with epoch := e' }).holdEpoch
  else { c1 with epoch := { e' with st := .running, pos := { e.pos with line, frac := 0 } } }

/-- R50, R53, R69: a request for a source becomes pending; a pending SYNTHETIC source starts its generator. A generator that
already runs goes on in its interval when SYNTHETIC is written again (DESIGN CHOICE, log 66). -/
def Chip.requestSource (c : Chip) (src : Nat) : Chip :=
  let e := c.epoch
  let starts := src == 0x31 && !e.synthOn
  { c with epoch := { e with pendingSource := some src,
                             synthOn := src == 0x31 || e.active == some 0x31,
                             synthElapsed := if starts then 0 else e.synthElapsed,
                             synthPeriod := if starts then c.dget (ent 0x2800 6) else e.synthPeriod } }

/-- R51, R53: a new frame length. It becomes pending beside a pending source, and a later request for a source keeps it: a
request replaces the pending value of its own field (DESIGN CHOICE, log 66). While no source is active it applies at once. -/
def Chip.requestLines (c : Chip) (lines : Nat) : Chip :=
  let e := c.epoch
  if e.active = none then
    ({ c with epoch := { e with frameLines := lines, pendingLines := none } }).renormaliseCues lines
  else { c with epoch := { e with pendingLines := some lines } }

/-- R63: one more interval counts toward FREEWHEEL_LIMIT; at the limit the epoch stops. A limit of 0 written in FREEWHEEL
stops it at its next line (log 66). -/
def Chip.countFreewheel (c : Chip) : Chip :=
  let n := c.epoch.freewheelCount + 1
  let c1 := { c with epoch := { c.epoch with freewheelCount := n } }
  if c.dget (ent 0x2800 4) ≤ n then c1.stopEpoch else c1

end Sys2Proof.Machine
end

