-- ==== Sys2Proof/Machine/Cues.lean ====
section
/-! DEFINITION. Cue slots: the checks of an arm, arming, cancelling and the bookkeeping of a firing (R70 to R81,
R91, R871). What a fired cue's action does stands in CueFire. -/

namespace Sys2Proof.Machine

/-- R71: a slot that a solve with a due epoch holds. -/
def CueUse.isSolve : CueUse → Bool
  | .solve _ => true
  | _ => false

/-- Table 2.8: the actions that voices can arm. -/
def voiceAction (a : Nat) : Bool :=
  a == 0x01 || a == 0x03 || a == 0x04 || a == 0x08 || a == 0x09 || a == 0x0A

/-- The cue slots that a voice holds in 256–1,023 (USED_CUES, R71, R72). -/
def Chip.cuesUsed (c : Chip) (v : Nat) : Nat :=
  c.cues.countP (fun p => 256 ≤ p.1 && p.2.armed && p.2.armedBy == v)

/-- R72: the lowest free slot in 256–1,023. -/
def Chip.freeVoiceSlot (c : Chip) : Option Nat :=
  (rangeFrom 256 768).find? (fun s => !(c.cue s).armed)

/-- The lowest free slot of the internal users other than the estimator instances, which hold 0–127 (R184, R444). -/
def Chip.freeEngineSlot (c : Chip) : Option Nat := (rangeFrom 128 128).find? (fun s => !(c.cue s).armed)

/-- The horizon of R73, +2,147,483,647:0+0x0000. -/
def armHorizon : Nat := 0x7FFFFFFF * m32

/-- The width of a TRIG_PULSE, ARG bits 47:16, as a span value (Table 2.8). -/
def trigWidth (arg : Nat) : Nat := bits arg 47 16

/-- R73: a target or period that the arm refuses. -/
def Chip.badTimes (c : Chip) (action target period arg : Nat) : Bool :=
  let lines := c.epoch.frameLines
  let t := Pos.ofNat target
  let p := Pos.ofNat period
  let far := laterPos target c.posNat && decide (armHorizon < subPos lines target c.posNat)
  let w := Pos.ofNat (trigWidth arg)
  decide (lines ≤ t.line) || decide (lines ≤ p.line) || far || decide (period ≠ 0 ∧ period < 0x10000) ||
  (action == 0x01 && (trigWidth arg == 0 || decide (lines ≤ w.line)))

/-- The checks of an arm by a voice in the order of Table 4.7 (R70, R72, R73, R81); 0 is success. `hasEntry`: the
arm brings its own ledger entry (R280). -/
def Chip.armCheck (c : Chip) (v slot action target period arg : Nat) (hasEntry : Bool) : Nat :=
  if slot < 256 then 0x0A020001
  else if (c.cue slot).armed then 0x0A040001
  else if !voiceAction action || c.badTimes action target period arg then 0x0A030001
  else if c.limit v 4 ≤ c.cuesUsed v then 0x0A050001
  else if !hasEntry && !c.ledgerRoom v then 0x0A050001
  else 0

/-- R871: the unit takes an arm in this update. -/
def Chip.armRateFree (c : Chip) : Bool :=
  match c.lastArm with
  | none => true
  | some t => decide (t + 4 ≤ c.now)

/-- R871: an arm that reaches the unit now takes effect now. -/
def Chip.armsNow (c : Chip) : Bool := c.armRateFree && c.armQueue.isEmpty

/-- R871: of the arms of one update the engine's own come first, then the voices' in ascending order. -/
def ArmWait.rank (w : ArmWait) : Nat := if w.engine then 0 else w.voice + 1

/-- R871: `w` is taken before `x`. -/
def ArmWait.ahead (w x : ArmWait) : Bool := decide (w.at_ < x.at_) || (w.at_ == x.at_ && decide (w.rank < x.rank))

/-- R871: an arm that reaches the unit now and has to wait. -/
def Chip.queueArm (c : Chip) (w : ArmWait) : Chip :=
  let w' := { w with at_ := c.now }
  { c with armQueue := c.armQueue.filter (fun x => !w'.ahead x) ++ w' :: c.armQueue.filter (fun x => w'.ahead x) }

/-- A slot becomes ARMED with the given values (R76, R79, R80). LAST_FIRED keeps its value until the next firing, past this
arm too (DESIGN CHOICE, log 66). -/
def Chip.armSlot (c : Chip) (slot by_ action target period remaining arg : Nat) (use : CueUse) : Chip :=
  let q := c.cue slot
  let late := !laterPos target c.posNat
  c.setCue slot { q with armed := true, action, target, period, remaining, arg, armedBy := by_, flags := 0,
                         fired := false, late, passed := false, tag := slot, use, at_ := c.now, waits := false }

/-- An arm by the engine itself: it counts for the rate of R871, and waits for its update where that holds it back. -/
def Chip.armOwn (c : Chip) (slot by_ action target period arg : Nat) (use : CueUse) : Chip :=
  let c1 := c.armSlot slot by_ action target period 0 arg use
  if c.armsNow then { c1 with lastArm := some c.now }
  else (c1.setCue slot { c1.cue slot with waits := true }).queueArm { voice := by_, slot, write := none, engine := true }

/-- R76, R871: the engine's arm of a slot has its update. -/
def Chip.armTakes (c : Chip) (slot : Nat) : Chip :=
  let q := c.cue slot
  if q.waits then
    { c.setCue slot { q with waits := false, late := !laterPos q.target c.posNat, at_ := c.now } with lastArm := some c.now }
  else c

/-- A slot becomes FREE and releases its ledger entry (R79, R80). -/
def Chip.freeSlot (c : Chip) (slot : Nat) : Chip :=
  let q := c.cue slot
  let c0 := if q.waits then { c with armQueue := c.armQueue.filter (fun w => !(w.engine && w.slot == slot)) } else c
  let c1 := c0.setCue slot { q with armed := false, late := false, passed := false, use := .voice, waits := false }
  match q.use with
  | .estimator i _ => { c1 with ledger := c1.ledger.filter (fun e => !(e.source == .estimator i && e.tag == q.tag)) }
  | .voice | .solve _ => c1.ledgerDrop q.armedBy .cues q.tag
  | _ => c1.ledgerDrop q.armedBy .reserve q.tag

/-- An arm by a voice: the slot and its ledger entry (R72). -/
def Chip.armVoice (c : Chip) (v slot action target period remaining arg : Nat) : Chip :=
  (c.armSlot slot v action target period remaining arg .voice).ledgerAdd
    { voice := v, source := .cues, tag := slot }

/-- R71: a SOLVE_DUE cue charged to voice v in a slot from 256 on, if the limits of R72 leave one: the lowest free one
(DESIGN CHOICE, log 66). -/
def Chip.armSolveDue (c : Chip) (v lane due arg : Nat) : Option Chip :=
  if c.limit v 4 ≤ c.cuesUsed v || !c.ledgerRoom v then none
  else match c.freeVoiceSlot with
    | none => none
    | some s => some ((c.armOwn s v 0x05 due 0 arg (.solve lane)).ledgerAdd
        { voice := v, source := .cues, tag := s })

/-- An arm of an internal slot from the engine reserve (R184, R620). Its entry is charged to no voice. -/
def Chip.armEngine (c : Chip) (action target period arg : Nat) (use : CueUse) : Option (Chip × Nat) :=
  match c.freeEngineSlot with
  | none => none
  | some s => some ((c.armOwn s 0xFF action target period arg use).ledgerAdd
      { voice := 0xFF, source := .reserve, tag := s }, s)

/-- The armed slots that an internal user holds. -/
def Chip.slotsOf (c : Chip) (use : CueUse) : List Nat :=
  (c.cues.filter (fun p => p.2.armed && p.2.use == use)).map (·.1)

/-- Every slot of an internal user is freed. -/
def Chip.freeUse (c : Chip) (use : CueUse) : Chip := c.each (c.slotsOf use) Chip.freeSlot

/-- R74, R76: a slot fires in this update: its target is reached, its arm has taken effect, and in an earlier update where
the target was reached at the arm. None fires while STOPPED. -/
def Chip.slotDue (c : Chip) (n : Nat) : Bool :=
  let q := c.cue n
  c.epoch.st != .stopped && q.armed && !q.waits && reached c.posNat q.target && (!q.late || decide (q.at_ < c.now))

/-- R74, R77: the slots that fire in this update, in ascending order (R75). -/
def Chip.dueSlots (c : Chip) : List Nat := (List.range 1024).filter c.slotDue

/-- R78: how many occurrences after the one that fires the position has passed, and the next target. -/
def nextOccurrence (lines pos target period : Nat) : Nat × Nat :=
  let total := m32 * lines * 0x10000
  let step := (Pos.ofNat period).units lines
  let gone := ((Pos.ofNat pos).units lines + (total - (Pos.ofNat target).units lines % total)) % total
  let k := if step = 0 then 0 else gone / step
  (k, (Pos.ofUnits lines (((Pos.ofNat target).units lines + (k + 1) * step) % total)).toNat)

/-- The bookkeeping of one firing (R76 to R79): flags, counters, the next target or the release of the slot. LATE, SKIPPED
and MISSED tell of this firing (log 50, DEDUCED); RENORMALISED stays until the slot is armed again. The last firing of a
periodic cue, which has no next target, counts the later occurrences that are passed too (DESIGN CHOICE, log 66). -/
def Chip.fireSlot (c : Chip) (slot : Nat) : Chip :=
  let q := c.cue slot
  let c1 := if q.late then c.dinc (ent 0x2801 9) else c
  let (k, next) := if q.period = 0 then (0, 0)
    else nextOccurrence c.epoch.frameLines c.posNat q.target q.period
  let c2 := if k = 0 then c1 else c1.dadd (ent 0x2801 10) k
  let kept := if bit q.flags 3 then 8 else 0
  let fl := if q.late then setBit kept 0 else kept
  let fl := if q.passed then setBit fl 1 else fl
  let fl := if k = 0 then fl else setBit fl 2
  let last := q.period == 0 || q.remaining == 1
  let c3 := c2.setCue slot { q with flags := fl, fired := true, late := false, passed := false,
                                     lastFired := c.posNat, target := if last then q.target else next,
                                     remaining := if q.remaining = 0 then 0 else q.remaining - 1 }
  if last then c3.freeSlot slot else c3

end Sys2Proof.Machine
end

