-- ==== Sys2Proof/Machine/Tensors.lean ====
section
/-! DEFINITION. Tensors: where their copies lie, what they cost, how room is made for them, and how new contents
become current (R590 to R619, R877, R882). -/

namespace Sys2Proof.Machine

/-- Table 12.2: the granule of a tier in bytes. -/
def granule (tier : Nat) : Nat := if tier = 0 then 64 else if tier = 1 then 4096 else 0x10000

/-- A size rounded up to the tier's granule (R614). -/
def charge (tier size : Nat) : Nat := (size + granule tier - 1) / granule tier * granule tier

/-- Table 12.2: the bytes in one unit of the tier's quota entry. -/
def quotaUnit (tier : Nat) : Nat := if tier = 2 then 0x100000 else 1024

/-- R596: an identifier of the engine's own blocks. -/
def isEngineTensor (t : Nat) : Bool := 0xFF0000 ≤ t

def Chip.tensor? (c : Chip) (t : Nat) : Option Tensor := tabGet? c.tensors t
def Chip.setTensor (c : Chip) (t : Nat) (x : Tensor) : Chip := { c with tensors := tabSet c.tensors t x }

/-- R600: voice v can read the tensor. -/
def Tensor.readable (x : Tensor) (t v : Nat) : Bool :=
  (x.owner == v && !isEngineTensor t) || bit x.share v || v == 0 || (isEngineTensor t && x.bill == v)

/-- The bytes that a copy takes in tier 0, 1 or 2: of a home, of a working copy. -/
def Tensor.copies (x : Tensor) : List (Nat × Nat × Nat) :=
  (if x.home < 3 && !x.lost then [(x.home, 0xFF, x.homeAddr)] else []) ++
  (if x.work < 3 then [(x.work, x.array, x.workAddr)] else [])

/-- The homes of the runs in progress: array, address, bytes, and the voice that pays; an estimator's are charged
against its reservation (R614, R877). -/
def Chip.homeList (c : Chip) : List (Nat × Nat × Nat × Option Nat) :=
  c.passages.flatMap (fun (p : Nat × Passage) => p.2.running.toList.flatMap (fun r =>
    r.homes.map (fun h => (h.array, h.addr, h.bytes, if r.est.isSome then none else some r.voice))))

/-- The homes as ranges of tier 0. -/
def Chip.homeRanges (c : Chip) : List (Nat × Nat × Nat) := c.homeList.map (fun h => (h.1, h.2.1, h.2.2.1))

/-- A place in tier 0 lies in a home; a working copy there is not charged beside the home (R577). -/
def Chip.inHome (c : Chip) (array addr : Nat) : Bool :=
  c.homeRanges.any (fun h => h.1 == array && decide (h.2.1 ≤ addr ∧ addr < h.2.1 + h.2.2))

/-- R614: the bytes charged to a voice in a tier. -/
def Chip.usage (c : Chip) (v tier : Nat) : Nat :=
  let own := c.tensors.foldl (fun n p =>
    if p.2.bill = v then
      n + (p.2.copies.filter (fun k => k.1 == tier && !(tier == 0 && c.inHome k.2.1 k.2.2))).length *
        charge tier p.2.size
    else n) 0
  let tr := c.transients.foldl (fun n t =>
    if t.voice = v ∧ t.tier = tier then
      n + charge tier (((c.tensor? t.tensor).map (·.size)).getD 0) else n) 0
  let rs := c.reserved.foldl (fun n r => if r.voice = v ∧ r.tier = tier then n + charge tier r.bytes else n) 0
  let hs := if tier = 0 then c.homeList.foldl (fun n h => if h.2.2.2 = some v then n + h.2.2.1 else n) 0 else 0
  own + tr + rs + hs

/-- The part of a voice's usage that R616 cannot evict: homes, pinned copies, reservations. -/
def Chip.fixedUsage (c : Chip) (v tier : Nat) : Nat :=
  let own := c.tensors.foldl (fun n p =>
    if p.2.bill = v then
      n + (if p.2.home = tier ∧ !p.2.lost then charge tier p.2.size else 0)
        + (if p.2.work = tier ∧ p.2.pinTier = tier then charge tier p.2.size else 0)
    else n) 0
  c.reserved.foldl (fun n r => if r.voice = v ∧ r.tier = tier then n + charge tier r.bytes else n) own

/-- LIMIT of a voice in a tier in bytes. -/
def Chip.limitBytes (c : Chip) (v tier : Nat) : Nat := c.limit v tier * quotaUnit tier

/-! ### Places -/

/-- R882: the first address of the tier 2 reserve, below which tensors lie. -/
def Chip.tier2Top (c : Chip) : Nat :=
  let n := c.lp5x * 31 / 32
  let gone := c.faults.retired.filterMap (fun u => match u with | .tier2Frame k => some k | _ => none)
  let step := fun (f : Nat) => n - 256 - gone.countP (fun k => decide (f ≤ k ∧ k < n))
  ((List.range (gone.length + 1)).foldl (fun f _ => step f) (n - 256)) * 0x100000

/-- The end of a tier's address space for tensors. -/
def Chip.tierTop (c : Chip) (tier : Nat) : Nat :=
  if tier = 0 then 0x100000 else if tier = 1 then 0x3000000 else c.tier2Top

/-- The ranges of a tier (of one array for tier 0) that cannot take a new copy: other copies, retired banks and
frames (R591), homes of runs in tier 0 (R575). `homes` are homes being placed: array, address and bytes. -/
def Chip.blocked (c : Chip) (tier array : Nat) (homes : List (Nat × Nat × Nat)) : List (Nat × Nat) :=
  let copies := c.tensors.foldl (fun acc (p : Nat × Tensor) => acc ++
    ((p.2.copies.filter (fun (k : Nat × Nat × Nat) => k.1 == tier &&
        (tier != 0 || (k.2.1 == array && !c.inHome k.2.1 k.2.2)))).map
      (fun (k : Nat × Nat × Nat) => (k.2.2, charge tier p.2.size)))) []
  let tr := (c.transients.filter (fun t => t.tier == tier && (tier != 0 || t.array == array))).map
    (fun t => (t.addr, charge tier (((c.tensor? t.tensor).map (·.size)).getD 0)))
  let hs := if tier = 0 then ((c.homeRanges ++ homes).filter (fun h => h.1 == array)).map
    (fun h => (h.2.1, charge 0 h.2.2)) else []
  let gone := c.faults.retired.filterMap (fun u => match u with
    | .tier1Bank k => if tier = 1 then some (k * 0x100000, 0x100000) else none
    | .tier2Frame k => if tier = 2 then some (k * 0x100000, 0x100000) else none
    | _ => none)
  copies ++ tr ++ hs ++ gone

/-- R591: the lowest-addressed range of `size` bytes below `top` clear of the blocked ranges. -/
def lowestFit (blocked : List (Nat × Nat)) (top size : Nat) : Option Nat :=
  let cands := 0 :: blocked.map (fun b => b.1 + b.2)
  let ok := cands.filter (fun a => a + size ≤ top && blocked.all (fun b => b.1 + b.2 ≤ a || a + size ≤ b.1))
  match ok with
  | [] => none
  | a :: r => some (r.foldl Nat.min a)

/-- R591, R627: a place for `size` bytes in a tier. -/
def Chip.place (c : Chip) (tier array size : Nat) (homes : List (Nat × Nat × Nat)) : Option Nat :=
  lowestFit (c.blocked tier array homes) (c.tierTop tier) (charge tier size)

/-! ### Contents -/

/-- The memory of a tier; tier 0 of array a starts at a × 1 MiB. -/
def Chip.tierMem (c : Chip) (tier : Nat) : Memory :=
  match tier with
  | 0 => c.tier0 | 1 => c.tier1 | 2 => c.tier2 | _ => c.hostMem

def Chip.setTierMem (c : Chip) (tier : Nat) (m : Memory) : Chip :=
  match tier with
  | 0 => { c with tier0 := m } | 1 => { c with tier1 := m } | 2 => { c with tier2 := m } | _ => { c with hostMem := m }

/-- Where the home of a tensor starts in its tier's memory. -/
def Tensor.homeAt (x : Tensor) : Nat × Nat := (x.home, x.homeAddr)

/-- Where its working copy starts in its tier's memory. -/
def Tensor.workAt (x : Tensor) : Nat × Nat := (x.work, (if x.work = 0 then x.array * 0x100000 else 0) + x.workAddr)

/-- Current contents: those of a dirty working copy, and otherwise those of the home (Table 12.1). -/
def Tensor.currentAt (x : Tensor) : Nat × Nat := if x.dirty then x.workAt else x.homeAt

/-- n bytes of the current contents from an offset on. -/
def Chip.tensorRead (c : Chip) (x : Tensor) (off n : Nat) : List Byte :=
  (c.tierMem x.currentAt.1).readBytes (x.currentAt.2 + off) n

/-- The whole current contents of a tensor by identifier. -/
def Chip.contents (c : Chip) (t : Nat) : List Byte :=
  match c.tensor? t with
  | some x => c.tensorRead x 0 x.size
  | none => []

/-- Bytes are copied from one place to another. -/
def Chip.copyBytes (c : Chip) (fromTier fromAddr toTier toAddr n : Nat) : Chip :=
  c.setTierMem toTier ((c.tierMem toTier).copy toAddr n (c.tierMem fromTier) fromAddr)

/-! ### Copies made, written back and released -/

/-- The pin is on the working copy. -/
def Tensor.workPinned (x : Tensor) : Bool := x.work != 0xFF && x.pinTier == x.work

/-- LAST_USE (Table 12.5): a step reads a tensor. -/
def Chip.useTensor (c : Chip) (t : Nat) : Chip :=
  match c.tensor? t with
  | some x => c.setTensor t { x with lastUse := c.posNat }
  | none => c

/-- The working copy is released without write-back. -/
def Tensor.dropWork (x : Tensor) : Tensor :=
  { x with work := 0xFF, array := 0xFF, workAddr := 0, dirty := false,
           pinTier := if x.pinTier = x.work then 0xFF else x.pinTier
           voicePin := x.voicePin && x.pinTier != x.work }

/-- R611: a dirty working copy is written back whole to the home. -/
def Chip.writeBack (c : Chip) (t : Nat) : Chip :=
  match c.tensor? t with
  | some x =>
    if x.dirty then
      let c1 := c.copyBytes x.workAt.1 x.workAt.2 x.homeAt.1 x.homeAt.2 x.size
      ((c1.setTensor t { x with dirty := false, moves := (x.moves + 1) % m32, lastUse := c.posNat }).dinc
        (ent 0x4100 15)).dadd64 (ent 0x4100 20) x.size
    else c
  | none => c

/-- The working copies of voice v in a tier that R616 can evict, in its order: clean before dirty, oldest LAST_USE
first, lowest identifier. -/
def Chip.evictable (c : Chip) (v tier array : Nat) (anyVoice : Bool) : List Nat :=
  let xs := c.tensors.filter (fun p => (anyVoice || p.2.bill == v) && p.2.work == tier && p.2.pinTier != tier &&
    (tier != 0 || array == 0xFF || p.2.array == array) && !c.inFlight p.1)
  let before := fun (a b : Nat × Tensor) =>
    if a.2.dirty != b.2.dirty then !a.2.dirty
    else if a.2.lastUse != b.2.lastUse then laterPos b.2.lastUse a.2.lastUse
    else decide (a.1 ≤ b.1)
  (sortBy before xs).map (·.1)

/-- R616: one copy is evicted: a clean one is released at once, a dirty one starts its write-back. -/
def Chip.evict1 (c : Chip) (t : Nat) : Chip :=
  match c.tensor? t with
  | none => c
  | some x =>
    let c1 := c.dinc (ent 0x4100 16)
    if x.dirty then { c1 with moves := c1.moves ++ [{ tensor := t, kind := .toHome, voice := x.bill }] }
    else c1.setTensor t x.dropWork

/-- The bytes of copies whose write-back is under way, which will free their room. -/
def Chip.leaving (c : Chip) (v tier : Nat) : Nat :=
  c.moves.foldl (fun n m => match m.kind, c.tensor? m.tensor with
    | .toHome, some x => if x.bill = v ∧ x.work = tier then n + charge tier x.size else n
    | _, _ => n) 0

/-- R616, R619: copies of voice v in a tier are evicted until `need` more bytes fit its LIMIT, or none is left. -/
def Chip.evictFor (c : Chip) (v tier need : Nat) : Chip :=
  (c.evictable v tier 0xFF false).foldl (fun acc t =>
    if acc.usage v tier - acc.leaving v tier + need ≤ acc.limitBytes v tier then acc
    else if acc.moves.any (fun m => m.tensor == t && m.kind == .toHome) then acc
    else acc.evict1 t) c

/-- R617: the allocation can never fit. -/
def Chip.refuses (c : Chip) (v tier size : Nat) : Bool :=
  c.limitBytes v tier < charge tier size + c.fixedUsage v tier

/-- R605, first row of Table 12.7: the array with the most free tier 0, the lowest-numbered among equals. -/
def Chip.roomiestArray (c : Chip) (homes : List (Nat × Nat × Nat)) : Option Nat :=
  let free := fun a => 0x100000 - ((c.blocked 0 a homes).map (·.2)).foldl (· + ·) 0
  let live := (List.range 16).filter (fun a => !c.isRetired (.array a))
  match live with
  | [] => none
  | a :: r => some (r.foldl (fun best b => if free best < free b then b else best) a)

/-- The bytes are made a working copy in a tier at an address (Table 12.7, Lower): an existing one is moved there and
keeps its DIRTY flag. -/
def Chip.makeWork (c : Chip) (t tier array addr : Nat) : Chip :=
  match c.tensor? t with
  | none => c
  | some x =>
    let base := (if tier = 0 then array * 0x100000 else 0) + addr
    let c1 := c.copyBytes x.currentAt.1 x.currentAt.2 tier base x.size
    ((c1.setTensor t { x with work := tier, array := if tier = 0 then array else 0xFF, workAddr := addr,
                              moves := (x.moves + 1) % m32, lastUse := c.posNat }).dinc (ent 0x4100 14)).dadd64
      (ent 0x4100 20) x.size

/-- R602: GENERATION advances. -/
def Tensor.nextGen (x : Tensor) (at_ : Nat) : Tensor := { x with gen := (x.gen + 1) % 0x10000, lastWrite := at_ }

/-- R609, R610: new contents are written into the copy in `tier`, at a place found by the caller, or into the home
when it lies there, or into a pinned copy, which the home may be; GENERATION advances in the same update. -/
def Chip.newContents (c : Chip) (t tier array addr : Nat) (bytes : List Byte) : Chip :=
  match c.tensor? t with
  | none => c
  | some x =>
    if x.workPinned then
      let c1 := c.setTierMem x.workAt.1 ((c.tierMem x.workAt.1).writeBytes x.workAt.2 bytes)
      c1.setTensor t { x.nextGen c.posNat with dirty := true, lastUse := c.posNat }
    else if x.home = tier ∨ x.pinTier = x.home then
      let c1 := c.setTierMem x.home ((c.tierMem x.home).writeBytes x.homeAddr bytes)
      c1.setTensor t { x.dropWork.nextGen c.posNat with lastUse := c.posNat }
    else
      let base := (if tier = 0 then array * 0x100000 else 0) + addr
      let c1 := c.setTierMem tier ((c.tierMem tier).writeBytes base bytes)
      c1.setTensor t { x.nextGen c.posNat with work := tier, array := if tier = 0 then array else 0xFF,
                                               workAddr := addr, dirty := true, lastUse := c.posNat }

/-- R609: bytes of an engine block's tensor are written in tier 1 (its home, or its working copy there) at an
offset, the rest of the contents kept. -/
def Chip.patchTensor (c : Chip) (t off : Nat) (bytes : List Byte) : Chip :=
  match c.tensor? t with
  | none => c
  | some x =>
    let at_ := x.currentAt
    (c.setTierMem at_.1 ((c.tierMem at_.1).writeBytes (at_.2 + off) bytes)).setTensor t
      { x.nextGen c.posNat with lastUse := c.posNat }

/-- R597: the 64 bytes of a descriptor (Table 12.5). -/
def Chip.descriptor (c : Chip) (t : Nat) (x : Tensor) : List Byte :=
  let flags := b2n x.dirty + 2 * b2n (x.pinTier != 0xFF) + 4 * b2n (c.inFlight t) + 8 * b2n x.lost
  leBytes 4 t ++ leBytes 2 x.gen ++ leBytes 1 x.owner ++ leBytes 1 flags ++ leBytes 4 x.size ++
  leBytes 1 x.format ++ leBytes 1 x.home ++ leBytes 1 x.work ++ leBytes 1 x.array ++ leBytes 2 x.share ++
  leBytes 1 x.bill ++ leBytes 1 x.pinTier ++ leBytes 4 x.moves ++ leBytes 8 x.homeAddr ++ leBytes 8 x.workAddr ++
  leBytes 8 x.lastUse ++ leBytes 8 x.lastWrite ++ leBytes 8 0

/-- How many voice tensors a voice owns (R598, TENSORS). -/
def Chip.tensorCount (c : Chip) (v : Nat) : Nat :=
  c.tensors.countP (fun p => p.2.owner == v && !isEngineTensor p.1)

/-- An engine tensor of a block, zero-filled, with its home in a tier (R596, R599, R632); nothing when no place or
no room under the bill voice's LIMIT is left. -/
def Chip.makeEngineTensor (c : Chip) (t bill tier size format : Nat) : Option Chip :=
  if c.limitBytes bill tier < c.usage bill tier + charge tier size then none
  else match c.place tier 0xFF size [] with
    | none => none
    | some a =>
      some ((c.setTierMem tier ((c.tierMem tier).clear a (charge tier size))).setTensor t
        { owner := 0xFF, bill, size, format, home := tier, homeAddr := a, gen := 1, lastWrite := c.posNat })

/-- A tensor and every copy of it are freed, without write-back (R601). -/
def Chip.freeTensor (c : Chip) (t : Nat) : Chip :=
  { c with tensors := tabDel c.tensors t, transients := c.transients.filter (fun x => x.tensor ≠ t),
           moves := c.moves.filter (fun m => m.tensor ≠ t) }

/-- R632: a LOST engine tensor is made again, zero-filled, if its home fits its BILL voice's LIMIT; its next generation
comes with the write. -/
def Chip.recreate (c : Chip) (t : Nat) : Option Chip :=
  match c.tensor? t with
  | none => none
  | some x =>
    if !x.lost then some c
    else if c.limitBytes x.bill x.home < c.usage x.bill x.home + charge x.home x.size then none
    else match c.place x.home 0xFF x.size [] with
      | none => none
      | some a =>
        some ((c.setTierMem x.home ((c.tierMem x.home).clear a (charge x.home x.size))).setTensor t
          { x with lost := false, homeAddr := a })

/-- A write of an engine block into one of its tensors (R602, R609, R632); the second value says whether it was made.
`block` and `inst` name the block in the event of a skipped write. -/
def Chip.engineWrite (c : Chip) (t off : Nat) (bytes : List Byte) (block inst : Nat) : Chip × Bool :=
  match c.tensor? t with
  | none => (c, false)
  | some x =>
    if x.lost then
      match c.recreate t with
      | some c1 => (c1.patchTensor t off bytes, true)
      | none => (c.log 0x0802 block inst 0 0, false)
    else (c.patchTensor t off bytes, true)

/-! ### What a run or request reads and writes (R600, R607 to R609, R631) -/

/-- R869: a voice reset has released the tensor before work of this age was accepted. -/
def Tensor.goneFor (x : Tensor) (born : Nat) : Bool := x.doom.any (fun d => decide (d < born))

/-- The check of an operand that names a tensor to read, by work accepted after `born` voice resets: missing, unreadable or
lost; 0 is good. -/
def Chip.readSince (c : Chip) (v t born : Nat) : Nat :=
  match c.tensor? t with
  | none => 0x0A030001
  | some x =>
    if x.goneFor born then 0x0A030001 else if !x.readable t v then 0x0A020003 else if x.lost then 0x0A070001 else 0

/-- The same by something accepted now. -/
def Chip.readCheck (c : Chip) (v t : Nat) : Nat := c.readSince v t c.resets

/-- The check of an operand that names a tensor to write: only the OWNER may. -/
def Chip.writeCheck (c : Chip) (v t : Nat) : Nat :=
  match c.tensor? t with
  | none => 0x0A030001
  | some x =>
    if x.doom.isSome then 0x0A030001 else if x.owner ≠ v ∨ isEngineTensor t then 0x0A020003
    else if x.lost then 0x0A070001 else 0

/-- The first of several abort codes in the check order of Table 4.7; 0 where none is raised. -/
def firstCode (codes : List Nat) : Nat :=
  let order := [0x0A020003, 0x0A020001, 0x0A020002, 0x0A030002, 0x0A040001, 0x0A090001, 0x0A070001, 0x0A030001,
                0x0A030003, 0x0A050001, 0x0A0A0001, 0x0A080001, 0x0A080002]
  (order.find? (codes.contains ·)).getD 0

/-- R607: the tensor's current contents lie whole in the tier, for run number `run` perhaps in a transient copy. -/
def Chip.hasCopy (c : Chip) (t tier run : Nat) : Bool :=
  match c.tensor? t with
  | none => false
  | some x => x.currentAt.1 == tier || x.work == tier ||
      c.transients.any (fun y => y.tensor == t && y.tier == tier && y.run == run)

/-- The transient copies of a run or request are released (R608). -/
def Chip.endTransients (c : Chip) (run : Nat) : Chip :=
  { c with transients := c.transients.filter (fun y => y.run ≠ run) }

/-- R609: space in tier 1 for new contents of a tensor, held until the run ends; none is needed where its home or its
working copy lies there. The second value: 0 space exists, 1 it is awaited, 2 R617 refuses it. -/
def Chip.resultSpace (c : Chip) (t voice run : Nat) : Chip × Nat :=
  match c.tensor? t with
  | none => (c, 2)
  | some x =>
    if x.home = 1 ∨ x.work = 1 ∨ c.transients.any (fun y => y.tensor == t && y.tier == 1 && y.run == run) then (c, 0)
    else if c.refuses voice 1 x.size then (c, 2)
    else
      let c1 := c.evictFor voice 1 (charge 1 x.size)
      if c1.limitBytes voice 1 < c1.usage voice 1 + charge 1 x.size then (c1, 1)
      else match c1.place 1 0xFF x.size [] with
        | none => (c1, 1)
        | some a => ({ c1 with transients := c1.transients ++
            [{ tensor := t, tier := 1, array := 0xFF, addr := a, voice, run }] }, 0)

/-- R609, R610: bytes written at the start of a tensor become its new contents in tier 1, the bytes after them kept, in
the space that `resultSpace` found. -/
def Chip.writeResult (c : Chip) (t run : Nat) (bytes : List Byte) : Chip :=
  match c.tensor? t with
  | none => c
  | some x =>
    let whole := (bytes ++ (c.tensorRead x 0 x.size).drop bytes.length).take x.size
    let addr := if x.work = 1 then x.workAddr
      else ((c.transients.find? (fun y => y.tensor == t && y.tier == 1 && y.run == run)).map (·.addr)).getD 0
    c.newContents t 1 0xFF addr whole

/-- Bytes of a tensor's current contents are replaced without a generation of their own. -/
def Chip.poke (c : Chip) (t off : Nat) (bytes : List Byte) : Chip :=
  match c.tensor? t with
  | some x => c.setTierMem x.currentAt.1 ((c.tierMem x.currentAt.1).writeBytes (x.currentAt.2 + off) bytes)
  | none => c

/-- R433: a RAW record, or its drop when the endpoint's queue is full. -/
def Chip.rawRecord (c : Chip) (id : Nat) (bytes : List Byte) : Chip :=
  if !bit (c.dget (ent 0x1810 4)) id then c
  else if Config.endpointQueue ≤ c.usb.inRecords.length then c.dinc (ent 0x1810 7)
  else { c with usb := { c.usb with inRecords := c.usb.inRecords ++ [{ rtype := 8, ident := id, payload := bytes }] } }

end Sys2Proof.Machine
end

