-- ==== Sys2Proof/Machine/Can.lean ====
section
/-! DEFINITION. The CAN FD ports below the dictionary server: node numbers and identifiers, mailboxes and attempts,
error states, filters and the receive FIFO, heartbeats and epoch markers (chapter 5). -/

namespace Sys2Proof.Machine

/-- The key of entry :sub of port p (Table 5.12). -/
def canKey (p sub : Nat) : Nat := ent (0x1800 + p) sub

/-- R191, R192: the node number of a port, which NODE_ACTIVE reads in every engine state (Tables 5.5, 5.12). -/
def Chip.node (c : Chip) (p : Nat) : Nat :=
  if c.dget (canKey p 2) = 0 then c.straps.ident else c.dget (canKey p 2)

/-- R248: the port is in service. -/
def Chip.canAlive (c : Chip) (p : Nat) : Bool := !c.isRetired (.canPort p)

/-- The port sends its own frames: the engine has been in CONFIG, the node number is not 0 and the port is in service (R190,
R192, R248). -/
def Chip.canServes (c : Chip) (p : Nat) : Bool := (c.port p).joined && c.node p != 0 && c.canAlive p

/-- The port is on the bus: it serves, is enabled and is not bus-off (R190, R241). -/
def Chip.onBus (c : Chip) (p : Nat) : Bool := c.canServes p && c.dbool (canKey p 1) && c.dget (canKey p 13) != 3

/-- R190, R192: the entry to CONFIG, from which on the port is on the bus unless its node number is 0. -/
def Chip.joinBus (c : Chip) (p : Nat) : Chip := c.setPort p { c.port p with joined := true }

/-- Table 5.7: whether the port's identifiers are extended, and the identifier of a base. -/
def Chip.canId (c : Chip) (p base : Nat) : Bool × Nat :=
  if c.dbool (canKey p 4) then (true, base * 0x40000 + c.node p)
  else (false, if base = 0x0A0 then 0x0A0 else base + c.node p)

/-- The next CAN FD data length not below n (R213). -/
def fdLength (n : Nat) : Nat :=
  if n ≤ 8 then n else ([12, 16, 20, 24, 32, 48, 64].find? (fun k => n ≤ k)).getD 64

def CanPort.mb (x : CanPort) (m : Nat) : Mailbox := tabGet {} x.mailboxes m
def CanPort.setMb (x : CanPort) (m : Nat) (b : Mailbox) : CanPort := { x with mailboxes := tabSet x.mailboxes m b }

/-- A mailbox takes a frame and becomes PENDING. -/
def Mailbox.load (b : Mailbox) (f : CanFrame) : Mailbox :=
  { b with ide := f.ide, ident := f.ident, fdf := f.fdf, brs := f.brs, length := f.data.length, data := f.data,
           st := .pending, cancelLate := false, cancelOut := false, tried := false }

/-- R186, R236, R245: a service queues its next frame in a mailbox, and the second value says that it replaces one not yet
sent. It waits behind an attempt in progress. MB0 and MB4 replace only a frame that has not started an attempt; the message
of a broadcast channel replaces any that is unsent. -/
def CanPort.queue (x : CanPort) (m : Nat) (f : CanFrame) : CanPort × Bool :=
  let b := x.mb m
  if b.st = .active ∨ (b.st = .pending ∧ b.tried ∧ (m = 0 ∨ m = 4)) then (x.setMb m { b with next := [f] }, !b.next.isEmpty)
  else (x.setMb m (b.load f), b.st == .pending || b.st == .parked)

/-- A response of the dictionary server is queued in MB3 behind those not yet sent. -/
def Chip.canQueue (c : Chip) (p : Nat) (f : CanFrame) : Chip :=
  let x := c.port p
  let b := x.mb 3
  c.setPort p (if b.st = .pending ∨ b.st = .active then x.setMb 3 { b with next := b.next ++ [f] }
               else x.setMb 3 (b.load f))

/-- The tag of a protocol frame (Table 5.8). -/
def frameTag (f : CanFrame) : Nat := (f.data.getD 0 0).toNat % 16

/-- A response leaves. That to the last request frame accepted is kept for a replay (R222). -/
def Chip.canRespond (c : Chip) (p : Nat) (f : CanFrame) : Chip :=
  let x := c.port p
  let kept := x.lastReq.any (fun q => frameTag q == frameTag f)
  (c.setPort p { x with lastRsp := if kept then some f else x.lastRsp }).canQueue p f

/-- A service frame with a base identifier of Table 5.7. -/
def Chip.serviceFrame (c : Chip) (p base : Nat) (fd : Bool) (data : List Byte) : CanFrame :=
  let i := c.canId p base
  { ide := i.1, ident := i.2, fdf := fd, brs := fd && c.dbool (canKey p 6), esi := false, rtr := false, data }

/-- Queues a service frame and counts a replaced one in SERVICE_DROPPED (R236). -/
def Chip.queueService (c : Chip) (p m base : Nat) (data : List Byte) : Chip :=
  let r := (c.port p).queue m (c.serviceFrame p base false data)
  let c1 := c.setPort p r.1
  if r.2 then c1.dinc (canKey p 28) else c1

/-- The code of the engine state (Table 4.11). -/
def EngineState.code : EngineState → Nat
  | .reset => 0 | .boot => 1 | .selftest => 2 | .config => 3 | .ready => 4 | .run => 5 | .hold => 6 | .faulted => 15

/-- The code of the epoch state (Table 2.6). -/
def EpochState.code : EpochState → Nat
  | .stopped => 0 | .running => 1 | .blanking => 2 | .freewheel => 3 | .held => 4

/-- R234: one heartbeat (Table 5.11). -/
def Chip.beat (c : Chip) (p : Nat) : Chip :=
  let x := c.port p
  if c.canServes p && c.dget (canKey p 16) != 0 then
    (c.setPort p { x with beats := (x.beats + 1) % 0x10000, beatAt := some c.now }).queueService p 4 0x760
      ([BitVec.ofNat 8 c.engine.code, BitVec.ofNat 8 c.epoch.st.code] ++ leBytes 2 x.beats)
  else c

/-- R234: HEARTBEAT_PERIOD milliseconds have passed since the latest heartbeat, in ETICK. -/
def Chip.beatDue (c : Chip) (p : Nat) : Bool :=
  (c.port p).beatAt.all (fun t => decide (t + c.dget (canKey p 16) * 250000 ≤ c.now))

/-- R235: the epoch marker of a frame start. -/
def Chip.marker (c : Chip) (p : Nat) : Chip :=
  if c.canServes p && c.dbool (canKey p 17) && c.epoch.pos.frame % c.dget (canKey p 18) == 0 then
    c.queueService p 0 0x0A0 (leBytes 8 (c.epoch.pos.frame * m32))
  else c

/-! ### Attempts -/

/-- The order in which ISO 11898-1 arbitration prefers frames: the lower wins. -/
def Mailbox.arbitration (b : Mailbox) : Nat :=
  if b.ide then (b.ident / 0x40000) * 0x100000 + 0x80000 + b.ident % 0x40000 else b.ident * 0x100000

/-- R201: the mailbox that the port offers, the lowest-numbered among identical arbitration fields. -/
def CanPort.winner (x : CanPort) : Option Nat :=
  ((List.range 32).filter (fun m => (x.mb m).st == .pending)).foldl (fun best m =>
    match best with
    | none => some m
    | some k => if (x.mb m).arbitration < (x.mb k).arbitration then some m else some k) none

/-- R239: the bus state that the error counts give (ISO 11898-1): error-passive from 128 on, bus-off past 255. -/
def Chip.busStateUpdate (c : Chip) (p : Nat) : Chip :=
  if c.dget (canKey p 13) = 3 then c
  else c.dset (canKey p 13) (if 128 ≤ c.dget (canKey p 14) || 128 ≤ c.dget (canKey p 15) then 2 else 1)

/-- The frame of a mailbox as an attempt puts it on the bus (R188): a remote frame never, BRS only in a CAN FD frame, and ESI
recessive in a CAN FD frame of an error-passive port. -/
def Chip.frameOf (c : Chip) (p : Nat) (b : Mailbox) : CanFrame :=
  { ide := b.ide, ident := b.ident, fdf := b.fdf, brs := b.fdf && b.brs, esi := b.fdf && c.dget (canKey p 13) == 2, rtr := false
    data := padTo b.length b.data }

/-- A bit of NOMINAL_TIMING in CAN clock periods of 12.5 ns, and the ETICK of 11 bits, rounded up. -/
def nominalBit (t : Nat) : Nat := (bits t 31 24 + 1) * (3 + bits t 23 16 + bits t 14 8)
def Chip.elevenBits (c : Chip) (p : Nat) : Nat := (nominalBit (c.dget (canKey p 7)) * 275 + 7) / 8

/-- R240: the three bits of the intermission and the eight of the suspend transmission time of an error-passive port's own
transmission have passed. -/
def Chip.suspended (c : Chip) (p : Nat) : Bool := (c.port p).suspendAt.any (fun t => decide (c.now < t + c.elevenBits p))

/-- ATTEMPT_START (R201, R240): the port offers its winning mailbox on an idle bus. -/
def Chip.attemptStart (c : Chip) (p : Nat) : Chip :=
  let x := c.port p
  match c.onBus p && x.attempt.isNone && !c.suspended p, x.winner with
  | true, some m =>
    let b := x.mb m
    (c.setPort p { x.setMb m { b with st := .active, tried := true } with
      attempt := some m, suspendAt := none, txFrame := some (c.frameOf p b) }).busStateUpdate p
  | _, _ => c

/-- TEC after an error of a transmitted frame: `n` more, at most 256. -/
def Chip.tecRises (c : Chip) (p n : Nat) : Chip :=
  (c.dset (canKey p 14) (Nat.min 256 (c.dget (canKey p 14) + n))).busStateUpdate p

/-- The broadcast channel whose messages mailbox m carries. -/
def CanPort.channelOf (x : CanPort) (m : Nat) : Option Nat :=
  if m = 1 then some 0 else if m = 2 then some 1 else (x.mb m).channel

/-- A mailbox whose service has given it up: its channel is off, or nobody holds it. -/
def Chip.abandoned (c : Chip) (p m : Nat) : Bool :=
  let b := (c.port p).mb m
  if m = 1 ∨ m = 2 then !c.dbool (ent (0x6FFF + m) 1) else decide (5 ≤ m) && !b.host && b.channel.isNone

/-- The attempt in progress has not succeeded. The mailbox returns to PENDING with its frame (R202), is CANCELLED (R205), or
takes the newer message of its channel, which replaces the unsent one (R186). -/
def Chip.attemptFails (c : Chip) (p m : Nat) : Chip :=
  let x := { c.port p with attempt := none }
  let b := x.mb m
  if b.cancelOut then c.setPort p (x.setMb m { b with st := .cancelled, cancelLate := true, cancelOut := false })
  else if c.abandoned p m then c.setPort p (x.setMb m {})
  else match x.channelOf m, b.next with
    | some k, f :: r => (c.setPort p (x.setMb m { b.load f with next := r })).dinc (ent (0x7000 + k) 9)
    | _, _ => c.setPort p (x.setMb m { b with st := .pending })

/-- R245: a mailbox is parked after the error frame. A frame that waits behind it replaces the parked one. -/
def Chip.park (c : Chip) (p m : Nat) : Chip :=
  let x := c.port p
  let b := x.mb m
  match b.next with
  | f :: r =>
    let c1 := c.setPort p (x.setMb m { b.load f with next := r })
    if m = 3 then c1 else c1.dinc (canKey p 28)
  | [] => c.setPort p (x.setMb m { b with st := .parked })

/-- R244, R245: one late bit error on a mailbox, in an attempt of the frame that it still holds where `same`. -/
def Chip.clash (c : Chip) (p m : Nat) (same : Bool) : Chip :=
  let x := c.port p
  let b := x.mb m
  if b.clashCount = 15 then
    let c1 := c.setPort p (x.setMb m { b with clashCount := 16, clash := true })
    let c2 := if c.dbool (canKey p 11) && b.st == .pending && same then c1.park p m else c1
    (c2.dinc (canKey p 26)).log 0x0302 0x0061 p m b.ident
  else c.setPort p (x.setMb m { b with clashCount := Nat.min 16 (b.clashCount + 1) })

/-- R196, R197: the delay that an attempt with BRS has measured, and the count where it and TDCO pass 127. -/
def Chip.measured (c : Chip) (p : Nat) (b : Mailbox) (tdcv : Option Nat) : Chip :=
  let tdc := c.dget (canKey p 9)
  match tdcv with
  | some t =>
    if b.fdf && b.brs && bit tdc 31 then
      let c1 := c.dset (canKey p 9) (tdc - bits tdc 14 8 * 256 + Nat.min 127 t * 256)
      if 127 < t + bits tdc 6 0 then c1.dinc (canKey p 29) else c1
    else c
  | none => c

/-- R205: an attempt has succeeded; a frame that waits behind it follows. -/
def Chip.sent (c : Chip) (p m : Nat) : Chip :=
  let x := c.port p
  let b := x.mb m
  let b1 := { b with st := .transmitted, cancelLate := b.cancelOut, cancelOut := false }
  let b2 := match b.next with
    | f :: r => { b1.load f with next := r }
    | [] => b1
  let c1 := c.setPort p { x.setMb m b2 with attempt := none }
  let c2 := (c1.dinc (canKey p 20)).dset (canKey p 14) (c1.dget (canKey p 14) - 1)
  let c3 := c2.busStateUpdate p
  match x.channelOf m with
  | some k => c3.dinc (ent (0x7000 + k) 8)
  | none => c3

/-- R240: a port that is error-passive has transmitted. -/
def Chip.transmitted (c : Chip) (p : Nat) : Chip :=
  if c.dget (canKey p 13) = 2 then c.setPort p { c.port p with suspendAt := some c.now } else c

/-- R202, R205, R239, R244, R246: the attempt in progress ends. Of the errors that ISO 11898-1 counts, each adds 8 to TEC, and
so does each further run of dominant bits after the error flag. An ACK error of an error-passive port counts only where a
dominant bit stood in its flag, and a stuff error of arbitration not at all. -/
def Chip.attemptEnd (c : Chip) (p : Nat) (r : AttemptResult) (tdcv : Option Nat) (dominant : Nat) : Chip :=
  match (c.port p).attempt with
  | none => c
  | some m =>
    let b := (c.port p).mb m
    let c0 := c.measured p b tdcv
    let same := ((c.port p).channelOf m).isNone || b.next.isEmpty
    let error := (c0.attemptFails p m).dinc (canKey p 22)
    let rises := fun (c : Chip) (own : Nat) => (c.tecRises p (own + 8 * dominant)).transmitted p
    match r with
    | .success => (c0.sent p m).transmitted p
    | .lost => c0.attemptFails p m
    | .bitError => (rises error 8).clash p m same
    | .ackError seen => rises (error.dinc (canKey p 23)) (if c.dget (canKey p 13) = 2 && !seen then 0 else 8)
    | .arbitrationStuff => rises error 0
    | .otherError => rises error 8

/-- R230: the open transfer of a port ends without commit and its replay cache is emptied. -/
def CanPort.forget (x : CanPort) : CanPort :=
  { x with transfer := none, lastReq := none, lastRsp := none, lastTag := none }

/-- The port leaves the bus in the middle of an attempt, if there is one. -/
def Chip.attemptStops (c : Chip) (p : Nat) : Chip :=
  match (c.port p).attempt with
  | some m => c.attemptFails p m
  | none => c

/-- R236: a service's frame that waits behind one whose attempts have ended with bus-off replaces it. -/
def Chip.serviceRestarts (c : Chip) (p m : Nat) : Chip :=
  let x := c.port p
  let b := x.mb m
  match b.next with
  | f :: _ => (c.setPort p (x.setMb m { b.load f with next := [] })).dinc (canKey p 28)
  | [] => c.setPort p (x.setMb m { b with tried := false })

/-- Recovery from bus-off starts (R242). -/
def CanPort.recover (x : CanPort) (now : Nat) : CanPort := { x with recovering := true, recoverAt := now, recovery := 0 }

/-- R241: the port goes bus-off. -/
def Chip.goBusOff (c : Chip) (p : Nat) : Chip :=
  let c0 := ((c.attemptStops p).serviceRestarts p 0).serviceRestarts p 4
  let x := { (c0.port p).forget with suspendAt := none, recovering := false, recovery := 0 }
  let c1 := c0.setPort p (if c.dbool (canKey p 10) then x.recover c.now else x)
  (((c1.dset (canKey p 13) 3).dset (canKey p 14) 256).dinc (canKey p 24)).log 0x0301 0x0061 p 0 0

/-- R242: `count` more sequences of 11 recessive bits, of which each takes 11 bit times. -/
def Chip.recessive (c : Chip) (p count : Nat) : Chip :=
  let x := c.port p
  let most := (c.now - x.recoverAt) / Nat.max 1 (c.elevenBits p)
  c.setPort p { x with recovery := Nat.max x.recovery (Nat.min 128 (Nat.min (x.recovery + count) most)) }

/-- R243: the port leaves bus-off. -/
def Chip.leaveBusOff (c : Chip) (p : Nat) : Chip :=
  let x := c.port p
  let x1 := { x with recovering := false, recovery := 0, suspendAt := none,
                     mailboxes := x.mailboxes.map (fun (q : Nat × Mailbox) => (q.1, { q.2 with clashCount := 0 })) }
  (((c.setPort p x1).dset (canKey p 13) 1).dset (canKey p 14) 0).dset (canKey p 15) 0

/-- R239: REC after a frame received without error (ISO 11898-1: one less, or a value from 119 to 127 when it
stood above 127, which the standard leaves open: a free value, log entry 7). -/
def Chip.recGood (c : Chip) (p : Nat) : Chip :=
  let r := c.dget (canKey p 15)
  if 127 < r then
    let f := c.fresh .errorCount
    (f.1.dset (canKey p 15) (119 + f.2 % 9)).busStateUpdate p
  else (c.dset (canKey p 15) (r - 1)).busStateUpdate p

/-- BUS_OFF_RECOVERY_END (R242, R243): recovery goes on, and ends with the 128th sequence. -/
def Chip.recoveryRuns (c : Chip) (p count : Nat) : Chip :=
  if c.dget (canKey p 13) == 3 && (c.port p).recovering then
    let c1 := c.recessive p count
    if 128 ≤ (c1.port p).recovery then c1.leaveBusOff p else c1
  else c

/-! ### Reception -/

/-- R206: a frame matches filter f. -/
def CanPort.matchesFilter (x : CanPort) (fr : CanFrame) (f : Nat) : Bool :=
  let id := tabGet 0 x.filterId f
  let mask := tabGet 0 x.filterMask f
  bit id 30 && (bit id 31 == fr.ide) && (((fr.ident ^^^ bits id 28 0) &&& bits mask 28 0) == 0)

/-- R206, R208, R209: a frame of another node enters the receive FIFO if a filter matches. -/
def Chip.toFifo (c : Chip) (p : Nat) (fr : CanFrame) : Chip :=
  let x := c.port p
  match (List.range 64).find? (x.matchesFilter fr) with
  | none => c
  | some f =>
    if 64 ≤ x.fifo.length then c.dinc (canKey p 25)
    else c.setPort p { x with fifo := x.fifo ++ [⟨fr, c.posNat, f⟩] }

/-- Whether a frame stands on the engine's own request identifier (R207, R211). -/
def Chip.isRequest (c : Chip) (p : Nat) (fr : CanFrame) : Bool := (fr.ide, fr.ident) == c.canId p 0x540

/-- Whether a frame is an epoch marker (Table 5.7). -/
def Chip.isMarker (c : Chip) (p : Nat) (fr : CanFrame) : Bool :=
  if c.dbool (canKey p 4) then fr.ide && fr.ident / 0x40 == 0x2800000 / 0x40 else !fr.ide && fr.ident == 0x0A0

/-- R237: a received marker is recorded. -/
def Chip.captureMarker (c : Chip) (p : Nat) (fr : CanFrame) : Chip :=
  ((c.dset (canKey p 30) (leNat (padTo 8 fr.data))).dset (canKey p 31) c.posNat).dset (canKey p 32)
    (if fr.ide then fr.ident % 64 else 0)

end Sys2Proof.Machine
end

