-- ==== Sys2Proof/Machine/Flash.lean ====
section
/-! DEFINITION. The calibration slots of the boot flash as bytes (Table 17.8, R827, R830 to R834). -/

namespace Sys2Proof.Machine

/-! ### Records -/

/-- A value padded with zeros to a multiple of 4. -/
def padWord (bs : List Byte) : List Byte := bs ++ List.replicate ((4 - bs.length % 4) % 4) 0

/-- A record: its 8-byte head and its value. The last two bytes of the head carry the instance (log entry 44). -/
def CalRecord.bytes (r : CalRecord) : List Byte :=
  leBytes 2 r.idx ++ leBytes 1 r.sub ++ leBytes 1 r.ty ++ leBytes 2 r.value.length ++ leBytes 2 r.inst ++ padWord r.value

/-- Whether a record stands at or before another in a slot: by index, subindex and instance. -/
def CalRecord.before (a b : CalRecord) : Bool :=
  decide (a.idx < b.idx ∨ (a.idx = b.idx ∧ (a.sub < b.sub ∨ (a.sub = b.sub ∧ a.inst ≤ b.inst))))

/-- The payload of a slot. -/
def calPayload (rs : List CalRecord) : List Byte := (sortBy CalRecord.before rs).flatMap CalRecord.bytes

/-- The records that a payload spells, at most `n` of them. -/
def recordsIn : Nat → List Byte → List CalRecord
  | 0, _ => []
  | n + 1, bs =>
    if bs.length < 8 then []
    else
      let len := fieldAt bs 4 2
      { idx := fieldAt bs 0 2, sub := fieldAt bs 2 1, ty := fieldAt bs 3 1, value := (bs.drop 8).take len, inst := fieldAt bs 6 2 } ::
        recordsIn n (bs.drop (8 + (len + 3) / 4 * 4))

/-! ### Slots -/

/-- COMMIT of Table 17.1. -/
def commitWord : Nat := 0xA5C35A3C

/-- A slot as the store programs it up to its payload, in place of COMMIT as yet 0xFFFF_FFFF (R832). -/
def CalStore.programmed (s : CalStore) : List Byte :=
  let payload := calPayload s.records
  let head := leBytes 4 0x4B43414C ++ leBytes 4 s.seq ++ leBytes 4 payload.length ++ leBytes 4 (crc32 payload) ++
    leBytes 2 0x0100 ++ leBytes 2 s.records.length ++ leBytes 4 s.erases
  head ++ leBytes 4 (crc32 head) ++ leBytes 4 0xFFFFFFFF ++ payload

/-- The slot with COMMIT written. -/
def CalStore.bytes (s : CalStore) : List Byte :=
  s.programmed.take 0x1C ++ leBytes 4 commitWord ++ s.programmed.drop 0x20

/-- R827: what a slot's bytes say; bytes past the list are erased. -/
def readSlot (bs : List Byte) : CalSlot :=
  if bs.all (fun b => b == 0xFF) then {}
  else
    let header := decide (0x1C ≤ bs.length) && fieldAt bs 0x18 4 == crc32 (bs.take 0x18)
    let len := fieldAt bs 8 4
    let payload := (bs.drop 0x20).take len
    let valid := header && fieldAt bs 0 4 == 0x4B43414C && fieldAt bs 0x10 2 == 0x0100 && decide (len ≤ 262112) &&
      payload.length == len && fieldAt bs 0x0C 4 == crc32 payload && fieldAt bs 0x1C 4 == commitWord
    { erased := false, header, valid, seq := fieldAt bs 4 4, erases := fieldAt bs 0x14 4
      records := recordsIn (fieldAt bs 0x12 2) payload }

/-- A slot's bytes: 0 A, 1 B. -/
def Flash.slotBytes (f : Flash) (k : Nat) : List Byte := if k = 0 then f.slotA else f.slotB

/-- A slot. -/
def Flash.slot (f : Flash) (k : Nat) : CalSlot := readSlot (f.slotBytes k)

/-- A slot with other bytes; a good header among them is one that has been read (R834). -/
def Flash.setSlot (f : Flash) (k : Nat) (bs : List Byte) : Flash :=
  let read := fun (old : Option Nat) => if (readSlot bs).header then some (readSlot bs).erases else old
  if k = 0 then { f with slotA := bs, erasesA := read f.erasesA } else { f with slotB := bs, erasesB := read f.erasesB }

/-- R834: ERASES of a slot's last good header that the engine has read. -/
def Flash.erases (f : Flash) (k : Nat) : Option Nat := if k = 0 then f.erasesA else f.erasesB

/-- The headers that boot reads. -/
def Flash.readHeaders (f : Flash) : Flash :=
  (({ f with erasesA := none, erasesB := none }).setSlot 0 f.slotA).setSlot 1 f.slotB

/-- R834: the erase count of a store's target. -/
def Flash.nextErases (f : Flash) (t : Nat) : Nat := (((f.erases t).or (f.erases (1 - t))).getD 0) + 1

/-- The state of a calibration slot (Table 17.11); a store's target is INCOMPLETE until COMMIT. -/
def Flash.slotState (f : Flash) (k : Nat) : Nat :=
  let s := f.slot k
  if f.storing.any (fun x => x.target == k) then 2 else if s.erased then 0 else if s.valid then 1 else 2

/-- R828: the slot that boot makes active: 0 A, 1 B. -/
def Flash.chooseSlot (f : Flash) : Option Nat :=
  let a := f.slot 0
  let b := f.slot 1
  match a.valid, b.valid with
  | true, true => if laterMod m32 b.seq a.seq then some 1 else some 0
  | true, false => some 0
  | false, true => some 1
  | false, false => none

/-- R829: a slot that is neither VALID nor EMPTY. -/
def CalSlot.incomplete (s : CalSlot) : Bool := !s.valid && !s.erased

/-- What a store that stops before COMMIT leaves in its target (R832): the old bytes erased in part, or the slot erased and
programmed in part. How far it has come is open, two values of the model decide it (log entry 7). -/
def Flash.stoppedStore (f : Flash) (s : CalStore) (v w : Nat) : Flash :=
  let old := f.slotBytes s.target
  let bs := if v % 2 = 0 then List.replicate (w % (old.length + 1)) 0xFF ++ old.drop (w % (old.length + 1))
    else s.programmed.take (w % (s.programmed.length + 1))
  { f.setSlot s.target bs with storing := none }

end Sys2Proof.Machine
end

