-- ==== Sys2Proof/Machine/Retire.lean ====
section
/-! DEFINITION. What a retirement records (R773 to R777, R881). What it does to the unit's block stands with the
blocks, and ERROR_DETECTED puts the two together. -/

namespace Sys2Proof.Machine

/-- Table 16.13: BLOCK and INSTANCE of a unit's retirement event. -/
def unitCode : UnitName → Nat × Nat
  | .core k => (0xFF01, k)
  | .array k => (0x0030, k)
  | .lane k => (0x0031, k)
  | .storeBank k => (0x0032, k)
  | .tier1Bank k => (0x0040, k)
  | .tier2Frame k => (0xFF05, k)
  | .lineBank k => (0xFF02, k)
  | .camera k => (0x0010, k)
  | .inertial k => (0x0011, k)
  | .groupBank k => (0xFF03, k)
  | .spiMaster k => (0xFF04, k)
  | .encoder k => (0x0012, k)
  | .canPort k => (0x0061, k)
  | .usb => (0x0062, 0)
  | .pcie => (0xFF06, 0)
  | .stringLane p l => (0xFF07, 4 * p + l)
  | .string p => (0x0050, p)
  | .meshRouter => (0x0051, 0)
  | .breeze => (0x0060, 0)
  | .sensor k => (0x0070, k)
  | .essential _ => (0, 0xFFFF)

/-- R774, R776, R777: a unit joins the retired ones, RETIREMENTS rises and the event is written; a unit already retired
reports nothing. -/
def Chip.noteRetired (c : Chip) (u : UnitName) (check detail2 : Nat) : Chip :=
  if c.isRetired u then c
  else
    let c1 := { c with faults := { c.faults with retired := c.faults.retired ++ [u] } }
    (c1.dsat (ent 0x5800 5) 0xFFFFFFFF).log 0x0101 (unitCode u).1 (unitCode u).2 check detail2

end Sys2Proof.Machine
end

