-- ==== Sys2Proof/Machine/Flits.lean ====
section
/-! DEFINITION. Blocks and flits of a string: scrambler, CRC, bodies, the flits of a packet and the packet of flits, lock
of a lane (R640 to R644, R665, Tables 13.3, 13.6, 13.8, 13.10). -/

namespace Sys2Proof.Machine

/-! ### The scrambler (R641) -/

/-- At most 39 bits through the scrambler: bit k of the result is bit k of the data, with the bits sent 39 and 58 bits before it.
The history holds the 58 bits sent last, the newest on top. -/
def scrambleChunk (n h d : Nat) : Nat × Nat :=
  let s := ((d ^^^ (h / 2 ^ 19)) ^^^ h) % 2 ^ n
  (s, (h + s * 2 ^ 58) / 2 ^ n)

/-- A body through the scrambler: what the lane sends, and its history after it. -/
def scramble (h : BitVec 58) (body : BitVec 256) : BitVec 256 × BitVec 58 :=
  let r := (List.range 7).foldl (fun (acc : Nat × Nat) k =>
    let x := scrambleChunk (if k < 6 then 39 else 22) acc.2 (body.toNat / 2 ^ (39 * k))
    (acc.1 + x.1 * 2 ^ (39 * k), x.2)) (0, h.toNat)
  (BitVec.ofNat 256 r.1, BitVec.ofNat 58 r.2)

/-- A body through the descrambler, whose history is the 58 bits received last. -/
def descramble (h : BitVec 58) (sent : BitVec 256) : BitVec 256 × BitVec 58 :=
  let line := sent ++ h
  (((line >>> 58) ^^^ (line >>> 19) ^^^ line).setWidth 256, (line >>> 256).setWidth 58)

/-! ### The CRC and the bodies (R642, Tables 13.3, 13.8) -/

/-- One bit of the CRC register. -/
def crc24Bit (c : Nat) : Nat := if bit c 23 then (c * 2 % 2 ^ 24) ^^^ 0x864CFB else c * 2

/-- One byte, most significant bit first. -/
def crc24Byte (c : Nat) (b : Byte) : Nat := (List.range 8).foldl (fun c _ => crc24Bit c) (c ^^^ (b.toNat * 65536))

/-- R642. -/
def crc24 (bs : List Byte) : Nat := bs.foldl crc24Byte 0xB704CE

/-- What the CRC of a data flit covers before its body: SEQ, most significant byte first. -/
def seqBytes (seq : Nat) : List Byte := (leBytes 4 seq).reverse

/-- The 32 bytes of a body: 28 bytes, POS or CODE, and the CRC; `before` is what the CRC covers before them. -/
def flitBody (before : List Byte) (fields : List Byte) (code : Nat) : List Byte :=
  let b := padTo 28 fields ++ leBytes 1 code
  b ++ leBytes 3 (crc24 (before ++ b))

/-- The CRC of a body is right. -/
def goodBody (before body : List Byte) : Bool := fieldAt body 29 3 == crc24 (before ++ body.take 29)

/-- The bytes of a control flit's fields (Table 13.8): credits are U16, SEQs U32. -/
def controlFields (code : Nat) (fields : List Nat) : List Byte := fields.flatMap (leBytes (if code = 5 then 2 else 4))

/-- The bits of a body: byte k holds bits 8k + 7 to 8k. -/
def bodyBits (bytes : List Byte) : BitVec 256 := BitVec.ofNat 256 (leNat bytes)
def bodyBytes (body : BitVec 256) : List Byte := leBytes 32 body.toNat

/-- The headers of R640. -/
def dataHeader : BitVec 2 := 1
def controlHeader : BitVec 2 := 2

/-- What a received block is, with the 32 bytes of its body. -/
inductive LinkFlit where
  | data (body : List Byte)
  | control (body : List Byte)
  | invalid
  deriving DecidableEq, Repr

/-- A block through the descrambler of its lane. -/
def openBlock (b : LaneBlock) (h : BitVec 58) : LinkFlit :=
  let body := bodyBytes (descramble h b.body).1
  if b.header = dataHeader then .data body else if b.header = controlHeader then .control body else .invalid

/-! ### Lock of a lane (R643, R644) -/

/-- A header of R640 is valid. -/
def validHeader (h : BitVec 2) : Bool := h == dataHeader || h == controlHeader

/-- The search of a lane: its bit offset in a block, and the valid headers in a row there. The second value: it has locked, with
the 64th. -/
def searchLock (s : Nat × Nat) : List (BitVec 2) → (Nat × Nat) × Bool
  | [] => (s, false)
  | h :: r =>
    if validHeader h then (if 64 ≤ s.2 + 1 then ((s.1, 64), true) else searchLock (s.1, s.2 + 1) r)
    else searchLock ((s.1 + 1) % 258, 0) r

/-- Headers through the window of the last 64 of a lane, newest first. The second value: at some header 16 of them were invalid. -/
def watchLock (w : List Bool) (headers : List (BitVec 2)) : List Bool × Bool :=
  headers.foldl (fun (acc : List Bool × Bool) h =>
    let w1 := (validHeader h :: acc.1).take 64
    (w1, acc.2 || decide (16 ≤ w1.countP (!·)))) (w, decide (16 ≤ w.countP (!·)))

/-! ### TRAIN flits (Table 13.6) -/

/-- The announcement of a TRAIN flit's body. -/
def identOfTrain (body : List Byte) (laneOk : Bool) : Ident :=
  { addr := fieldAt body 4 2, port := fieldAt body 6 1, role := fieldAt body 7 1, rate := fieldAt body 3 1, healthy := fieldAt body 2 1,
    slice := fieldAt body 8 1, flags := fieldAt body 9 1, serial := fieldAt body 24 4, laneOk }

/-- The control flits among blocks received on lanes: lane and body. -/
def trainControls (flits : List LaneFlit) : List (Nat × List Byte) :=
  flits.filterMap (fun f => match openBlock f.block f.before with
    | .control body => some (f.lane, body)
    | _ => none)

/-- A control flit that is discarded: a reserved code or a bad CRC (Table 13.8). -/
def badControlBody (body : List Byte) : Bool := !goodBody [] body || decide (5 < fieldAt body 28 1)

/-- What the TRAIN flits of an IDENT announce: the first one's fields, and whether every one came on the lane that it names. -/
def trainIdent (flits : List LaneFlit) : Option Ident :=
  let ts := (trainControls flits).filter (fun q => !badControlBody q.2 && fieldAt q.2 28 1 == 1)
  ts.head?.map (fun q => identOfTrain q.2 (ts.all (fun t => fieldAt t.2 1 1 == t.1)))

/-! ### Packets and flits (R665, Table 13.10) -/

/-- R665: flits of a packet. -/
def flitsOf (k : Packet) : Nat := 1 + (k.payload.length - 8 + 27) / 28

/-- Bytes 0 to 15 of a packet's head payload. -/
def headBytes (k : Packet) : List Byte :=
  leBytes 2 k.dest ++ leBytes 2 k.src ++ leBytes 1 k.slice ++ leBytes 1 k.class_ ++ leBytes 1 k.ptype ++ leBytes 1 k.hops ++
  leBytes 1 k.exit ++ leBytes 1 k.entry ++ leBytes 2 k.payload.length ++ leBytes 2 k.tag ++ leBytes 2 0

/-- POS of flit i of n: 0 BODY, 1 HEAD, 2 TAIL, 3 SINGLE. -/
def flitPos (i n : Nat) : Nat := (if i = 0 then 1 else 0) + (if i + 1 = n then 2 else 0)

/-- The flits of a packet: POS and 28 payload bytes each. -/
def packetFlits (k : Packet) : List (Nat × List Byte) :=
  let n := flitsOf k
  (List.range n).map (fun i => (flitPos i n,
    padTo 28 (if i = 0 then headBytes k ++ leBytes 4 k.arg ++ k.payload.take 8 else (k.payload.drop (28 * i - 20)).take 28)))

/-- R665: the packet of a sequence of flits that came in by an input; none where they break the layout. -/
def packetOfFlits (input : Nat) (fs : List (Nat × List Byte)) : Option Packet :=
  let head := (fs.head?.map (·.2)).getD []
  let n := fieldAt head 10 2
  let bytes := head.drop 20 ++ (fs.drop 1).flatMap (·.2)
  let k : Packet :=
    { dest := fieldAt head 0 2, src := fieldAt head 2 2, slice := fieldAt head 4 1, class_ := fieldAt head 5 1, ptype := fieldAt head 6 1,
      hops := fieldAt head 7 1, exit := fieldAt head 8 1, entry := fieldAt head 9 1, tag := fieldAt head 12 2, arg := fieldAt head 16 4,
      payload := bytes.take n, input }
  if n ≤ 2048 && k.dest < 1024 && k.src < 1024 && k.class_ < 4 && fieldAt head 14 2 == 0 && fs.length == flitsOf k &&
      (fs.zipIdx).all (fun q => q.1.1 == flitPos q.2 fs.length) && (bytes.drop n).all (· == 0) then some k
  else none

end Sys2Proof.Machine
end

