-- ==== Sys2Proof/Machine/Mesh.lean ====
section
/-! DEFINITION. Packets: layout, admission, routing, outputs with credits, and the accesses that leave the engine in
packets (R660 to R676, R687, R688). -/

namespace Sys2Proof.Machine

/-- The key of entry :sub of string p (Table 13.14). -/
def strKey (p s : Nat) : Nat := ent (0x4800 + p) s

def Chip.str (c : Chip) (p : Nat) : StringPort := tabGet {} c.mesh.strings p
def Chip.setStr (c : Chip) (p : Nat) (x : StringPort) : Chip :=
  { c with mesh := { c.mesh with strings := tabSet c.mesh.strings p x } }
def Chip.tunnel (c : Chip) (v : Nat) : Tunnel := tabGet {} c.mesh.tunnels v
def Chip.setTunnel (c : Chip) (v : Nat) (x : Tunnel) : Chip :=
  { c with mesh := { c.mesh with tunnels := tabSet c.mesh.tunnels v x } }

/-- STATE and ROLE of string p. -/
def Chip.strState (c : Chip) (p : Nat) : Nat := c.dget (strKey p 4)
def Chip.role (c : Chip) (p : Nat) : Nat := c.dget (strKey p 1)

/-- R651: the engine's address, configured or learned. -/
def Chip.address (c : Chip) : Option Nat :=
  if c.straps.mode ≠ .mesh then none
  else if c.dget (ent 0x4810 1) = 1 then some (c.dget (ent 0x4810 2)) else c.mesh.learned

/-- This engine's SLICE. -/
def Chip.slice (c : Chip) : Nat := c.dget (ent 0x4810 4)

/-- R654: RT now, 5 cycles of RCLK_IN in 8 updates (R636). -/
def Chip.rt (c : Chip) : Nat := (c.mesh.rtBase + (c.now - c.mesh.rtAt) * 5 / 8) % 2 ^ 48

/-! ### Layout (R665, Tables 13.10, 13.11) -/

/-- The class of a packet type. -/
def typeClass (t : Nat) : Option Nat :=
  if 1 ≤ t ∧ t ≤ 4 then some 0
  else if 0x10 ≤ t ∧ t ≤ 0x14 then some 1
  else if 0x15 ≤ t ∧ t ≤ 0x17 then some 3
  else if 0x20 ≤ t ∧ t ≤ 0x23 then some 2
  else if 0x30 ≤ t ∧ t ≤ 0x32 then some 3
  else none

/-- Whether the payload's length fits the type. -/
def goodPayload (t n : Nat) : Bool :=
  match t with
  | 1 => n == 16
  | 2 | 3 | 0x10 => n == 0
  | 4 => n == 16
  | 0x11 => n == 64
  | 0x12 => n == 32
  | 0x13 => decide (4 ≤ n)
  | 0x14 | 0x16 | 0x31 => decide (4 ≤ n)
  | 0x15 | 0x30 => n == 12
  | 0x17 | 0x32 => decide (9 ≤ n)
  | 0x20 => decide (8 < n)
  | 0x21 => n % 16 == 0 && decide (16 ≤ n ∧ n ≤ 127 * 16)
  | 0x22 => decide (8 < n)
  | 0x23 => n % 32 == 0 && decide (32 ≤ n ∧ n ≤ 63 * 32)
  | _ => false

/-- R665: a packet that keeps the layout and its type's class. -/
def goodPacket (k : Packet) : Bool :=
  typeClass k.ptype == some k.class_ && goodPayload k.ptype k.payload.length && k.payload.length ≤ 2048 &&
  k.dest < 1024 && k.src < 1024

/-! ### Outputs (R660 to R666) -/

/-- Credits that the output of string p has for a class. -/
def StringPort.credits (x : StringPort) (k : Nat) : Nat :=
  128 - (x.used.getD k 0 + 0x10000 - x.freed.getD k 0 % 0x10000) % 0x10000

/-- R662, R664: a packet can start: credits for all of its flits and room in the retry buffer. -/
def StringPort.canStart (x : StringPort) (k : Packet) : Bool :=
  decide (flitsOf k ≤ x.credits k.class_) && decide (x.retry.length + flitsOf k ≤ 512)

/-- The requester number of a queued packet for the rotating pointer: input × class without SYSTEM (R666). -/
def requesterOf (k : Packet) : Nat := k.input * 3 + (k.class_ - 1)

/-- R666: the packet that an output takes next: the oldest SYSTEM packet, else by the rotating pointer. A packet that cannot start
holds its own requester only (DEDUCED, log entry 36). -/
def StringPort.pick (x : StringPort) : Option Packet :=
  let turn := (List.range 21).map (fun i => (x.pointer + i) % 21)
  let heads := (x.queue.find? (fun k => k.class_ == 0)).toList ++
    turn.filterMap (fun r => x.queue.find? (fun k => k.class_ != 0 && requesterOf k == r))
  heads.find? (fun k => x.canStart k)

/-! ### Routing (R668 to R676) -/

/-- R669: a port that carries packets to an engine, or to an edge device. -/
def Chip.usable (c : Chip) (p : Nat) : Bool :=
  c.strState p == 6 && c.role p == 1 && c.dget (strKey p 6) == 1 && !c.isRetired .meshRouter
def Chip.usableExit (c : Chip) (p : Nat) : Bool :=
  c.strState p == 6 && (c.role p == 2 || c.role p == 3) && c.dget (strKey p 6) == 1 && !c.isRetired .meshRouter

/-- Dimension order. -/
def dimensionPort (here dest : Nat) : Nat :=
  let x := here / 16
  let y := here / 4 % 4
  let z := here % 4
  if x < dest / 16 then 1 else if dest / 16 < x then 0
  else if y < dest / 4 % 4 then 3 else if dest / 4 % 4 < y then 2
  else if z < dest % 4 then 5 else 4

/-- R668: the port of a packet, and whether it is a detour; none: unroutable. -/
def Chip.routeOf (c : Chip) (here dest : Nat) : Option (Nat × Bool) :=
  let p := dimensionPort here dest
  let e := tabGet 0 c.mesh.detours dest
  let q := if bit e 7 && (bit e 6 || !c.usable p) then (e % 8, true) else (p, false)
  if c.usable q.1 then some q else none

/-- The keys of Table 13.16's counters. -/
def routeKey (s : Nat) : Nat := ent 0x4820 s

/-- The next flit of string p goes out (R638, R640, R641): on the lane of its number, scrambled. -/
def Chip.sendBlock (c : Chip) (p : Nat) (header : BitVec 2) (body : List Byte) : Chip :=
  let x := c.str p
  let lane := x.active.getD (x.txCount % x.active.length) 0
  let r := scramble (tabGet 0 x.txHist lane) (bodyBits body)
  c.setStr p { x with txCount := x.txCount + 1, txHist := tabSet x.txHist lane r.2, blocks := (lane, ⟨header, r.1⟩) :: x.blocks }

/-- A data flit goes out (Table 13.3). -/
def Chip.sendData (c : Chip) (p : Nat) (f : SentFlit) : Chip := c.sendBlock p dataHeader (flitBody (seqBytes f.seq) f.payload f.pos)

/-- A control flit goes out (Table 13.8). -/
def Chip.sendControl (c : Chip) (p code : Nat) (fields : List Nat) : Chip :=
  (c.setStr p { c.str p with control := some (code, fields) }).sendBlock p controlHeader (flitBody [] (controlFields code fields) code)

/-- CREDIT_SEND (R664). -/
def Chip.creditDue (c : Chip) (p : Nat) : Chip :=
  let x := c.str p
  if c.strState p ≠ 6 then c
  else (c.setStr p { x with reported := x.freedHere, reportedAt := c.now }).sendControl p 5 x.freedHere

/-- A packet starts on string p: its flits take SEQs and credits, and it counts as routed (R663, Table 13.16). -/
def Chip.startPacket (c : Chip) (p : Nat) (k : Packet) : Chip :=
  let x := c.str p
  let n := flitsOf k
  let flits := (packetFlits { k with hops := k.hops + 1 }).zipIdx.map (fun q =>
    ({ seq := (x.txSeq + q.2) % m32, at_ := c.now, tail := q.2 + 1 == n, pos := q.1.1, payload := q.1.2 } : SentFlit))
  let c0 := c.setStr p { x with
    queue := x.queue.erase k, txSeq := (x.txSeq + n) % m32, retry := x.retry ++ flits
    used := x.used.set k.class_ ((x.used.getD k.class_ 0 + n) % 0x10000)
    pointer := if k.class_ = 0 then x.pointer else (requesterOf k + 1) % 21 }
  let c1 := c0.each flits (fun c f => c.sendData p f)
  let c2 := (c1.dadd64 (strKey p 13) n).dinc (routeKey 6)
  let here := c.address.getD 0
  let detour := k.dest != here && ((c.routeOf here k.dest).map (·.2)).getD false
  let c3 := if detour then c2.dinc (routeKey 7) else c2
  { c3 with mesh := { c3.mesh with sent := (p, { k with hops := k.hops + 1 }) :: c3.mesh.sent } }

/-- Packets start on string p while one can. -/
def Chip.pump (c : Chip) (p : Nat) : Nat → Chip
  | 0 => c
  | n + 1 =>
    let x := c.str p
    if c.strState p ≠ 6 then c
    else match x.pick with
      | none => c
      | some k => if x.canStart k then (c.startPacket p k).pump p n else c

/-- Packets start on string p. -/
def Chip.drain (c : Chip) (p : Nat) : Chip := c.pump p ((c.str p).queue.length)

/-- R667: a packet takes its output, or its hops are spent. -/
def Chip.output (c : Chip) (p : Nat) (k : Packet) : Chip :=
  if c.dget (routeKey 2) < k.hops + 1 then c.dinc (routeKey 10)
  else (c.setStr p { c.str p with queue := (c.str p).queue ++ [k] }).drain p

/-- R664: n flits of a class are freed in the buffer of string p; after every 16, CREDIT goes out. -/
def Chip.freeBuffer (c : Chip) (p cls n : Nat) : Chip :=
  let x := c.str p
  let count := (x.freedHere.getD cls 0 + n) % 0x10000
  let c1 := c.setStr p { x with freedHere := x.freedHere.set cls count }
  if 16 ≤ (count + 0x10000 - x.reported.getD cls 0 % 0x10000) % 0x10000 then c1.creditDue p else c1

/-- R660, R664: a packet has left the buffer of the input it came in by. -/
def Chip.freeFlits (c : Chip) (k : Packet) : Chip :=
  if k.input < 6 then
    (c.setStr k.input { c.str k.input with arrived := (c.str k.input).arrived.erase k }).freeBuffer k.input k.class_ (flitsOf k)
  else c

/-- What becomes of a packet at this engine. -/
inductive Fate where
  /-- it is for the engine itself -/
  | mine
  /-- it goes on, or is gone -/
  | gone
  /-- its own origin is this engine and no route exists: the same as a ROUTE_FAIL received (R670) -/
  | failed
  deriving DecidableEq, Repr

/-- A packet that this engine sends on: to its destination's port, or not at all. -/
def Chip.sendOn (c : Chip) (here : Nat) (k : Packet) : Chip × Bool :=
  match c.routeOf here k.dest with
  | some (p, _) => (c.output p k, true)
  | none => (c.dinc (routeKey 9), false)

/-- R670: the ROUTE_FAIL of an unroutable packet, itself never answered. The second value: the packet was this engine's
own. -/
def Chip.unroutable (c : Chip) (here : Nat) (k : Packet) : Chip × Fate :=
  if k.ptype = 4 then (c, .gone)
  else if k.src = here then (c, .failed)
  else
    let f : Packet :=
      { dest := k.src, src := here, slice := if k.slice = 0xFF then 0xFF else c.slice, class_ := 0, ptype := 4, hops := 0,
        exit := 0xFF, entry := 0xFF, tag := 0, arg := here, payload := headBytes k, input := 6 }
    ((c.sendOn here f).1, .gone)

/-- R668, R673 to R676: a packet at this engine, from a string or of its own making. -/
def Chip.route (c : Chip) (k0 : Packet) : Chip × Fate :=
  match c.address with
  | none => (c, .gone)
  | some here =>
    let edge := k0.input < 6 && (c.role k0.input == 2 || c.role k0.input == 3)
    let k := if edge then
        { k0 with src := here, entry := k0.input,
                  slice := if k0.slice = 0xFF ∧ c.dget (strKey k0.input 12) = 1 then 0xFF else c.dget (strKey k0.input 11) }
      else k0
    let c0 := c.freeFlits k0
    if !goodPacket k then (c0.dinc (routeKey 10), .gone)
    else if !(k.slice < 0x40 || k.slice == 0xFF) then (c0.dinc (routeKey 8), .gone)
    else if k.dest = here then
      if k.slice ≠ 0xFF ∧ k.slice ≠ c.slice then (c0.dinc (routeKey 8), .gone)
      else if k.exit = 0xFF then (c0, .mine)
      else if c.usableExit k.exit then (c0.output k.exit k, .gone)
      else (c0.dinc (routeKey 9)).unroutable here k
    else if k.slice ≠ 0xFF ∧ !bit (c.dget (routeKey 1)) k.slice ∧ k.input < 6 then (c0.dinc (routeKey 8), .gone)
    else match c0.sendOn here k with
      | (c1, true) => (c1, .gone)
      | (c1, false) => c1.unroutable here k

/-- The packet as it stands after R675. -/
def Chip.stamped (c : Chip) (k : Packet) : Packet :=
  if k.input < 6 ∧ (c.role k.input = 2 ∨ c.role k.input = 3) then
    { k with src := c.address.getD k.src, entry := k.input,
             slice := if k.slice = 0xFF ∧ c.dget (strKey k.input 12) = 1 then 0xFF else c.dget (strKey k.input 11) }
  else k

/-! ### Accesses that leave in packets (R595, R684 to R688) -/

/-- R314, R260: a host memory access of voice v has failed: DMA_ERRORS, STOPPED with its cause, and the interrupt. A voice in
the drain of its reset reads DRAINING (R306). -/
def Chip.hostFailure (c : Chip) (v cause : Nat) : Chip :=
  let c1 := c.dinc (ent (vIdx v 3) 6)
  let x := c1.voice v
  if x.state = .stopped ∨ x.resetDrain then c1
  else (c1.setVoice v { x with state := .stopped, stopCause := cause }).raise v 3

/-- A packet of voice v's traffic to its origin, or to a storage port. -/
def Chip.voicePacket (c : Chip) (v ptype cls arg : Nat) (payload : List Byte) (dest exit : Nat) : Packet :=
  { dest, src := c.address.getD 0, slice := if v = 0 then 0xFF else c.slice, class_ := cls, ptype, hops := 0, exit,
    entry := 0xFF, tag := v, arg, payload, input := 6 }

/-- R684: where tunnel voice v's host is. -/
def Chip.originOf (c : Chip) (v : Nat) : Nat × Nat := ((c.tunnel v).origin).getD (0, 0xFF)

/-- A packet to a tunnel voice's origin. A lost one that is no DMA is not a failure (R687). -/
def Chip.toOrigin (c : Chip) (v ptype cls arg : Nat) (payload : List Byte) : Chip × Fate :=
  let o := c.originOf v
  c.route (c.voicePacket v ptype cls arg payload o.1 o.2)

/-- Whether voice v reaches its host through a tunnel. -/
def Chip.onTunnel (c : Chip) (v : Nat) : Bool := (c.keep v).binding == 5

/-- Whether an access by voice v to a tier 3 address leaves in packets: rack storage, or a tunnel voice's host. -/
def Chip.remote (c : Chip) (v addr : Nat) : Bool := addr / 2 ^ 60 == 1 || c.onTunnel v

/-- The pieces of an access of at most `most` bytes each. -/
def piecesOf (addr len most : Nat) : List (Nat × Nat) :=
  (List.range ((len + most - 1) / most)).map (fun i => (addr + most * i, Nat.min most (len - most * i)))

/-- One packet of a tier 3 access: to the origin (R687) or to the storage port (R688). -/
def Chip.accessPacket (c : Chip) (v addr arg : Nat) (read : Bool) (payload : List Byte) : Chip × Fate :=
  if addr / 2 ^ 60 = 1 then
    let dest := addr / 2 ^ 50 % 1024
    let port := addr / 2 ^ 47 % 8
    c.route (c.voicePacket v (if read then 0x30 else 0x32) 3 arg payload dest port)
  else c.toOrigin v (if read then 0x15 else 0x17) 3 arg payload

/-- R687, R688: the bytes of a tier 3 range can be read now. A remote range is asked for once, and is there when every
piece has been answered. -/
def Chip.hostReady (c : Chip) (v addr len : Nat) : Chip × Bool :=
  if !c.remote v addr then (c, true)
  else
    let ps := piecesOf addr len 2048
    let have_ := fun (q : Nat × Nat) => c.mesh.answered.contains (v, q.1, q.2)
    if ps.all have_ then
      ({ c with mesh := { c.mesh with answered := c.mesh.answered.filter (fun a => !ps.any (fun q => a == (v, q.1, q.2))) } }, true)
    else
      let asked := fun (q : Nat × Nat) => c.mesh.dma.any (fun d => d.voice == v && d.addr == q.1 && d.len == q.2)
      (ps.foldl (fun (c : Chip) q =>
        if have_ q || asked q then c
        else
          let id := c.mesh.nextDma
          let c1 := { c with mesh := { c.mesh with nextDma := (id + 1) % m32 } }
          match c1.accessPacket v q.1 id true (leBytes 8 q.1 ++ leBytes 4 q.2) with
          | (c2, .failed) => c2.hostFailure v 3
          | (c2, _) => { c2 with mesh := { c2.mesh with dma := c2.mesh.dma ++ [⟨v, id, q.1, q.2, c.now⟩] } }) c, false)

/-- R687, R688: the packets of bytes written to a tier 3 range; the bytes themselves are in the model's tier 3. -/
def Chip.hostWritten (c : Chip) (v addr len : Nat) : Chip :=
  if !c.remote v addr then c
  else (piecesOf addr len 2040).foldl (fun (c : Chip) q =>
    match c.accessPacket v q.1 0 false (leBytes 8 q.1 ++ c.hostMem.readBytes q.1 q.2) with
    | (c1, .failed) => c1.hostFailure v 3
    | (c1, _) => c1) c

/-- A DMA_DATA or STORE_DATA answer (R687, R688): the bytes arrive, or the access fails. An answer to no request is
discarded. -/
def Chip.answer (c : Chip) (v id status : Nat) (data : List Byte) : Chip :=
  match c.mesh.dma.find? (fun d => d.voice == v && d.id == id) with
  | none => c
  | some d =>
    let c1 := { c with mesh := { c.mesh with dma := c.mesh.dma.erase d } }
    if status ≠ 0 then c1.hostFailure v 3
    else { c1 with hostMem := c1.hostMem.writeBytes d.addr (data.take d.len)
                   mesh := { c1.mesh with answered := c1.mesh.answered ++ [(v, d.addr, d.len)] } }

/-- R687: no answer within 1 ms (250,000 updates). -/
def Chip.dmaTimedOut (c : Chip) (v id : Nat) : Chip :=
  match c.mesh.dma.find? (fun d => d.voice == v && d.id == id) with
  | none => c
  | some d =>
    if c.now < d.at_ + 250000 then c
    else ({ c with mesh := { c.mesh with dma := c.mesh.dma.erase d } }).hostFailure v 3

/-- A DMA or storage packet of an engine's own (R687, R688), by its TYPE. -/
def isDmaType (t : Nat) : Bool := t == 0x15 || t == 0x17 || t == 0x30 || t == 0x32

/-- R682, R687, R688: a packet that this engine sent is lost without a route: a host memory failure of its voice, the end
of the oldest LULL whose arrival went there, and of a read the oldest outstanding one. -/
def Chip.packetLost (c : Chip) (ptype dest tag : Nat) : Chip :=
  if isDmaType ptype then
    let c1 := if ptype = 0x15 ∨ ptype = 0x30 then
        (match c.mesh.dma.find? (fun d => d.voice == tag) with
        | some d => { c with mesh := { c.mesh with dma := c.mesh.dma.erase d } }
        | none => c)
      else c
    c1.hostFailure tag 3
  else if ptype = 2 then
    match c.mesh.waits.find? (fun w => w.leader == dest) with
    | some w => ({ c with mesh := { c.mesh with waits := c.mesh.waits.erase w } }).post w.voice { w.cpl with status := 0x0A070001 }
    | none => c
  else c

/-- R671, R669: the packets that wait for string p and have not started are routed again. -/
def Chip.reroute (c : Chip) (p : Nat) : Chip :=
  let here := c.address.getD 0
  let waiting := (c.str p).queue
  waiting.foldl (fun (c : Chip) k =>
    let r := if k.dest = here then
        (if c.usableExit p then (c.output p k, Fate.gone) else (c.dinc (routeKey 9)).unroutable here k)
      else match c.sendOn here k with
        | (c1, true) => (c1, Fate.gone)
        | (c1, false) => c1.unroutable here k
    match r with
    | (c1, .failed) => c1.packetLost k.ptype k.dest k.tag
    | (c1, _) => c1) (c.setStr p { c.str p with queue := [] })

/-- R671: a detour entry has changed. -/
def Chip.rerouteAll (c : Chip) : Chip := c.each (List.range 6) Chip.reroute

end Sys2Proof.Machine
end

