-- ==== Sys2Proof/Machine/Strings.lean ====
section
/-! DEFINITION. Strings: lanes, training, the plan check, the rack tick, and link retry (R634 to R664). -/

namespace Sys2Proof.Machine

/-! ### Lanes and states -/

/-- The lanes of string p that are healthy at this end. -/
def Chip.healthy (c : Chip) (p : Nat) : List Nat := (List.range 4).filter (fun l => !c.isRetired (.stringLane p l))

/-- The lanes healthy at both ends (R637, R650). -/
def Chip.bothHealthy (c : Chip) (p : Nat) : List Nat :=
  (c.healthy p).filter (fun l => match (c.str p).far with
    | some f => bit f.healthy l
    | none => true)

/-- R637: the width that n lanes give. -/
def widthOf (n : Nat) : Nat := if 4 ≤ n then 4 else if 2 ≤ n then 2 else n

/-- The string enters a state; a string that leaves UP gives its waiting packets back to the router (R671). -/
def Chip.setStrState (c : Chip) (p st : Nat) : Chip :=
  let was := c.strState p
  let c1 := (c.dset (strKey p 4) st).setStr p { c.str p with since := c.now }
  let c2 := c1.dset (strKey p 5) (if st = 6 then (c1.str p).active.length else 0)
  if was = 6 ∧ st ≠ 6 then c2.reroute p else c2

/-- The lanes of a list are retired with a check number of Table 16.2's order (R646, R647, R649). -/
def Chip.retireLanes (c : Chip) (p : Nat) (lanes : List Nat) (check : Nat) : Chip :=
  c.each lanes (fun c l => c.noteRetired (.stringLane p l) check 0)

/-- Table 13.5: the string enters LOCKING, or RETIRED when no lane is healthy. -/
def Chip.enterLocking (c : Chip) (p : Nat) : Chip :=
  if (c.healthy p).isEmpty then c.setStrState p 9
  else
    let c1 := (c.setStrState p 2).dinc (strKey p 18)
    c1.setStr p { c1.str p with locked := [], firstLock := none, search := [], windows := [] }

/-- The engine states in which strings train: CONFIG and those after it (Table 13.5). -/
def EngineState.trains (e : EngineState) : Bool :=
  match e with
  | .reset | .boot | .selftest => false
  | .config | .ready | .run | .hold | .faulted => true

/-- STRING_LOCKING: OFF or DOWN with a ROLE, RCLK_IN present (R645, R648). A string with a ROLE that finds RCLK_IN absent at
boot stays OFF as its STATE's default has it; Tables 13.4 and 17.2 would let it read DOWN (DESIGN CHOICE, log entry 36). -/
def Chip.stringLocks (c : Chip) (p : Nat) : Chip :=
  if c.straps.mode = .mesh ∧ p < 6 ∧ c.role p ≠ 0 ∧ c.board.rclkIn ∧ c.engine.trains ∧ c.strState p ≤ 1 ∧
      !c.isRetired (.string p) ∧ !c.isRetired .meshRouter then
    c.enterLocking p
  else c

/-- LANE_LOCK (R643, R645): headers tested on a healthy lane; when it locks and all have, the string goes to IDENT. -/
def Chip.laneLocks (c : Chip) (p lane : Nat) (headers : List (BitVec 2)) : Chip :=
  let x0 := c.str p
  let r := searchLock (tabGet (0, 0) x0.search lane) headers
  let x := { x0 with search := tabSet x0.search lane r.1 }
  if c.strState p ≠ 2 ∨ !(c.healthy p).contains lane ∨ x0.locked.contains lane then c
  else if !r.2 then c.setStr p x
  else
    let x1 := { x with locked := x.locked ++ [lane], firstLock := some (x.firstLock.getD c.now) }
    let c1 := c.setStr p x1
    if (c.healthy p).all (x1.locked.contains ·) then c1.setStrState p 3 else c1

/-- LOCKING_TIMEOUT (R646): 10 ms (2,500,000 updates) after the first lock. -/
def Chip.lockTimeout (c : Chip) (p : Nat) : Chip :=
  let x := c.str p
  match x.firstLock with
  | none => c
  | some t =>
    if c.strState p ≠ 2 ∨ c.now < t + 2500000 then c
    else (c.retireLanes p ((c.healthy p).filter (fun l => !x.locked.contains l)) 9).setStrState p 3

/-- The windows of lanes after headers received on them, and the lanes among those that have lost lock (R644). -/
def StringPort.watch (x : StringPort) (lanes : List LaneHeaders) : Tab (List Bool) × List Nat :=
  lanes.foldl (fun (acc : Tab (List Bool) × List Nat) l =>
    let r := watchLock (tabGet [] acc.1 l.lane) l.headers
    (tabSet acc.1 l.lane r.1, if r.2 then acc.2 ++ [l.lane] else acc.2)) (x.windows, [])

/-- LANE_LOCK_LOSS (R644): in UP by R647 and Table 13.5; in LOCKING a lane that has locked searches again. -/
def Chip.lanesLost (c0 : Chip) (p : Nat) (lanes : List LaneHeaders) : Chip :=
  let w := (c0.str p).watch lanes
  let c := c0.setStr p { c0.str p with windows := w.1 }
  let x := c.str p
  let lost := x.active.filter (w.2.contains ·)
  if c.strState p = 2 then
    c.setStr p { x with locked := x.locked.filter (fun l => !w.2.contains l), windows := w.1.filter (fun q => !w.2.contains q.1),
                        search := x.search.map (fun q => if w.2.contains q.1 then (q.1, (q.2.1, 0)) else q) }
  else if c.strState p ≠ 6 ∨ lost = [] then c
  else
    let c1 := c.dinc (strKey p 17)
    if x.active.all (w.2.contains ·) then c1.setStrState p 1
    else (c1.retireLanes p lost 9).enterLocking p

/-- NO_NEIGHBOUR (R652): a MESH string without a locked lane 100 ms after it entered LOCKING. -/
def Chip.noNeighbour (c : Chip) (p : Nat) : Chip :=
  let x := c.str p
  if c.strState p = 2 ∧ c.role p = 1 ∧ x.locked = [] ∧ x.since + 25000000 ≤ c.now then c.dset (strKey p 6) 2 else c

/-! ### Addresses and the plan (R651 to R653) -/

/-- The address one step from `a` in the direction of port q; none outside the mesh. -/
def stepAddress (a q : Nat) : Option Nat :=
  let x := a / 16 % 64
  let y := a / 4 % 4
  let z := a % 4
  match q with
  | 0 => if 0 < x then some (a - 16) else none
  | 1 => if x < 63 then some (a + 16) else none
  | 2 => if 0 < y then some (a - 4) else none
  | 3 => if y < 3 then some (a + 4) else none
  | 4 => if 0 < z then some (a - 1) else none
  | _ => if z < 3 then some (a + 1) else none

/-- p XOR 1. -/
def oppositePort (p : Nat) : Nat := if p % 2 = 0 then p + 1 else p - 1

/-- R651: the address that an announcement on port p implies. -/
def impliedBy (p : Nat) (f : Ident) : Option Nat :=
  if !bit f.addr 15 then none
  else if 0x10 ≤ f.port then some (f.addr % 1024) else stepAddress (f.addr % 1024) (oppositePort p)

/-- What IDENT records of the far end (Tables 13.6, 13.14). -/
def Chip.announced (c : Chip) (p : Nat) (f : Ident) : Chip :=
  let x := c.str p
  let c1 := c.setStr p { x with far := some f }
  let c2 := ((((c1.dset (strKey p 7) (f.addr % 0x10000)).dset (strKey p 8) (f.port % 256)).dset (strKey p 9)
    (f.serial % m32)).dset (strKey p 11) (f.slice % 256)).dset (strKey p 12) (b2n (bit f.flags 1))
  match impliedBy p f with
  | none => c2
  | some a => { c2 with mesh := { c2.mesh with implied := tabSet c2.mesh.implied p a
                                               announcedAt := some (c2.mesh.announcedAt.getD c2.now) } }

/-- Table 13.7 for string p; none: the check waits for an address. -/
def Chip.planStatus (c : Chip) (p : Nat) (f : Ident) : Option Nat :=
  match c.address with
  | none => none
  | some here =>
    let role := c.role p
    let edge := f.port == 0x10 || f.port == 0x11
    if !f.laneOk then some 6
    else if (role = 2 ∧ f.port ≠ 0x10) ∨ (role = 3 ∧ f.port ≠ 0x11) ∨ (role = 1 ∧ edge) then some 5
    else if role = 1 ∧ f.port ≠ oppositePort p then some 4
    else if role = 1 ∧ !bit f.addr 15 then none
    else if role = 1 ∧ impliedBy p f ≠ some here then some 3
    else some 1

/-- R653: a failed plan check's CABLE_PLAN event (Table 16.5) names the port, PLAN_STATUS, the neighbour's address that the engine
expects there (0xFFFF for an edge device), and the observed ADDRESS, PORT, ROLE and SERIAL (log entry 24). -/
def Chip.cablePlan (c : Chip) (p st : Nat) (f : Ident) : Chip :=
  let expected := if c.role p = 1 then ((c.address.bind (fun a => stepAddress a p)).getD 0xFFFF) else 0xFFFF
  c.log 0x0303 0x0050 p (p + 256 * st + 0x10000 * expected)
    (f.addr % 0x10000 + 0x10000 * (f.port % 256) + 0x1000000 * (f.role % 256) + m32 * (f.serial % m32))

/-- PLAN_CHECK: the announcement is recorded and, once the engine has an address, checked. -/
def Chip.planCheck (c : Chip) (p : Nat) (f : Ident) : Chip :=
  if c.strState p ≠ 3 then c
  else
    let c1 := c.announced p f
    match c1.planStatus p f with
    | none => c1
    | some 1 => (c1.dset (strKey p 6) 1).setStrState p 4
    | some st =>
      ((c1.dset (strKey p 6) st).setStrState p 7).cablePlan p st f

/-- PLAN_CHECK: TRAIN flits as the lanes receive them; a bad control flit is counted (Table 13.8). -/
def Chip.trained (c : Chip) (p : Nat) (flits : List LaneFlit) : Chip :=
  if c.strState p ≠ 3 then c
  else
    let c1 := c.dadd (strKey p 15) ((trainControls flits).countP (fun q => badControlBody q.2))
    match trainIdent flits with
    | some f => c1.planCheck p f
    | none => c1

/-- MISWIRED_RETRY: one second has passed. -/
def Chip.miswiredRetry (c : Chip) (p : Nat) : Chip :=
  if c.strState p = 7 ∧ (c.str p).since + 250000000 ≤ c.now then c.setStrState p 3 else c

/-- ADDRESS_LEARN (R651): 1 ms (250,000 updates) after the first announcement the address implied by the most ports,
among equals by the lowest-numbered one. -/
def Chip.learnAddress (c : Chip) : Chip :=
  let m := c.mesh
  match m.announcedAt with
  | none => c
  | some t =>
    if c.straps.mode ≠ .mesh ∨ c.dget (ent 0x4810 1) ≠ 0 ∨ m.learned.isSome ∨ c.now < t + 250000 then c
    else
      let votes := fun (a : Nat) => m.implied.countP (fun (q : Nat × Nat) => q.2 == a)
      match m.implied.map (·.2) with
      | [] => c
      | a :: r => { c with mesh := { m with learned := some (r.foldl (fun best b => if votes best < votes b then b else best) a) } }

/-! ### RATE, TEST and UP (R649, R637, R663) -/

/-- RATE_SWITCH: the lanes have relocked, or 10 ms have passed and the others are retired. -/
def Chip.rateSwitch (c : Chip) (p : Nat) (relocked : List Nat) : Chip :=
  let x := c.str p
  let missing := (c.bothHealthy p).filter (fun l => !relocked.contains l)
  if c.strState p ≠ 4 ∨ (missing ≠ [] ∧ c.now < x.since + 2500000) then c
  else
    let c1 := (c.retireLanes p missing 9).setStrState p 5
    if (c1.healthy p).isEmpty then c1.setStrState p 9 else c1

/-- R663: both SEQs and the credits restart, and the packets that the retry buffer holds are lost. -/
def Chip.restartSeq (c : Chip) (p : Nat) : Chip :=
  let x := c.str p
  let lost := x.retry.countP (·.tail)
  (c.dadd (strKey p 19) lost).setStr p
    { x with txSeq := 0, retry := [], replayed := none, rxSeq := 0, discarding := false, dups := 0, toAck := 0, parts := [],
             used := [0, 0, 0, 0], freed := [0, 0, 0, 0], freedHere := [0, 0, 0, 0], reported := [0, 0, 0, 0] }

/-- R659: REPLAY s and the retry buffer from s again. Eight from one SEQ in a row retrain the string. -/
def Chip.replayFrom (c : Chip) (p s : Nat) : Chip :=
  let x := c.str p
  let again := fun (f : SentFlit) => !laterMod m32 s f.seq
  let count := match x.replayed with
    | some (s', n) => if s' = s then n + 1 else 1
    | none => 1
  let c1 := (c.setStr p { x with
    retry := x.retry.map (fun (f : SentFlit) => if again f then { f with at_ := c.now } else f)
    replayed := some (s, count) }).sendControl p 4 [s]
  let c2 := (c1.each ((c1.str p).retry.filter again) (fun c f => c.sendData p f)).dadd64 (strKey p 13) (x.retry.countP again)
  if 8 ≤ count then (c2.setStr p { c2.str p with replayed := none }).enterLocking p else c2

/-- LANE_TEST_COMPLETE: lanes with a CRC error are retired, and the string enters UP, NARROW or RETIRED. -/
def Chip.testComplete (c : Chip) (p : Nat) (passed : List LaneTail) : Chip :=
  if c.strState p ≠ 5 then c
  else
    let c1 := c.retireLanes p ((c.bothHealthy p).filter (fun l => !(passed.map (·.lane)).contains l)) 10
    let ok := c1.bothHealthy p
    let w := widthOf ok.length
    let c2 := c1.setStr p { c1.str p with active := ok.take w, txCount := 0, rxCount := 0, windows := [],
                                          rxHist := passed.foldl (fun t l => tabSet t l.lane l.last) [] }
    if (c1.healthy p).isEmpty then c2.setStrState p 9
    else if w < c.dget (strKey p 3) then c2.setStrState p 8
    else
      let c3 := c2.setStrState p 6
      let x := c3.str p
      let now_ := x.far.map (·.serial)
      let c4 := if x.serial = now_ ∧ x.serial.isSome then
          (match x.retry with
          | f :: _ => c3.replayFrom p f.seq
          | [] => c3)
        else c3.restartSeq p
      (c4.setStr p { c4.str p with serial := now_ }).drain p

/-- R639: REQUIRED_WIDTH has changed. -/
def Chip.widthRequired (c : Chip) (p : Nat) : Chip :=
  let need := c.dget (strKey p 3)
  let have_ := (c.str p).active.length
  if c.strState p = 6 ∧ have_ < need then c.setStrState p 8
  else if c.strState p = 8 ∧ need ≤ have_ then c.enterLocking p
  else c

/-! ### RCLK_IN and the rack tick (R648, R654 to R656) -/

/-- R648: RCLK_IN is lost. -/
def Chip.rclkLost (c : Chip) : Chip :=
  let c1 := { c with board := { c.board with rclkIn := false } }
  if c.straps.mode ≠ .mesh then c1
  else
    let c2 := c1.each (List.range 6) (fun (c : Chip) p => if c.strState p = 0 then c else c.setStrState p 1)
    ((c2.dset (ent 0x4810 6) 0).dset (ent 0x4810 7) 0xFF)

/-- R648: RCLK_IN is back, and every string with a ROLE locks again. -/
def Chip.rclkBack (c : Chip) : Chip :=
  let c1 := { c with board := { c.board with rclkIn := true } }
  c1.each (List.range 6) Chip.stringLocks

/-- R655: a string whose far end may align RT. -/
def Chip.rtQualifies (c : Chip) (p : Nat) : Bool :=
  c.strState p == 6 && (match (c.str p).far with
    | none => false
    | some f => f.port == 0x10 ||
        (f.port < 6 && bit f.flags 0 && f.addr % 1024 / 128 == c.address.getD 0 / 128))

/-- R655: RTT, in the engine's own cycles. -/
def Chip.roundTrip (c : Chip) (echoRt turn elapsed : Nat) : Nat :=
  (c.rt + 3 * 2 ^ 48 - elapsed % 2 ^ 48 - echoRt % 2 ^ 48 - turn % 2 ^ 48) % 2 ^ 48

/-- RT_ALIGN: of a TRAIN flit of string p, RT_SENT, ECHO_RT and TURN, and the cycles elapsed since its arrival. -/
def Chip.rtAlign (c : Chip) (p rtSent echoRt turn elapsed : Nat) : Chip :=
  let roundTrip := c.roundTrip echoRt turn elapsed
  let implied := (rtSent + roundTrip / 2 + elapsed) % 2 ^ 48
  let c1 := c.dset (strKey p 10) (Nat.min roundTrip 0xFFFF)
  if !c.rtQualifies p then c
  else if c.dget (ent 0x4810 6) = 0 then
    ((({ c1 with mesh := { c1.mesh with rtBase := implied, rtAt := c1.now } }).dset (ent 0x4810 6) 1).dset (ent 0x4810 7) p)
  else
    let d := (implied + 2 ^ 48 - c.rt) % 2 ^ 48
    if p ≠ c.dget (ent 0x4810 7) ∧ 2 < d ∧ d < 2 ^ 48 - 2 then
      ({ c1 with mesh := { c1.mesh with conflict := true } }).log 0x0304 0x0050 p 0 0
    else c1

/-! ### Link retry and credits (R657 to R664) -/

/-- R660: ACK of everything accepted. -/
def Chip.sendAck (c : Chip) (p : Nat) : Chip :=
  let x := c.str p
  (c.setStr p { x with toAck := 0, ackedAt := c.now }).sendControl p 2 [(x.rxSeq + 0xFFFFFFFF) % m32]

/-- ACK_SEND: within a microsecond of an accepted flit. -/
def Chip.ackDue (c : Chip) (p : Nat) : Chip :=
  if c.strState p = 6 ∧ (c.str p).toAck ≠ 0 then c.sendAck p else c

/-- R665: an accepted data flit joins the packet that is arriving; with its last one the packet stands at its input, or it breaks
the layout, is discarded and counted in MISROUTED, and its buffer is free again. -/
def Chip.assemble (c : Chip) (p pos : Nat) (payload : List Byte) : Chip :=
  let x := c.str p
  let drop := fun (c : Chip) (fs : List (Nat × List Byte)) =>
    (c.dinc (routeKey 10)).freeBuffer p (fieldAt ((fs.head?.map (·.2)).getD []) 5 1 % 4) fs.length
  let starts := bit pos 0
  let c1 := if starts && !x.parts.isEmpty then drop c x.parts else c
  let fs := (if starts then [] else x.parts) ++ [(pos, payload)]
  if !bit pos 1 then c1.setStr p { c1.str p with parts := fs }
  else
    let c2 := c1.setStr p { c1.str p with parts := [] }
    match packetOfFlits p fs with
    | some k => c2.setStr p { c2.str p with arrived := (c2.str p).arrived ++ [k] }
    | none => drop c2 fs

/-- A data flit (R658, R659): accepted, dropped as a duplicate or while discarding, or answered by NACK. `body` is none where the
header is invalid. -/
def Chip.dataFlit (c : Chip) (p : Nat) (body : Option (List Byte)) : Chip :=
  let x := c.str p
  if x.discarding then c
  else if 0 < x.dups then c.setStr p { x with dups := x.dups - 1 }
  else match body.filter (goodBody (seqBytes x.rxSeq)) with
  | some b =>
    let c1 := ((c.dadd64 (strKey p 14) 1).setStr p { x with rxSeq := (x.rxSeq + 1) % m32, toAck := x.toAck + 1 }).assemble p
      (fieldAt b 28 1) (b.take 28)
    if 64 ≤ x.toAck + 1 then c1.sendAck p else c1
  | none => ((c.dinc (strKey p 15)).setStr p { x with discarding := true }).sendControl p 3 [x.rxSeq]

/-- A bad control flit (Table 13.8). -/
def Chip.badControl (c : Chip) (p : Nat) : Chip := c.dinc (strKey p 15)

/-- NACK for SEQ s (R659, R661). -/
def Chip.nacked (c : Chip) (p s : Nat) : Chip :=
  if c.strState p ≠ 6 then c else (c.dinc (strKey p 16)).replayFrom p s

/-- REPLAY s (R659). -/
def Chip.replayed (c : Chip) (p s : Nat) : Chip :=
  let x := c.str p
  if c.strState p ≠ 6 then c
  else if laterMod m32 s x.rxSeq then c.sendControl p 3 [x.rxSeq]
  else c.setStr p { x with discarding := false, dups := (x.rxSeq + m32 - s % m32) % m32 }

/-- ACK of SEQ s (R660): the retry buffer is freed up to it. -/
def Chip.acked (c : Chip) (p s : Nat) : Chip :=
  let x := c.str p
  let kept := x.retry.filter (fun (f : SentFlit) => laterMod m32 f.seq s)
  (c.setStr p { x with retry := kept, replayed := if kept.length < x.retry.length then none else x.replayed }).drain p

/-- REPLAY_TIMEOUT (R661): 4 µs (1,000 updates). -/
def Chip.replayTimeout (c : Chip) (p : Nat) : Chip :=
  match (c.str p).retry with
  | [] => c
  | f :: _ => if c.strState p ≠ 6 ∨ c.now < f.at_ + 1000 then c else (c.dinc (strKey p 16)).replayFrom p f.seq

/-- CREDIT (R664): the far end's cumulative counts of flits freed. -/
def Chip.credited (c : Chip) (p : Nat) (counts : List Nat) : Chip :=
  if counts.length = 4 then (c.setStr p { c.str p with freed := counts.map (· % 0x10000) }).drain p else c

/-- A control flit (Table 13.8). -/
def Chip.controlFlit (c : Chip) (p : Nat) (body : List Byte) : Chip :=
  if badControlBody body then c.badControl p
  else match fieldAt body 28 1 with
    | 0 => c
    | 1 => c.enterLocking p
    | 2 => c.acked p (fieldAt body 0 4)
    | 3 => c.nacked p (fieldAt body 0 4)
    | 4 => c.replayed p (fieldAt body 0 4)
    | _ => c.credited p ((List.range 4).map (fun k => fieldAt body (2 * k) 2))

/-- The next block of string p is read (R638, R641, R644): on the lane of its number. The second value is the flit. -/
def Chip.readBlock (c : Chip) (p : Nat) (b : LaneBlock) : Chip × LinkFlit :=
  let x := c.str p
  let lane := x.active.getD (x.rxCount % x.active.length) 0
  let h := tabGet 0 x.rxHist lane
  (c.setStr p { x with rxCount := x.rxCount + 1, rxHist := tabSet x.rxHist lane (descramble h b.body).2,
                       windows := tabSet x.windows lane (watchLock (tabGet [] x.windows lane) [b.header]).1 }, openBlock b h)

/-- A block received in UP. One with an invalid header stands for a data flit that is not accepted (R658, log entry 36). -/
def Chip.takeBlock (c : Chip) (p : Nat) (b : LaneBlock) : Chip :=
  if c.strState p ≠ 6 then c
  else match c.readBlock p b with
    | (c1, .data body) => c1.dataFlit p (some body)
    | (c1, .control body) => c1.controlFlit p body
    | (c1, .invalid) => c1.dataFlit p none

/-! ### What the readers compute (Tables 13.13, 13.15) -/

/-- ADDRESS_ACTIVE. -/
def Chip.addressActive (c : Chip) : Nat :=
  match c.address with
  | some a => 0x8000 + a
  | none => 0

/-- MESH_FAULTS. -/
def Chip.meshFaults (c : Chip) : Nat :=
  if c.straps.mode ≠ .mesh then 0
  else
    let any := fun (f : Nat → Bool) => (List.range 6).any f
    b2n (!c.board.rclkIn) + 2 * b2n (any (fun p => 3 ≤ c.dget (strKey p 6))) + 4 * b2n c.mesh.conflict +
    8 * b2n (any (fun p => c.strState p == 8))

/-- STRING_STATUS (Table 13.13). -/
def Chip.stringStatus (c : Chip) (p : Nat) : Nat :=
  let mask := fun (ls : List Nat) => ls.foldl setBit 0
  c.strState p + 16 * (if c.strState p = 6 then mask (c.str p).active else 0) +
  256 * mask ((List.range 4).filter (fun l => c.isRetired (.stringLane p l))) + 4096 * c.dget (strKey p 6)

/-- R669, Table 4.12: a string with a ROLE is not up. -/
def Chip.stringDown (c : Chip) : Bool :=
  c.straps.mode == .mesh && (List.range 6).any (fun p => c.role p != 0 && c.strState p != 6)

end Sys2Proof.Machine
end

