-- ==== Sys2Proof/Machine/Governor.lean ====
section
/-! DEFINITION. The governor: levels and their transitions, the demand, thermal and current loops, overrides, HOLD and
the idle gate (R739 to R770). What leaving P6 and HOLD does to other blocks stands in Power. -/

namespace Sys2Proof.Machine

/-- Keys of Tables 15.6 to 15.8. -/
def govKey (s : Nat) : Nat := ent 0x5000 s
def thermalKey (s : Nat) : Nat := ent 0x5010 s
def railKey (s : Nat) : Nat := ent 0x5020 s

def Chip.ceiling (c : Chip) : Nat := c.dget (govKey 2)
def Chip.floor (c : Chip) : Nat := c.dget (govKey 3)
def Chip.tl (c : Chip) : Nat := c.dget (thermalKey 14)
def Chip.cl (c : Chip) : Nat := c.dget (railKey 4)

/-- clamp(n, CEILING, FLOOR). -/
def Chip.clampLevel (c : Chip) (n : Nat) : Nat := Nat.min c.floor (Nat.max c.ceiling n)

/-- Table 15.3: VDD_CORE of a level in mV. -/
def levelMilliVolts (l : Nat) : Nat :=
  match l with
  | 0 => 850 | 1 => 780 | 2 => 720 | 3 => 660 | 4 => 600 | _ => 550

/-- The level that LEVEL reads: P6 and P7 above the applied level. -/
def Chip.levelNow (c : Chip) : Nat := if c.gov.p7 then 7 else if c.gov.p6 then 6 else c.dget (govKey 1)

/-- R743: the applied level; P2 stands for D before the first entry to READY (Table 15.3). -/
def Chip.targetLevel (c : Chip) : Nat :=
  Nat.max (if c.gov.started then c.clampLevel (c.dget (govKey 4)) else 2) (Nat.max c.tl c.cl)

/-- When a voltage commanded now has settled: VR_SETTLE µs of 250 updates. -/
def Chip.settleEnd (c : Chip) : Nat := c.now + 250 * c.dget (railKey 9)

/-- A voltage in mV is commanded, and settles (R745, R769). -/
def Chip.commandVolts (c : Chip) (mv : Nat) : Chip :=
  let c1 := c.dset (railKey 7) mv
  { c1 with gov := { c1.gov with settle := some c1.settleEnd, rail := some (.voutCommand mv) } }

/-- R745, R746: the engine moves toward a level: CCLK is lowered in this update, and raised only when the commanded
voltage has settled. -/
def Chip.setLevel (c : Chip) (l : Nat) : Chip :=
  if l = c.dget (govKey 1) then c
  else
    let c1 := ((c.dset (govKey 1) l).dinc (govKey 11)).commandVolts (levelMilliVolts l)
    { c1 with gov := { c1.gov with clock := Nat.max c1.gov.clock l } }

/-- R743 after a change of D, TL, CL or the bounds; in HOLD the level waits for the exit. -/
def Chip.relevel (c : Chip) : Chip := if c.gov.p7 ∨ c.engine = .hold then c else c.setLevel c.targetLevel

/-- VR_SETTLE: the voltage is reached, and CCLK follows (R745). READ_VOUT is a value of the regulator's: a free one (log
entry 7). -/
def Chip.vrSettled (c : Chip) : Chip :=
  match c.gov.settle with
  | none => c
  | some t =>
    if c.now < t then c
    else
      let l := if c.gov.leaving.isSome then 2 else if c.gov.p7 then 5 else c.dget (govKey 1)
      let (c1, v) := ({ c with gov := { c.gov with volt := l, settle := none, vrFails := 0, rail := some .readVout
                                                   clock := if c.gov.p7 then c.gov.clock else l } }).fresh .rail
      c1.dset (railKey 8) (v % 0x10000)

/-! ### Overrides (R758 to R760) -/

def Chip.thermalOverride (c : Chip) : Bool := c.floor < c.tl
def Chip.currentOverride (c : Chip) : Bool := c.floor < c.cl

/-- R759: overrides that start between two states are counted, stamped and logged. -/
def Chip.noteOverrides (c : Chip) (old : Chip) : Chip :=
  let c1 := if c.thermalOverride && !old.thermalOverride then
      ((c.dinc (thermalKey 15)).dset (thermalKey 16) c.posNat).log 0x0401 0x0070 0xFFFF 0 0 else c
  if c.currentOverride && !old.currentOverride then
    ((c1.dinc (railKey 5)).dset (railKey 6) c.posNat).log 0x0402 0x0070 0xFFFF 0 0
  else c1

/-- A change to TL, CL, D or the bounds, with its overrides and its level. -/
def Chip.govern (c : Chip) (f : Chip → Chip) : Chip := ((f c).noteOverrides c).relevel

/-! ### The loops -/

/-- A millisecond of 250,000 updates has passed since a loop's latest action. -/
def Chip.msSince (c : Chip) (last : Option Nat) : Bool := last.all (fun t => t + 250000 ≤ c.now)

/-- DEMAND_TICK (R750): the utilisation of a window of 1 ms that ends now. -/
def Chip.demandTick (c : Chip) (utilisation : Nat) : Chip :=
  let u := Nat.min utilisation 100
  let c1 := ({ c with gov := { c.gov with demandAt := some c.now } }).dset (govKey 7) u
  if !c.msSince c.gov.demandAt then c
  else if !c.gov.started || c.gov.p7 || c.engine == .hold || c.engine == .faulted then c1
  else
    let d := c.dget (govKey 4)
    let d' := if c.dget (govKey 5) ≤ u then d - 1 else if u < c.dget (govKey 6) then d + 1 else d
    c1.govern (fun c => c.dset (govKey 4) (c.clampLevel d'))

/-- A temperature in 1/8 °C as its 16-bit pattern, and back. -/
def tempBits (t : Int) : Nat := ofSigned 16 t
def Chip.temp (c : Chip) (key : Nat) : Int := toSigned 16 (c.dget key)

/-- R752: the readings of the sensors in service and Tj, their highest. -/
def Chip.readSensors (c : Chip) (ts : List Int) : Chip :=
  let live := (List.range 8).filter (fun k => !c.isRetired (.sensor k))
  let c1 := c.each live (fun c k => c.dset (thermalKey (k + 2)) (tempBits (ts.getD k 0)))
  match live.map (fun k => ts.getD k 0) with
  | [] => c1
  | t :: r =>
    let tj := r.foldl (fun a b => if a < b then b else a) t
    let c2 := c1.dset (thermalKey 1) (tempBits tj)
    if c2.temp (thermalKey 19) < tj then c2.dset (thermalKey 19) (tempBits tj) else c2

/-- R754: since when Tj has been at or below THROTTLE − HYSTERESIS, after a sample. -/
def Chip.noteCool (c : Chip) : Chip :=
  let cool := decide (c.temp (thermalKey 1) ≤ c.temp (thermalKey 11) - c.dget (thermalKey 12))
  { c with gov := { c.gov with coolSince := if cool then some (c.gov.coolSince.getD c.now) else none } }

/-- THERMAL_TICK (R752, R754): a sample of the sensors; once a millisecond TL follows it. -/
def Chip.thermalTick (c : Chip) (ts : List Int) : Chip :=
  let c1 := (c.readSensors ts).noteCool
  if !c1.msSince c1.gov.thermalAt then c1
  else
    let c2 := { c1 with gov := { c1.gov with thermalAt := some c1.now } }
    if c2.temp (thermalKey 11) ≤ c2.temp (thermalKey 1) then
      c2.govern (fun c => c.dset (thermalKey 14) (Nat.min 5 (c.tl + 1)))
    else c2

/-- THERMAL_RELEASE (R754): 10 ms (2,500,000 updates) at or below THROTTLE − HYSTERESIS. -/
def Chip.thermalRelease (c : Chip) : Chip :=
  match c.gov.coolSince with
  | none => c
  | some t =>
    if c.now < t + 2500000 then c
    else ({ c with gov := { c.gov with coolSince := some c.now } }).govern (fun c => c.dset (thermalKey 14) (c.tl - 1))

/-- CURRENT_LIMIT_STEP (R756, R757): an estimate of ICORE in mA. -/
def Chip.currentStep (c : Chip) (icore : Nat) : Chip :=
  let i := Nat.min icore 0xFFFF
  let c1 := c.dset (railKey 2) i
  let c2 := if c1.dget (railKey 3) < i then c1.dset (railKey 3) i else c1
  let limit := c2.dget (railKey 1)
  let low := decide (10 * i < 9 * limit)
  let g := c2.gov
  let c3 := { c2 with gov := { g with lowSince := if low then some (g.lowSince.getD c2.now) else none } }
  if i ≤ limit then { c3 with gov := { c3.gov with stepAt := none } }
  else
    let due := match g.stepAt with
      | none => true
      | some t => decide (t + 12500 ≤ c3.now)
    if due then ({ c3 with gov := { c3.gov with stepAt := some c3.now } }).govern (fun c => c.dset (railKey 4) (Nat.min 5 (c.cl + 1)))
    else c3

/-- CURRENT_RELEASE (R757): 10 ms below 0.9 × ILIMIT. -/
def Chip.currentRelease (c : Chip) : Chip :=
  match c.gov.lowSince with
  | none => c
  | some t =>
    if c.now < t + 2500000 then c
    else ({ c with gov := { c.gov with lowSince := some c.now } }).govern (fun c => c.dset (railKey 4) (c.cl - 1))

/-- A write of CEILING or FLOOR has committed (R743, R750, R758). -/
def Chip.boundsChanged (c old : Chip) : Chip :=
  let c1 := if c.gov.started then c.dset (govKey 4) (c.clampLevel (c.dget (govKey 4))) else c
  (c1.noteOverrides old).relevel

/-- The first entry to READY starts the demand loop (R750). -/
def Chip.startDemand (c : Chip) : Chip :=
  if c.gov.started then c
  else
    let c1 := { c with gov := { c.gov with started := true, demandAt := some c.now } }
    c1.govern (fun c => c.dset (govKey 4) (c.clampLevel (c.dget (govKey 4))))

/-! ### CCLK cycles -/

/-- Fifths of a CCLK cycle in one update of 4 ns: 1.2 GHz at P0 down to 0.2 GHz at P5. -/
def Chip.cclkFifths (c : Chip) : Nat := if c.gov.p6 || c.gov.p7 || c.gov.bootHot then 0 else 4 * (6 - c.gov.clock)

/-- n updates pass: RESIDENCY of the level, and the whole CCLK cycles that they hold. -/
def Chip.govTime (c : Chip) (n : Nat) : Chip × Nat :=
  let f := c.gov.fifths + n * c.cclkFifths
  (({ c with gov := { c.gov with fifths := f % 5 } }).dadd64 (govKey (12 + c.levelNow)) n, f / 5)

/-! ### HOLD and trips (R763 to R767) -/

/-- R766: Tj forbids the exit from HOLD. -/
def Chip.tooHot (c : Chip) : Bool := decide (c.temp (thermalKey 11) - 80 < c.temp (thermalKey 1))

/-- HOLD_ENTRY_COMPLETE (R763): CCLK stopped, VDD_CORE commanded to 0.55 V. -/
def Chip.holdEntered (c : Chip) : Chip :=
  if c.engine ≠ .hold ∨ c.gov.p7 ∨ c.gov.leaving.isSome then c
  else
    let c1 := (c.commandVolts 550).dinc (govKey 11)
    { c1 with gov := { c1.gov with p7 := true, p6 := false, wake := false } }

/-- The exit from HOLD is requested (R767): VDD_CORE is commanded to the P2 voltage. -/
def Chip.startHoldExit (c : Chip) : Chip :=
  let c1 := c.commandVolts (levelMilliVolts 2)
  { c1 with gov := { c1.gov with leaving := some c1.now } }

/-- The clock side of HOLD_EXIT_COMPLETE: P2, D at P2, TL and CL kept. -/
def Chip.clockFromHold (c : Chip) : Chip :=
  let c1 := ((c.dset (govKey 1) 2).dset (govKey 4) 2).dinc (govKey 11)
  { c1 with gov := { c1.gov with p7 := false, leaving := none, clock := 2, volt := 2, settle := none } }

/-- Whether the regulator has had VR_SETTLE since the request. -/
def Chip.holdExitDue (c : Chip) : Bool :=
  match c.gov.leaving with
  | some t => decide (t + 250 * c.dget (railKey 9) ≤ c.now)
  | none => false

/-- R764: the counting of a trip. -/
def Chip.noteTrip (c : Chip) : Chip :=
  ((c.dinc (thermalKey 17)).dset (thermalKey 18) c.posNat).log 0x0403 0x0070 0xFFFF 0 0

/-- TRIP_RESUME (R764). -/
def Chip.tripResume (c : Chip) (tj : Int) : Chip :=
  if c.gov.bootHot ∧ tj ≤ c.temp (thermalKey 11) - 80 then
    { c.dset (thermalKey 1) (tempBits tj) with gov := { c.gov with bootHot := false } }
  else c

/-- R762: something that calls for the exit from P6; outside P6 it restarts IDLE_DELAY (log 51, DEDUCED). -/
def Chip.callWake (c : Chip) : Chip := { c with gov := { c.gov with workAt := c.now, wake := c.gov.p6 || c.gov.wake } }

/-! ### The rail link (R770) -/

/-- A failed transaction, or an output fault seen; the second value asks for FAULTED with cause 5. -/
def Chip.railFailed (c : Chip) (outputFault : Bool) : Chip × Bool :=
  if outputFault then (c, true)
  else
    let n := c.gov.vrFails + 1
    ({ c.dinc (railKey 10) with gov := { c.gov with vrFails := n } }, decide (3 ≤ n))

/-- STATUS_WORD of PMBus 1.3 shows an output fault: VOUT or IOUT/POUT of its upper byte, or VOUT_OV_FAULT or
IOUT_OC_FAULT of its lower (PRESUMED, log entry 42). -/
def statusShowsOutputFault (w : Nat) : Bool := bit w 15 || bit w 14 || bit w 5 || bit w 4

/-- GOV_STATUS (Table 15.5). -/
def Chip.govStatus (c : Chip) : Nat :=
  c.levelNow + 16 * c.dget (govKey 4) + 256 * c.tl + 4096 * c.cl + 2 ^ 17 * b2n c.thermalOverride +
  2 ^ 18 * b2n c.currentOverride + 2 ^ 19 * b2n c.gov.settle.isSome + 2 ^ 20 * c.dget (govKey 10)

end Sys2Proof.Machine
end

