-- ==== Sys2Proof/Machine/Fp.lean ====
section
/-! DEFINITION. IEEE 754 binary formats on bit patterns: exact values, correct rounding to nearest with ties to even,
and the operations that the front end, the arrays and the solver use (R31, R366, R523, R533, R557 to R568). -/

namespace Sys2Proof.Machine

/-- A binary interchange format: exponent bits and mantissa bits. -/
structure Fmt where
  eb : Nat
  mb : Nat
  deriving DecidableEq, Repr

def Fmt.f32 : Fmt := ⟨8, 23⟩
def Fmt.f64 : Fmt := ⟨11, 52⟩
def Fmt.bf16 : Fmt := ⟨8, 7⟩
def Fmt.e5m2 : Fmt := ⟨5, 2⟩
def Fmt.e4m3 : Fmt := ⟨4, 3⟩

/-- The exponent bias. -/
def Fmt.bias (f : Fmt) : Nat := 2 ^ (f.eb - 1) - 1

/-- The exact value of a pattern: (−1)^neg · m · 2^e. -/
inductive Fl where
  | nan
  | inf (neg : Bool)
  | fin (neg : Bool) (m : Nat) (e : Int)
  deriving DecidableEq, Repr

/-- The sign bit of a pattern. -/
def Fmt.signOf (f : Fmt) (n : Nat) : Bool := bit n (f.eb + f.mb)

/-- The value of a finite pattern. -/
def Fmt.finite (f : Fmt) (n : Nat) : Fl :=
  let ex := n / 2 ^ f.mb % 2 ^ f.eb
  let m := n % 2 ^ f.mb
  if ex = 0 then .fin (f.signOf n) m (1 - (f.bias : Int) - f.mb)
  else .fin (f.signOf n) (2 ^ f.mb + m) ((ex : Int) - f.bias - f.mb)

/-- The value of a pattern under IEEE 754. -/
def Fmt.decode (f : Fmt) (n : Nat) : Fl :=
  if n / 2 ^ f.mb % 2 ^ f.eb = 2 ^ f.eb - 1 then
    if n % 2 ^ f.mb = 0 then .inf (f.signOf n) else .nan
  else f.finite n

/-- The magnitude pattern nearest to num / den, ties to even, without an upper limit. -/
def Fmt.nearest (f : Fmt) (num den : Nat) : Nat :=
  if num = 0 then 0
  else
    let k0 : Int := (num.log2 : Int) - den.log2
    -- 2^k ≤ num / den < 2^(k+1)
    let below := if 0 ≤ k0 then decide (num < den * 2 ^ k0.toNat) else decide (num * 2 ^ (-k0).toNat < den)
    let k := if below then k0 - 1 else k0
    let umin : Int := 1 - (f.bias : Int) - f.mb
    let u := max (k - f.mb) umin
    let r := if 0 ≤ u then divRne num (den * 2 ^ u.toNat) else divRne (num * 2 ^ (-u).toNat) den
    (u - umin).toNat * 2 ^ f.mb + r

/-- The magnitude pattern of infinity. -/
def Fmt.infMag (f : Fmt) : Nat := (2 ^ f.eb - 1) * 2 ^ f.mb

/-- The canonical NaN. -/
def Fmt.nan (f : Fmt) : Nat := f.infMag + 2 ^ (f.mb - 1)

/-- A sign put before a magnitude pattern. -/
def Fmt.signed (f : Fmt) (neg : Bool) (mag : Nat) : Nat := (if neg then 2 ^ (f.eb + f.mb) else 0) + mag

/-- The pattern of ± num / den, overflow giving infinity. -/
def Fmt.ofRat (f : Fmt) (neg : Bool) (num den : Nat) : Nat := f.signed neg (Nat.min (f.nearest num den) f.infMag)

/-- Rounding of an exact value to the format. -/
def Fmt.encode (f : Fmt) (x : Fl) : Nat :=
  match x with
  | .nan => f.nan
  | .inf neg => f.signed neg f.infMag
  | .fin neg m e => if 0 ≤ e then f.ofRat neg (m * 2 ^ e.toNat) 1 else f.ofRat neg m (2 ^ (-e).toNat)

/-- The signed integer m·2^(e − lo). -/
def alignTo (lo : Int) (neg : Bool) (m : Nat) (e : Int) : Int :=
  let v : Int := (m * 2 ^ (e - lo).toNat : Nat)
  if neg then -v else v

/-- Exact sum; an exact zero is +0 unless both are −0. -/
def Fl.add (x y : Fl) : Fl :=
  match x, y with
  | .nan, _ => .nan
  | _, .nan => .nan
  | .inf a, .inf b => if a = b then .inf a else .nan
  | .inf a, _ => .inf a
  | _, .inf b => .inf b
  | .fin a m e, .fin b n d =>
    let lo := min e d
    let s := alignTo lo a m e + alignTo lo b n d
    if s = 0 then .fin (if m = 0 ∧ n = 0 then a && b else false) 0 lo else .fin (decide (s < 0)) s.natAbs lo

def Fl.neg (x : Fl) : Fl :=
  match x with
  | .nan => .nan
  | .inf a => .inf (!a)
  | .fin a m e => .fin (!a) m e

/-- Exact product. -/
def Fl.mul (x y : Fl) : Fl :=
  match x, y with
  | .nan, _ => .nan
  | _, .nan => .nan
  | .inf a, .inf b => .inf (a != b)
  | .inf a, .fin b n _ => if n = 0 then .nan else .inf (a != b)
  | .fin a m _, .inf b => if m = 0 then .nan else .inf (a != b)
  | .fin a m e, .fin b n d => .fin (a != b) (m * n) (e + d)

def Fmt.add (f : Fmt) (a b : Nat) : Nat := f.encode ((f.decode a).add (f.decode b))
def Fmt.sub (f : Fmt) (a b : Nat) : Nat := f.encode ((f.decode a).add (f.decode b).neg)
def Fmt.mul (f : Fmt) (a b : Nat) : Nat := f.encode ((f.decode a).mul (f.decode b))

/-- The correctly rounded quotient (R533). -/
def Fmt.div (f : Fmt) (a b : Nat) : Nat :=
  match f.decode a, f.decode b with
  | .nan, _ => f.nan
  | _, .nan => f.nan
  | .inf _, .inf _ => f.nan
  | .inf s, .fin t _ _ => f.signed (s != t) f.infMag
  | .fin s _ _, .inf t => f.signed (s != t) 0
  | .fin s m e, .fin t n d =>
    if n = 0 then (if m = 0 then f.nan else f.signed (s != t) f.infMag)
    else if 0 ≤ e - d then f.ofRat (s != t) (m * 2 ^ (e - d).toNat) n
    else f.ofRat (s != t) m (n * 2 ^ (d - e).toNat)

/-- The integer square root, one bit at a time from bit k down. -/
def isqrtFrom (n : Nat) : Nat → Nat → Nat
  | 0, acc => acc
  | k + 1, acc => let c := acc + 2 ^ k; isqrtFrom n k (if c * c ≤ n then c else acc)

/-- floor(√n). -/
def isqrt (n : Nat) : Nat := isqrtFrom n (n.log2 / 2 + 1) 0

/-- The correctly rounded square root (R533); −0 gives −0, a negative value NaN. -/
def Fmt.sqrt (f : Fmt) (a : Nat) : Nat :=
  match f.decode a with
  | .nan => f.nan
  | .inf s => if s then f.nan else f.infMag
  | .fin s m e =>
    if m = 0 then f.signed s 0
    else if s then f.nan
    else
      -- √(m·2^e) = √(m·2^(e + 2j))·2^(−j); two more bits than the mantissa and a sticky half bit decide the rounding
      let j := f.mb + f.bias + 4
      let n := if 0 ≤ e + 2 * j then m * 2 ^ (e + 2 * j).toNat else 0
      let r := isqrt n
      f.ofRat false (2 * r + (if r * r = n then 0 else 1)) (2 ^ (j + 1))

/-- x < y for exact values; false with a NaN. -/
def Fl.lt (x y : Fl) : Bool :=
  match x, y with
  | .nan, _ => false
  | _, .nan => false
  | .inf a, .inf b => a && !b
  | .inf a, _ => a
  | _, .inf b => !b
  | .fin a m e, .fin b n d => let lo := min e d; decide (alignTo lo a m e < alignTo lo b n d)

def Fmt.lt (f : Fmt) (a b : Nat) : Bool := (f.decode a).lt (f.decode b)

/-- The pattern is a NaN. -/
def Fmt.isNan (f : Fmt) (a : Nat) : Bool := f.decode a == .nan

/-- The pattern is neither a NaN nor an infinity. -/
def Fmt.isFinite (f : Fmt) (a : Nat) : Bool := a / 2 ^ f.mb % 2 ^ f.eb != 2 ^ f.eb - 1

/-- |a| on patterns. -/
def Fmt.abs (f : Fmt) (a : Nat) : Nat := a % 2 ^ (f.eb + f.mb)

/-- −a on patterns. -/
def Fmt.neg (f : Fmt) (a : Nat) : Nat := f.signed (!f.signOf a) (f.abs a)

/-- max(a, b): a when the two compare neither way. -/
def Fmt.max (f : Fmt) (a b : Nat) : Nat := if f.lt a b then b else a

/-- The pattern of an integer. -/
def Fmt.ofInt (f : Fmt) (i : Int) : Nat := f.ofRat (decide (i < 0)) i.natAbs 1

/-- FP32 to FP64 is exact, FP64 to FP32 rounds; every NaN becomes the canonical one. -/
def convertFmt (src dst : Fmt) (a : Nat) : Nat := dst.encode (src.decode a)

end Sys2Proof.Machine
end

