-- ==== Sys2Proof/Machine/ArrayNum.lean ====
section
/-! DEFINITION. The arrays' number formats, operators and costs, and what a passage's image says (R557 to R568,
Tables 11.3 to 11.9). -/

namespace Sys2Proof.Machine

/-! ### Formats (Table 11.3) -/

/-- Bits of an element. -/
def fmtBits (f : Nat) : Nat :=
  match f with
  | 1 | 3 | 4 => 8
  | 2 => 4
  | 5 => 16
  | 6 => 32
  | _ => 0

/-- R558: E4M3 has no infinities, and NaN only at 0x7F and 0xFF. -/
def decodeE4m3 (n : Nat) : Fl := if n % 128 = 127 then .nan else Fmt.e4m3.finite n

/-- A signed integer as an exact value. -/
def flOfInt (i : Int) : Fl := .fin (decide (i < 0)) i.natAbs 0

/-- The exact value of an element's code. -/
def elemValue (f n : Nat) : Fl :=
  match f with
  | 1 => flOfInt (toSigned 8 n)
  | 2 => flOfInt (toSigned 4 n)
  | 3 => decodeE4m3 n
  | 4 => Fmt.e5m2.decode n
  | 5 => Fmt.bf16.decode n
  | _ => Fmt.f32.decode n

/-- The code of element i of a byte string in format f. -/
def elemAt (f : Nat) (bs : List Byte) (i : Nat) : Nat :=
  if f = 2 then
    let b := (bs.getD (i / 2) 0).toNat
    if i % 2 = 0 then b % 16 else b / 16
  else fieldAt bs (i * (fmtBits f / 8)) (fmtBits f / 8)

/-- An element in FP32, exact for every format. -/
def elemF32 (f : Nat) (bs : List Byte) (i : Nat) : Nat := Fmt.f32.encode (elemValue f (elemAt f bs i))

/-- The integer value of an INT8 or INT4 element. -/
def elemInt (f : Nat) (bs : List Byte) (i : Nat) : Int := toSigned (fmtBits f) (elemAt f bs i)

/-- The largest finite value of an output format, as num · 2^0. -/
def largestFinite (f : Nat) : Fl :=
  match f with
  | 3 => decodeE4m3 0x7E
  | 4 => Fmt.e5m2.decode 0x7B
  | _ => Fmt.bf16.decode 0x7F7F

/-- The code of a finite value with the given format, to nearest, ties to even. -/
def roundTo (f : Fmt) (neg : Bool) (m : Nat) (e : Int) : Nat :=
  f.signed neg (if 0 ≤ e then f.nearest (m * 2 ^ e.toNat) 1 else f.nearest m (2 ^ (-e).toNat))

/-- The format with its code for a finite maximum and a NaN. -/
def narrowFmt (f : Nat) : Fmt × Nat × Nat :=
  match f with
  | 3 => (.e4m3, 0x7E, 0x7F)
  | 4 => (.e5m2, 0x7B, 0x7E)
  | _ => (.bf16, 0x7F7F, 0x7FC0)

/-- R567: an FP32 pattern converted to an output format: the code, whether it saturated, whether it was a NaN. -/
def convertOut (f y : Nat) : Nat × Bool × Bool :=
  match f with
  | 1 => match Fmt.f32.decode y with
    | .nan => (0, false, true)
    | .inf neg => (if neg then 0x80 else 0x7F, true, false)
    | .fin neg m e =>
      let n : Int := if 0 ≤ e then (m * 2 ^ e.toNat : Nat) else (divRne m (2 ^ (-e).toNat) : Nat)
      let i := if neg then -n else n
      (ofSigned 8 (max (-128) (min 127 i)), decide (i < -128 ∨ 127 < i), false)
  | 6 => (y, false, Fmt.f32.isNan y)
  | _ =>
    let (g, top, nan) := narrowFmt f
    match Fmt.f32.decode y with
    | .nan => (nan, false, true)
    | .inf neg => if f = 3 then (g.signed neg top, true, false) else (g.signed neg g.infMag, false, false)
    | .fin neg m e =>
      if (largestFinite f).lt (.fin false m e) then (g.signed neg top, true, false)
      else (roundTo g neg m e, false, false)

/-! ### Sums (R561 to R566) -/

/-- One level of the tree of R562. -/
def pairSums : List Nat → List Nat
  | a :: b :: r => Fmt.f32.add a b :: pairSums r
  | r => r

/-- R562: the sum of a chunk's 64 products. -/
def treeSum (ps : List Nat) : Nat :=
  let full := ps ++ List.replicate (64 - ps.length) 0
  ((pairSums (pairSums (pairSums (pairSums (pairSums (pairSums full)))))).head?).getD 0

/-- R561 to R563: the reduction over K indices: `int` for integer pairings, with the two operands by index. -/
def reduce (int : Bool) (k : Nat) (a b : Nat → Int × Fl) : Nat :=
  (List.range ((k + 63) / 64)).foldl (fun acc chunk =>
    let idx := rangeFrom (64 * chunk) (Nat.min 64 (k - 64 * chunk))
    let s := if int then Fmt.f32.ofInt ((idx.map (fun i => (a i).1 * (b i).1)).foldl (· + ·) 0)
      else treeSum (idx.map (fun i => Fmt.f32.encode ((a i).2.mul (b i).2)))
    Fmt.f32.add acc s) 0

/-- max(y, +0.0); a NaN stays NaN. -/
def relu (y : Nat) : Nat :=
  if Fmt.f32.isNan y then Fmt.f32.nan else if Fmt.f32.lt 0 y then y else 0

/-- R566: the epilogue. -/
def epilogue (act scale bias acc : Nat) : Nat :=
  let y := Fmt.f32.add (Fmt.f32.mul acc scale) bias
  match act with
  | 0 => y
  | 1 => relu y
  | _ => let z := relu y; if Fmt.f32.lt 0x40C00000 z then 0x40C00000 else z

/-! ### A passage's image (Tables 11.5 to 11.8) -/

structure PassHome where
  quad : Bool
  bytes : Nat
  clean : Bool
  deriving DecidableEq, Repr

structure PassSlot where
  role : Nat
  format : Nat
  home : Nat
  elements : Nat
  offset : Nat
  dflt : Nat
  clean : Bool
  deriving DecidableEq, Repr

structure PassOp where
  op : Nat
  act : Nat
  home : Nat
  small : Bool
  inp : Nat
  wgt : Nat
  out : Nat
  bias : Nat
  m : Nat
  n : Nat
  k : Nat
  scale : Nat
  param : Nat
  clean : Bool
  deriving DecidableEq, Repr

/-- A passage read from its image. -/
structure Pass where
  flags : Nat
  homes : List PassHome
  slots : List PassSlot
  ops : List PassOp
  deriving DecidableEq, Repr

/-- Rows of `size` bytes. -/
def passRows (bs : List Byte) (off size n : Nat) : List (List Byte) :=
  (List.range n).map (fun i => (bs.drop (off + size * i)).take size)

def Pass.ofBytes (bs : List Byte) : Pass :=
  let f := fun off => fieldAt bs off 4
  { flags := fieldAt bs 7 1,
    homes := (passRows bs (f 0x20) 8 (fieldAt bs 8 1)).map (fun r =>
      { quad := fieldAt r 0 1 == 1, bytes := fieldAt r 4 4, clean := fieldAt r 0 1 ≤ 1 && fieldAt r 1 3 == 0 }),
    slots := (passRows bs (f 0x24) 16 (fieldAt bs 0x0A 2)).map (fun r =>
      { role := fieldAt r 0 1, format := fieldAt r 1 1, home := fieldAt r 2 1, elements := fieldAt r 4 4,
        offset := fieldAt r 8 4, dflt := fieldAt r 12 4, clean := fieldAt r 3 1 == 0 }),
    ops := (passRows bs (f 0x28) 32 (f 0x0C)).map (fun r =>
      { op := fieldAt r 0 1, act := fieldAt r 1 1, home := fieldAt r 2 1, small := bit (fieldAt r 3 1) 0,
        inp := fieldAt r 4 2, wgt := fieldAt r 6 2, out := fieldAt r 8 2, bias := fieldAt r 10 2,
        m := fieldAt r 12 4, n := fieldAt r 16 4, k := fieldAt r 20 4, scale := fieldAt r 24 4, param := fieldAt r 28 4,
        clean := fieldAt r 3 1 ≤ 1 }) }

def Pass.slot (p : Pass) (i : Nat) : PassSlot := (p.slots[i]?).getD ⟨9, 0, 0xFF, 0, 0, 0, false⟩
def Pass.home (p : Pass) (i : Nat) : PassHome := (p.homes[i]?).getD ⟨false, 0, false⟩

/-- Bytes of a slot. -/
def PassSlot.bytes (s : PassSlot) : Nat := s.elements * fmtBits s.format / 8

/-- The fields of PARAM (Table 11.8). -/
def PassOp.kh (o : PassOp) : Nat := bits o.param 7 0
def PassOp.kw (o : PassOp) : Nat := bits o.param 15 8
def PassOp.stride (o : PassOp) : Nat := if o.op = 2 then bits o.param 19 16 else bits o.param 15 8
def PassOp.pad (o : PassOp) : Nat := if o.op = 2 then bits o.param 23 20 else 0
def PassOp.window (o : PassOp) : Nat := bits o.param 7 0

/-- Output positions of a window of `k` along `n` pixels. -/
def outDim (n k stride pad : Nat) : Nat := if n + 2 * pad < k ∨ stride = 0 then 0 else (n + 2 * pad - k) / stride + 1

/-- The image widths that fit `pixels` input pixels and `m` output pixels. -/
def imageWidths (pixels m kh kw stride pad : Nat) : List Nat :=
  (rangeFrom 1 pixels).filter (fun w => pixels % w == 0 &&
    outDim (pixels / w) kh stride pad * outDim w kw stride pad == m)

/-- The width of an operator's input image (log entry 15). -/
def imageWidthOf (pixels m kh kw stride pad : Nat) : Nat :=
  let ws := imageWidths pixels m kh kw stride pad
  ws.getD (Config.imageWidth pixels m (kh + 256 * kw) stride pad % ws.length) 1

/-- Input channels and pixels of a CONV2D or pooling operator. -/
def PassOp.channels (o : PassOp) : Nat := if o.op = 2 then o.k / (o.kh * o.kw) else o.n

/-- Table 11.9: the cost at a home kind. -/
def PassOp.cost (o : PassOp) (bf16 quad : Bool) : Nat :=
  let up := fun a b => (a + b - 1) / b
  match o.op with
  | 1 | 2 =>
    let mac := if quad then 2 * o.m * up o.k 64 * up o.n 32 else o.m * up o.k 64 * up o.n 64
    (if bf16 then 2 * mac else mac) + 64
  | 4 | 5 => up (o.m * o.n * o.window * o.window) (if quad then 16 else 64) + 64
  | _ => up (o.m * o.n) (if quad then 16 else 64) + 64

def Pass.cost (p : Pass) (o : PassOp) (quad : Bool) : Nat := o.cost ((p.slot o.inp).format == 5) quad

/-- The engine's own sum for EST_CYCLES. -/
def Pass.estCycles (p : Pass) : Nat := (p.ops.map (fun o => p.cost o (p.home o.home).quad)).foldl (· + ·) 0

/-! ### Validation (R569) -/

/-- R560. -/
def pairingOk (inp wgt : Nat) : Bool :=
  (inp == 1 && (wgt == 1 || wgt == 2)) || ((inp == 3 || inp == 4) && (wgt == 3 || wgt == 4)) ||
  (inp == 5 && (wgt == 3 || wgt == 4 || wgt == 5))

/-- The slots that an operator reads. -/
def PassOp.reads (o : PassOp) : List Nat :=
  [o.inp] ++ (if o.wgt = 0xFFFF then [] else [o.wgt]) ++ (if o.bias = 0xFFFF then [] else [o.bias])

/-- An operator's references, formats, sizes and PARAM fit its code. -/
def Pass.opOk (p : Pass) (o : PassOp) : Bool :=
  let n := p.slots.length
  let inp := p.slot o.inp
  let wgt := p.slot o.wgt
  let out := p.slot o.out
  o.clean && decide (1 ≤ o.op ∧ o.op ≤ 6) && o.act ≤ 2 && decide (o.home < p.homes.length) &&
  decide (o.inp < n) && decide (o.out < n) && (out.role == 1 || out.role == 3) && out.home == o.home &&
  inp.role != 2 && out.elements == o.m * o.n &&
  (o.bias == 0xFFFF || (decide (o.bias < n) && (p.slot o.bias).format == 6 && (p.slot o.bias).elements == o.n)) &&
  match o.op with
  | 1 => decide (o.wgt < n) && wgt.role == 2 && pairingOk inp.format wgt.format && inp.elements == o.m * o.k &&
      wgt.elements == o.k * o.n && o.param == 0
  | 2 => decide (o.wgt < n) && wgt.role == 2 && pairingOk inp.format wgt.format && wgt.elements == o.k * o.n &&
      bits o.param 31 24 == 0 && decide (0 < o.kh * o.kw ∧ 0 < o.stride ∧ 0 < o.channels) &&
      o.k % (o.kh * o.kw) == 0 && inp.elements % o.channels == 0 &&
      !(imageWidths (inp.elements / o.channels) o.m o.kh o.kw o.stride o.pad).isEmpty
  | 3 => decide (o.wgt < n) && wgt.role != 2 && inp.elements == o.m * o.n && wgt.elements == o.m * o.n && o.param == 0
  | 4 | 5 => bits o.param 31 16 == 0 && decide (0 < o.window ∧ 0 < o.stride ∧ 0 < o.n) && inp.elements % o.n == 0 &&
      !(imageWidths (inp.elements / o.n) o.m o.window o.window o.stride 0).isEmpty
  | _ => inp.elements == o.m * o.n && o.param == 0

/-- Ranges of bytes of one home do not meet. -/
def disjointRanges : List (Nat × Nat) → Bool
  | [] => true
  | a :: r => r.all (fun b => a.1 + a.2 ≤ b.1 || b.1 + b.2 ≤ a.1) && disjointRanges r

/-- Every INTERNAL or OUTPUT slot is written before it is read. -/
def Pass.readsWritten (p : Pass) : Bool :=
  p.ops.zipIdx.all (fun q => q.1.reads.all (fun s =>
    let r := (p.slot s).role
    r == 0 || r == 2 || (p.ops.take q.2).any (fun o => o.out == s)))

/-- Table 9.6: the slots of a model passage; `place` for the place model. -/
def Pass.modelOk (p : Pass) (place : Bool) : Bool :=
  let a := p.slot 0
  let b := p.slot 1
  a.role == 0 && a.format == 1 && b.role == 1 &&
  (if place then b.format == 1 && b.elements == 256 && decide (0 < a.elements)
   else decide (0 < a.elements) && a.elements % 1024 == 0 && b.bytes == a.elements / 1024 * 32)

/-- R569: the structural checks, every one of which gives 0x0A03_0003. -/
def goodPassage (bs : List Byte) : Bool :=
  let p := Pass.ofBytes bs
  let f := fun off => fieldAt bs off 4
  let len := f 0x14
  let h := fieldAt bs 8 1
  let n := fieldAt bs 0x0A 2
  decide (128 ≤ bs.length) && f 0 == 0x53534150 && fieldAt bs 4 2 == 0x0100 && p.flags ≤ 7 && fieldAt bs 9 1 == 0 &&
  ((bs.take 0x78).drop 0x2C).all (· == 0) && decide (128 ≤ len ∧ len ≤ bs.length ∧ len ≤ 8388608) &&
  decide (1 ≤ h ∧ h ≤ 16) && decide (1 ≤ n ∧ n ≤ 1024) && decide (1 ≤ f 0x0C ∧ f 0x0C ≤ 65536) &&
  decide (f 0x20 + 8 * h ≤ len) && decide (f 0x24 + 16 * n ≤ len) && decide (f 0x28 + 32 * f 0x0C ≤ len) &&
  p.homes.all (fun x => x.clean && x.bytes % 64 == 0 && x.bytes ≤ (if x.quad then 262144 else 1048576)) &&
  f 0x10 == (p.homes.map (·.bytes)).foldl (· + ·) 0 &&
  p.slots.all (fun s => s.clean && s.role ≤ 3 && decide (1 ≤ s.format ∧ s.format ≤ 6) &&
    (s.format != 2 || (s.role == 2 && s.elements % 2 == 0)) && (s.role != 3 || s.dflt == 0) &&
    (if s.role = 2 then s.home == 0xFF && s.offset == 0
     else decide (s.home < h) && s.offset % 64 == 0 && decide (s.offset + s.bytes ≤ (p.home s.home).bytes))) &&
  (List.range h).all (fun k => disjointRanges ((p.slots.filter (fun s => s.home == k && s.role != 2)).map
    (fun s => (s.offset, s.bytes)))) &&
  p.ops.all p.opOk && p.readsWritten && (!bit p.flags 1 || p.modelOk false) && (!bit p.flags 2 || p.modelOk true) &&
  fieldAt bs 0x18 8 == p.estCycles

/-- R569: the two CRCs. -/
def goodPassageCrc (bs : List Byte) : Bool :=
  fieldAt bs 0x78 4 == crc32 ((bs.take (fieldAt bs 0x14 4)).drop 0x80) && fieldAt bs 0x7C 4 == crc32 (bs.take 0x7C)

/-! ### Operators (Table 11.9) -/

/-- Operand element i of a slot's contents, as an integer and as an exact value. -/
def operand (f : Nat) (bs : List Byte) (i : Nat) : Int × Fl := (elemInt f bs i, elemValue f (elemAt f bs i))

/-- Element `o` of channel c of the padded image of width w: index in the HWC layout, none outside. -/
def imageIndex (pixels w channels : Nat) (y x : Int) (ch : Nat) : Option Nat :=
  if 0 ≤ y ∧ y < (pixels / w : Nat) ∧ 0 ≤ x ∧ x < (w : Nat) then some ((y.toNat * w + x.toNat) * channels + ch)
  else none

/-- The FP32 result of output element `e` before conversion, and for CONVERT the operand itself. `inp`, `wgt` and
`bias` are the contents of the slots. -/
def Pass.element (p : Pass) (o : PassOp) (inp wgt bias : List Byte) (e : Nat) : Nat :=
  let fi := (p.slot o.inp).format
  let fw := (p.slot o.wgt).format
  let row := e / o.n
  let col := e % o.n
  let b := if o.bias = 0xFFFF then 0 else elemAt 6 bias col
  match o.op with
  | 1 => epilogue o.act o.scale b (reduce (fi == 1) o.k (fun k => operand fi inp (row * o.k + k))
      (fun k => operand fw wgt (k * o.n + col)))
  | 2 =>
    let ch := o.channels
    let pixels := (p.slot o.inp).elements / ch
    let w := imageWidthOf pixels o.m o.kh o.kw o.stride o.pad
    let ow := outDim w o.kw o.stride o.pad
    let at_ := fun k : Nat =>
      let y : Int := ((row / ow * o.stride + k / ch / o.kw : Nat) : Int) - o.pad
      let x : Int := ((row % ow * o.stride + k / ch % o.kw : Nat) : Int) - o.pad
      match imageIndex pixels w ch y x (k % ch) with
      | some i => operand fi inp i
      | none => (0, .fin false 0 0)
    epilogue o.act o.scale b (reduce (fi == 1) o.k at_ (fun k => operand fw wgt (k * o.n + col)))
  | 3 => Fmt.f32.add (elemF32 fi inp e) (elemF32 fw wgt e)
  | 4 | 5 =>
    let pixels := (p.slot o.inp).elements / o.n
    let w := imageWidthOf pixels o.m o.window o.window o.stride 0
    let ow := outDim w o.window o.stride 0
    let xs := (List.range (o.window * o.window)).map (fun q =>
      elemF32 fi inp (((row / ow * o.stride + q / o.window) * w + (row % ow * o.stride + q % o.window)) * o.n + col))
    if o.op = 4 then
      if xs.any Fmt.f32.isNan then Config.maxOfNan xs % m32
      else match xs with
        | [] => 0
        | a :: r => r.foldl Fmt.f32.max a
    else
      let s := match xs with
        | [] => 0
        | a :: r => r.foldl Fmt.f32.add a
      Fmt.f32.mul s (Fmt.f32.ofRat false 1 (o.window * o.window))
  | _ => elemF32 fi inp e

/-- R567: the output bytes of an operator, with its saturations and NaN results. -/
def Pass.compute (p : Pass) (o : PassOp) (inp wgt bias : List Byte) : List Byte × Nat × Nat :=
  let f := (p.slot o.out).format
  let rs := (List.range (o.m * o.n)).map (fun e => convertOut f (p.element o inp wgt bias e))
  (rs.flatMap (fun r => leBytes (fmtBits f / 8) r.1), rs.countP (·.2.1), rs.countP (·.2.2))

end Sys2Proof.Machine
end

