-- ==== Sys2Proof/Machine/SolverNum.lean ====
section
/-! DEFINITION. Tablatures: their tables, their checks and the arithmetic of one request (R502 to R533). -/

namespace Sys2Proof.Machine

/-! ### The image of a tablature (Tables 10.3, 10.4) -/

/-- c(n): the 6-wide pieces of a dimension. -/
def pieces (n : Nat) : Nat := (n + 5) / 6

/-- A variable: dimension, FIXED, and whether its reserved bits are zero. -/
structure TabVar where
  dim : Nat
  fixed : Bool
  clean : Bool
  deriving DecidableEq, Repr

/-- A factor: rows, count of variables, kind, variables, and whether its reserved fields are zero. -/
structure TabFactor where
  rows : Nat
  kind : Nat
  vars : List Nat
  clean : Bool
  deriving DecidableEq, Repr

/-- An operation of Table 10.5. -/
structure TabOp where
  op : Nat
  a : Nat
  b : Nat
  c : Nat
  clean : Bool
  deriving DecidableEq, Repr

/-- A tablature read from its image. -/
structure Tabl where
  kind : Nat
  overflowOk : Bool
  vars : List TabVar
  factors : List TabFactor
  blocks : List (Nat × Nat)
  blocksClean : Bool
  ops : List TabOp
  dampInit : Nat
  dampRatio : Nat
  dampFloor : Nat
  pivotRel : Nat
  pivotAbs : Nat
  deriving DecidableEq, Repr

/-- Entries of `size` bytes from an offset on. -/
def tableRows (bs : List Byte) (off size n : Nat) : List (List Byte) :=
  (List.range n).map (fun i => (bs.drop (off + size * i)).take size)

/-- The variables of a factor entry: the first NVARS of its four. -/
def factorOf (r : List Byte) : TabFactor :=
  let n := fieldAt r 1 1
  let vs := (List.range 4).map (fun i => fieldAt r (4 + 2 * i) 2)
  { rows := fieldAt r 0 1, kind := fieldAt r 2 1, vars := vs.take n,
    clean := fieldAt r 3 1 == 0 && fieldAt r 12 4 == 0 && decide (1 ≤ n ∧ n ≤ 4) && (vs.drop n).all (· == 0xFFFF) }

/-- A tablature as its image spells it. -/
def Tabl.ofBytes (bs : List Byte) : Tabl :=
  let f := fun off => fieldAt bs off 4
  { kind := fieldAt bs 7 1, overflowOk := fieldAt bs 0x0A 1 == 1,
    vars := (tableRows bs (f 0x20) 4 (fieldAt bs 8 2)).map (fun r =>
      { dim := fieldAt r 0 1, fixed := bit (fieldAt r 1 1) 0, clean := fieldAt r 1 1 ≤ 1 && fieldAt r 2 2 == 0 }),
    factors := (tableRows bs (f 0x24) 16 (f 0x0C)).map factorOf,
    blocks := (tableRows bs (f 0x28) 8 (f 0x10)).map (fun r => (fieldAt r 0 2, fieldAt r 2 2)),
    blocksClean := (tableRows bs (f 0x28) 8 (f 0x10)).all (fun r => fieldAt r 4 4 == 0),
    ops := (tableRows bs (f 0x2C) 8 (f 0x14)).map (fun r =>
      { op := fieldAt r 0 1, a := fieldAt r 2 2, b := fieldAt r 4 2, c := fieldAt r 6 2, clean := fieldAt r 1 1 == 0 }),
    dampInit := f 0x34, dampRatio := f 0x38, dampFloor := f 0x3C, pivotRel := f 0x40, pivotAbs := f 0x44 }

def Tabl.dim (t : Tabl) (v : Nat) : Nat := ((t.vars[v]?).map (·.dim)).getD 0
def Tabl.fixed (t : Tabl) (v : Nat) : Bool := ((t.vars[v]?).map (·.fixed)).getD true
def Tabl.factor (t : Tabl) (f : Nat) : TabFactor := (t.factors[f]?).getD ⟨0, 0, [], false⟩

/-- The factor that FORM, GRAD (A + 65,536·C) names. -/
def TabOp.factor (o : TabOp) : Nat := o.a + 0x10000 * o.c

/-- The variables of a FORM or GRAD: B holds the place of variable a in the factor's list in bits 7:0, and that of
variable b in bits 15:8 (DESIGN CHOICE, log entry 14). -/
def Tabl.opVar (t : Tabl) (o : TabOp) (second : Bool) : Nat :=
  (t.factor o.factor).vars.getD (if second then o.b / 256 else o.b % 256) 0xFFFF

/-- The factor that a STEP of residuals names. -/
def TabOp.stepFactor (o : TabOp) : Nat := o.b + 0x10000 * o.c

/-- R510: SLOTS. -/
def Tabl.slots (t : Tabl) : Nat :=
  (t.factors.map (fun f => (f.vars.map (fun v => pieces f.rows * pieces (t.dim v))).foldl (· + ·) 0)).foldl (· + ·) 0 +
  (t.blocks.map (fun b => pieces (t.dim b.1) * pieces (t.dim b.2))).foldl (· + ·) 0 +
  (t.vars.map (fun v => 2 * pieces v.dim * pieces v.dim)).foldl (· + ·) 0

/-- Table 10.5: the cost of an operation with every block in the store. -/
def Tabl.cost (t : Tabl) (o : TabOp) : Nat :=
  let p := fun v => pieces (t.dim v)
  match o.op with
  | 1 => 4 * p (t.opVar o false) * p (t.opVar o true) * pieces (t.factor o.factor).rows
  | 2 => 4 * p (t.opVar o false) * pieces (t.factor o.factor).rows
  | 3 => 4 * p o.a
  | 4 => 4 * p o.a * p o.b * p o.c
  | 5 => 13 * t.dim o.a + t.dim o.a * (t.dim o.a - 1) / 2
  | 6 => 4 * p o.a * p o.b * p o.b + 12
  | 7 | 8 => 4 * p o.a * p o.b
  | _ =>
    if o.a = 0xFFFF then
      4 * ((t.factor o.stepFactor).vars.map (fun v => pieces (t.factor o.stepFactor).rows * p v)).foldl (· + ·) 0
    else 4 * p o.a

/-- R536: EST_CYCLES. -/
def Tabl.estCycles (t : Tabl) : Nat := (t.ops.map t.cost).foldl (· + ·) 0 + 64

/-! ### The L table (R509) -/

/-- Blocks (i, j), i > j, of the factors' couplings. -/
def Tabl.couplings (t : Tabl) : List (Nat × Nat) :=
  t.factors.flatMap (fun f => f.vars.flatMap (fun i => (f.vars.filter (· < i)).map (fun j => (i, j))))

/-- The fill of column k on a list of blocks. -/
def fillColumn (bl : List (Nat × Nat)) (k : Nat) : List (Nat × Nat) :=
  let rows := (bl.filter (fun b => b.2 == k)).map (·.1)
  bl ++ ((rows.flatMap (fun i => (rows.filter (· < i)).map (fun j => (i, j)))).filter (fun b => !bl.contains b))

/-- R509: the blocks that the table must hold. -/
def Tabl.wantedBlocks (t : Tabl) : List (Nat × Nat) :=
  (List.range t.vars.length).foldl fillColumn (t.couplings.eraseDups)

/-- Ascending COL, then ascending ROW, with ROW > COL. -/
def blocksSorted : List (Nat × Nat) → Bool
  | [] => true
  | [b] => decide (b.2 < b.1)
  | a :: b :: r => decide (a.2 < a.1) && decide (a.2 < b.2 ∨ (a.2 = b.2 ∧ a.1 < b.1)) && blocksSorted (b :: r)

/-- R509 holds of the L table. -/
def Tabl.goodBlocks (t : Tabl) : Bool :=
  let want := t.wantedBlocks
  blocksSorted t.blocks && t.blocks.length == want.length && t.blocks.all want.contains

/-! ### The operation table (R511) -/

/-- An operation by what it does, for the comparison with what R511 requires. -/
abbrev OpKey := Nat × Nat × Nat × Nat

/-- The key of an operation: FORM and GRAD by factor and variables, STEP by variable or factor. -/
def Tabl.opKey (t : Tabl) (o : TabOp) : OpKey :=
  match o.op with
  | 1 => (1, o.factor, t.opVar o false, t.opVar o true)
  | 2 => (2, o.factor, t.opVar o false, 0)
  | 3 => (3, o.a, 0, 0)
  | 4 => (4, o.a, o.b, o.c)
  | 5 => (5, o.a, 0, 0)
  | 6 => (6, o.a, o.b, 0)
  | 7 => (7, o.a, o.b, 0)
  | 8 => (8, o.a, o.b, 0)
  | _ => if o.a = 0xFFFF then (9, 0xFFFF, o.stepFactor, 0) else (9, o.a, 0, 0)

/-- The phase of an operation code in the order of R511. -/
def opPhase (op : Nat) : Nat :=
  match op with
  | 1 | 2 => 0
  | 3 => 1
  | 4 | 5 | 6 => 2
  | 7 => 3
  | 8 => 4
  | _ => 5

/-- Every operation that one iteration needs; FIXED variables take part in none but the steps of residuals (R502). -/
def Tabl.wantedOps (t : Tabl) : List OpKey :=
  let live := (List.range t.vars.length).filter (fun v => !t.fixed v)
  let bl := t.blocks.filter (fun b => !t.fixed b.1 && !t.fixed b.2)
  let fs := t.factors.zipIdx
  (fs.flatMap (fun q =>
    let vs := q.1.vars.filter (fun v => !t.fixed v)
    (vs.flatMap (fun a => (vs.filter (· ≤ a)).map (fun b => ((1, q.2, a, b) : OpKey)))) ++
    vs.map (fun a => (2, q.2, a, 0)))) ++
  live.map (fun v => (3, v, 0, 0)) ++ live.map (fun v => (5, v, 0, 0)) ++
  bl.flatMap (fun x => (bl.filter (fun y => y.2 == x.2 && y.1 ≤ x.1)).map (fun y => (4, x.1, y.1, x.2))) ++
  bl.map (fun b => (6, b.1, b.2, 0)) ++
  live.map (fun v => (7, v, v, 0)) ++ bl.map (fun b => (7, b.1, b.2, 0)) ++
  live.map (fun v => (8, v, v, 0)) ++ bl.map (fun b => (8, b.1, b.2, 0)) ++
  live.map (fun v => (9, v, 0, 0)) ++ fs.map (fun q => (9, 0xFFFF, q.2, 0))

/-- Where an operation stands in the list. -/
def placeOf (ks : List OpKey) (k : OpKey) : Nat := ks.findIdx (· == k)

/-- The dependencies of R511 within a list of operations, and those of the substitutions. -/
def goodOrder (ks : List OpKey) : Bool :=
  let before := fun a b => decide (placeOf ks a < placeOf ks b)
  ks.all (fun o =>
    match o with
    | (4, i, j, k) =>
      (ks.all (fun p => match p with
        | (4, i', j', k') => if i' = i ∧ j' = j ∧ k' < k then before p o else true
        | _ => true)) &&
      before (6, i, k, 0) o && before (6, j, k, 0) o &&
      (if i = j then before o (5, i, 0, 0) else before o (6, i, j, 0))
    | (6, _, j, _) => before (5, j, 0, 0) o
    | (7, i, j, _) => if i = j then true else before (7, j, j, 0) o && before o (7, i, i, 0)
    | (8, i, j, _) => if i = j then true else before (8, i, i, 0) o && before o (8, j, j, 0)
    | _ => true)

/-- Phases in order. -/
def phasesRise : List Nat → Bool
  | [] => true
  | [_] => true
  | a :: b :: r => decide (a ≤ b) && phasesRise (b :: r)

/-- R511 holds of the operation table. -/
def Tabl.goodOps (t : Tabl) : Bool :=
  let ks := t.ops.map t.opKey
  let want := t.wantedOps
  ks.length == want.length && want.all ks.contains && ks.all want.contains && ks.eraseDups.length == ks.length &&
  t.ops.all (fun o => decide (1 ≤ o.op ∧ o.op ≤ 9)) && phasesRise (t.ops.map (fun o => opPhase o.op)) && goodOrder ks

/-- An FP32 field lies between two patterns. -/
def f32Within (lo hi x : Nat) : Bool :=
  !Fmt.f32.isNan x && !Fmt.f32.lt x lo && !Fmt.f32.lt hi x

/-- R508: the damping and pivot fields are within Table 10.3 (10^6 is 0x49742400). -/
def Tabl.goodFields (t : Tabl) : Bool :=
  f32Within 0 0x49742400 t.dampInit && f32Within 0x37800000 0x3F800000 t.dampRatio &&
  f32Within 0 0x49742400 t.dampFloor && f32Within 0x2B800000 0x3D800000 t.pivotRel &&
  f32Within 0x21800000 0x3F800000 t.pivotAbs

/-- R508: the structural checks, every one of which gives 0x0A03_0003. `voice`: loaded by a voice (R506). -/
def goodImage (bs : List Byte) (voice : Bool) : Bool :=
  let t := Tabl.ofBytes bs
  let f := fun off => fieldAt bs off 4
  let len := f 0x30
  let n := fieldAt bs 8 2
  decide (128 ≤ bs.length) && f 0 == 0x4C424154 && fieldAt bs 4 2 == 0x0100 && fieldAt bs 7 1 ≤ 1 &&
  fieldAt bs 0x0A 1 ≤ 1 && fieldAt bs 0x0B 1 == 0 && ((bs.drop 0x48).take 0x30).all (· == 0) &&
  decide (128 ≤ len ∧ len ≤ bs.length ∧ len ≤ 8388608) &&
  decide (1 ≤ n ∧ n ≤ 4096) && decide (1 ≤ f 0x0C ∧ f 0x0C ≤ 262144) && f 0x10 ≤ 1048576 &&
  decide (1 ≤ f 0x14 ∧ f 0x14 ≤ 4194304) &&
  decide (f 0x20 + 4 * n ≤ len) && decide (f 0x24 + 16 * f 0x0C ≤ len) && decide (f 0x28 + 8 * f 0x10 ≤ len) &&
  decide (f 0x2C + 8 * f 0x14 ≤ len) &&
  t.vars.all (fun v => v.clean && decide (1 ≤ v.dim ∧ v.dim ≤ 15)) &&
  t.factors.all (fun q => q.clean && decide (1 ≤ q.rows ∧ q.rows ≤ 15) && q.vars.all (· < n) &&
    q.vars.eraseDups.length == q.vars.length && (!voice || q.kind == 0) && q.kind ≤ 15) &&
  t.blocksClean && t.goodBlocks && t.ops.all (·.clean) && t.goodOps &&
  f 0x1C == t.estCycles && f 0x18 == t.slots

/-- R508: the two CRCs. -/
def goodImageCrc (bs : List Byte) : Bool :=
  fieldAt bs 0x78 4 == crc32 ((bs.take (fieldAt bs 0x30 4)).drop 0x80) && fieldAt bs 0x7C 4 == crc32 (bs.take 0x7C)

/-! ### Block tensors (R517, R518) -/

/-- A block of a block tensor: its key factor × 8 + part, rows, columns and FP32 patterns. -/
structure Block10 where
  factor : Nat
  part : Nat
  rows : Nat
  cols : Nat
  zero : Nat
  vals : List Nat
  deriving DecidableEq, Repr

/-- The entries of a block tensor from an offset on. -/
def blockEntries : Nat → List Byte → List Block10
  | 0, _ => []
  | n + 1, bs =>
    let rows := fieldAt bs 5 1
    let cols := fieldAt bs 6 1
    { factor := fieldAt bs 0 4, part := fieldAt bs 4 1, rows, cols, zero := fieldAt bs 7 1,
      vals := (List.range (rows * cols)).map (fun i => fieldAt bs (8 + 4 * i) 4) } ::
    blockEntries n (bs.drop (8 + 4 * (rows * cols)))

/-- The bytes that the entries take. -/
def entriesBytes (es : List Block10) : Nat := (es.map (fun e => 8 + 4 * (e.rows * e.cols))).foldl (· + ·) 0

/-- R518: the check of a block tensor of tablature `tab`; 0 is good. -/
def blockTensorCheck (t : Tabl) (tab : Nat) (bs : List Byte) : Nat :=
  let n := fieldAt bs 8 4
  let es := blockEntries (Nat.min n (bs.length / 8)) (bs.drop 32)
  if bs.length < 32 ∨ fieldAt bs 0 4 ≠ 0x4B4C4244 ∨ fieldAt bs 4 4 ≠ tab ∨ ((bs.take 32).drop 12).any (· != 0) ∨
      es.length ≠ n ∨ bs.length < 32 + entriesBytes es ∨
      es.any (fun e =>
        let f := t.factor e.factor
        decide (t.factors.length ≤ e.factor) || e.zero != 0 || e.rows != f.rows ||
        (if e.part = 0 then e.cols != 1
         else decide (f.vars.length < e.part) || e.cols != t.dim (f.vars.getD (e.part - 1) 0))) then 0x0A030003
  else if es.any (fun e => e.vals.any (fun x => !Fmt.f32.isFinite x)) then 0x0A030001 else 0

/-- R518: blocks merged into resident values, the later entry counting. -/
def mergeBlocks (values : Tab (List Nat)) (es : List Block10) : Tab (List Nat) :=
  es.foldl (fun v e => tabSet v (8 * e.factor + e.part) e.vals) values

/-- The slots of the blocks that a list merges (R510, R534): a residual counts as a block of one column, and a block that
appears twice is merged once (R518). -/
def blockSlots (es : List Block10) : Nat :=
  ((es.map (fun e => (e.factor, e.part, pieces e.rows * pieces e.cols))).eraseDups.map (·.2.2)).foldl (· + ·) 0

/-! ### One request (R504, R523 to R533); every value is an FP64 pattern unless said otherwise -/

/-- FP64 shorthand. -/
def add64 (a b : Nat) : Nat := Fmt.f64.add a b
def mul64 (a b : Nat) : Nat := Fmt.f64.mul a b
def neg64 (a : Nat) : Nat := Fmt.f64.neg a

/-- FP32 pattern of an FP64 pattern, and back. -/
def to32 (a : Nat) : Nat := convertFmt .f64 .f32 a
def to64 (a : Nat) : Nat := convertFmt .f32 .f64 a

/-- The value that an FP32 store keeps of an FP64 value. -/
def store32 (a : Nat) : Nat := to64 (to32 a)

/-- R523: products summed in order, each addition rounded. -/
def sum64 (xs : List Nat) : Nat :=
  match xs with
  | [] => 0
  | a :: r => r.foldl add64 a

/-- A matrix by rows. -/
abbrev Mat := List (List Nat)

def Mat.at (m : Mat) (i j : Nat) : Nat := (m.getD i []).getD j 0

/-- A matrix from its elements. -/
def Mat.of (r c : Nat) (f : Nat → Nat → Nat) : Mat := (List.range r).map (fun i => (List.range c).map (fun j => f i j))

/-- The working values of a request. `h` holds block (i, j) at i × 4,096 + j. -/
structure Work where
  h : Tab Mat := []
  /-- damped diagonals of R528, D of LDLᵀ -/
  damped : Tab (List Nat) := []
  d : Tab (List Nat) := []
  g : Tab (List Nat) := []
  /-- y of the forward substitution, undivided; then δ -/
  y : Tab (List Nat) := []
  delta : Tab (List Nat) := []
  x : Tab (List Nat) := []
  r : Tab (List Nat) := []
  lambda : Nat := 0
  reg : Nat := 0
  nan : Nat := 0
  deriving DecidableEq, Repr

/-- The key of block (i, j). -/
def blockKey (i j : Nat) : Nat := i * 4096 + j

/-- A vector of a table, zeros when unlisted. -/
def vecAt (t : Tab (List Nat)) (k n : Nat) : List Nat := (tabGet? t k).getD (List.replicate n 0)

/-- Block (i, j), zeros when unlisted. -/
def Work.block (w : Work) (t : Tabl) (i j : Nat) : Mat :=
  (tabGet? w.h (blockKey i j)).getD (Mat.of (t.dim i) (t.dim j) (fun _ _ => 0))

/-- R524: a diagonal block keeps FP64, any other is rounded to FP32. -/
def Work.setBlock (w : Work) (i j : Nat) (m : Mat) : Work :=
  { w with h := tabSet w.h (blockKey i j) (if i = j then m else m.map (·.map store32)) }

/-- J of factor f and its p-th variable (from 0), exact in FP64. -/
def jacobian (t : Tabl) (values : Tab (List Nat)) (f p : Nat) : Mat :=
  let n := t.dim ((t.factor f).vars.getD p 0)
  let vs := tabGet [] values (8 * f + p + 1)
  Mat.of (t.factor f).rows n (fun i j => to64 (vs.getD (i * n + j) 0))

/-- The place of a variable in a factor's list. -/
def TabFactor.place (f : TabFactor) (v : Nat) : Nat := f.vars.findIdx (· == v)

/-- FORM: H_ab += J_aᵀ J_b. -/
def Work.form (w : Work) (t : Tabl) (values : Tab (List Nat)) (o : TabOp) : Work :=
  let f := o.factor
  let a := t.opVar o false
  let b := t.opVar o true
  let ja := jacobian t values f (o.b % 256)
  let jb := jacobian t values f (o.b / 256)
  let old := w.block t a b
  w.setBlock a b (Mat.of (t.dim a) (t.dim b) (fun i j =>
    add64 (old.at i j) (sum64 ((List.range (t.factor f).rows).map (fun k => mul64 (ja.at k i) (jb.at k j))))))

/-- GRAD: g_a += J_aᵀ r. -/
def Work.grad (w : Work) (t : Tabl) (values : Tab (List Nat)) (o : TabOp) : Work :=
  let f := o.factor
  let a := t.opVar o false
  let ja := jacobian t values f (o.b % 256)
  let r := vecAt w.r f (t.factor f).rows
  let old := vecAt w.g a (t.dim a)
  { w with g := tabSet w.g a ((List.range (t.dim a)).map (fun i =>
      add64 (old.getD i 0) (sum64 ((List.range (t.factor f).rows).map (fun k => mul64 (ja.at k i) (r.getD k 0)))))) }

/-- DAMP (R525): every diagonal element grows by λ × max(h, DAMP_FLOOR); the damped values are kept for R528. -/
def Work.damp (w : Work) (t : Tabl) (a : Nat) : Work :=
  let old := w.block t a a
  let m := Mat.of (t.dim a) (t.dim a) (fun i j =>
    if i = j then add64 (old.at i i) (mul64 w.lambda (Fmt.f64.max (old.at i i) (to64 t.dampFloor))) else old.at i j)
  { w.setBlock a a m with damped := tabSet w.damped a ((List.range (t.dim a)).map (fun i => m.at i i)) }

/-- UPDATE: A_ij −= L_ik L_jkᵀ, for LDLᵀ L_ik D_k L_jkᵀ. -/
def Work.update (w : Work) (t : Tabl) (i j k : Nat) : Work :=
  let li := w.block t i k
  let lj := w.block t j k
  let d := vecAt w.d k (t.dim k)
  let old := w.block t i j
  let prod := fun r c q =>
    if t.kind = 0 then mul64 (li.at r q) (lj.at c q) else mul64 (mul64 (li.at r q) (d.getD q 0)) (lj.at c q)
  w.setBlock i j (Mat.of (t.dim i) (t.dim j) (fun r c =>
    add64 (old.at r c) (neg64 (sum64 ((List.range (t.dim k)).map (prod r c))))))

/-- R528 to R531: a pivot, whether it was regularised and whether it was a NaN. -/
def pivot (t : Tabl) (h d : Nat) : Nat × Bool × Bool :=
  let tau := add64 (mul64 (to64 t.pivotRel) (Fmt.f64.abs h)) (to64 t.pivotAbs)
  if Fmt.f64.isNan d then (tau, true, true)
  else if t.kind = 0 then (if Fmt.f64.lt d tau then (tau, true, false) else (d, false, false))
  else if Fmt.f64.lt (Fmt.f64.abs d) tau then (if Fmt.f64.lt d 0 then (neg64 tau, true, false) else (tau, true, false))
  else (d, false, false)

/-- The state of a dense factorisation: the factored columns, each a list by row, D, and the counts of R532. -/
structure Dense where
  cols : Mat := []
  d : List Nat := []
  reg : Nat := 0
  nan : Nat := 0
  deriving DecidableEq, Repr

/-- An exact sum subtracted from a value, the value itself when the sum is empty. -/
def lessSum (a : Nat) (xs : List Nat) : Nat := if xs.isEmpty then a else add64 a (neg64 (sum64 xs))

/-- R526, R527: one column of the dense factorisation of block `m`. -/
def Dense.column (s : Dense) (t : Tabl) (n : Nat) (m : Mat) (damped : List Nat) (c : Nat) : Dense :=
  let l := fun r q => (s.cols.getD q []).getD r 0
  let sq := (List.range c).map (fun q =>
    if t.kind = 0 then mul64 (l c q) (l c q) else mul64 (mul64 (l c q) (l c q)) (s.d.getD q 0))
  let p := pivot t (damped.getD c 0) (lessSum (m.at c c) sq)
  let diag := if t.kind = 0 then Fmt.f64.sqrt p.1 else p.1
  let col := (List.range n).map (fun r =>
    if r < c then 0
    else if r = c then (if t.kind = 0 then diag else 0x3FF0000000000000)
    else
      let xs := (List.range c).map (fun q =>
        if t.kind = 0 then mul64 (l r q) (l c q) else mul64 (mul64 (l r q) (l c q)) (s.d.getD q 0))
      Fmt.f64.div (lessSum (m.at r c) xs) diag)
  { cols := s.cols ++ [col], d := s.d ++ [diag], reg := s.reg + b2n p.2.1, nan := s.nan + b2n p.2.2 }

/-- FACTOR: the dense factorisation of the diagonal block. -/
def Work.factor (w : Work) (t : Tabl) (j : Nat) : Work :=
  let n := t.dim j
  let m := w.block t j j
  let dm := vecAt w.damped j n
  let s := (List.range n).foldl (fun s c => s.column t n m dm c) ({} : Dense)
  let w1 := w.setBlock j j (Mat.of n n (fun r c => (s.cols.getD c []).getD r 0))
  { w1 with d := tabSet w1.d j s.d, reg := w1.reg + s.reg, nan := w1.nan + s.nan }

/-- One row of a TRSM, element by element, each stored in FP32 (R526, R527). -/
def trsmRow (t : Tabl) (diag : Mat) (d row : List Nat) : List Nat :=
  (List.range row.length).foldl (fun out c =>
    let xs := (List.range c).map (fun q =>
      if t.kind = 0 then mul64 (out.getD q 0) (diag.at c q)
      else mul64 (mul64 (out.getD q 0) (diag.at c q)) (d.getD q 0))
    let by_ := if t.kind = 0 then diag.at c c else d.getD c 0
    out ++ [store32 (Fmt.f64.div (lessSum (row.getD c 0) xs) by_)]) []

/-- TRSM: L_ij from A_ij and the factored diagonal block j. -/
def Work.trsm (w : Work) (t : Tabl) (i j : Nat) : Work :=
  let diag := w.block t j j
  let d := vecAt w.d j (t.dim j)
  w.setBlock i j ((w.block t i j).map (trsmRow t diag d))

/-- The forward vector of a variable: −g until an operation has changed it. -/
def Work.yOf (w : Work) (t : Tabl) (v : Nat) : List Nat :=
  (tabGet? w.y v).getD ((vecAt w.g v (t.dim v)).map neg64)

/-- FWD: L y = −g, block by block. -/
def Work.fwd (w : Work) (t : Tabl) (i j : Nat) : Work :=
  let l := w.block t i j
  let y := w.yOf t i
  if i = j then
    let out := (List.range (t.dim i)).foldl (fun out r =>
      let v := lessSum (y.getD r 0) ((List.range r).map (fun q => mul64 (l.at r q) (out.getD q 0)))
      out ++ [if t.kind = 0 then Fmt.f64.div v (l.at r r) else v]) []
    { w with y := tabSet w.y i out }
  else
    let yj := w.yOf t j
    { w with y := tabSet w.y i ((List.range (t.dim i)).map (fun r =>
        lessSum (y.getD r 0) ((List.range (t.dim j)).map (fun q => mul64 (l.at r q) (yj.getD q 0))))) }

/-- The right-hand side of the back substitution of a variable: y, for LDLᵀ divided by D. -/
def Work.rhs (w : Work) (t : Tabl) (v : Nat) : List Nat :=
  (tabGet? w.delta v).getD (
    let y := w.yOf t v
    if t.kind = 0 then y
    else (List.range (t.dim v)).map (fun q => Fmt.f64.div (y.getD q 0) ((vecAt w.d v (t.dim v)).getD q 0)))

/-- BACK: Lᵀ δ = y, block by block. -/
def Work.back (w : Work) (t : Tabl) (i j : Nat) : Work :=
  let l := w.block t i j
  let n := t.dim i
  if i = j then
    let b := w.rhs t i
    -- the vector from the last element to the first
    let out := (List.range n).foldl (fun out k =>
      let r := n - 1 - k
      let v := lessSum (b.getD r 0) ((rangeFrom (r + 1) (n - 1 - r)).map (fun q =>
        mul64 (l.at q r) (out.getD (q - r - 1) 0)))
      (if t.kind = 0 then Fmt.f64.div v (l.at r r) else v) :: out) []
    { w with delta := tabSet w.delta i out }
  else
    let di := vecAt w.delta i n
    let b := w.rhs t j
    { w with delta := tabSet w.delta j ((List.range (t.dim j)).map (fun r =>
        lessSum (b.getD r 0) ((List.range n).map (fun q => mul64 (l.at q r) (di.getD q 0))))) }

/-- δ of a variable; 0 of a FIXED one (R502). -/
def Work.deltaOf (w : Work) (t : Tabl) (v : Nat) : List Nat :=
  if t.fixed v then List.replicate (t.dim v) 0 else vecAt w.delta v (t.dim v)

/-- STEP: x += δ, or r_f += J_f δ. -/
def Work.stepOp (w : Work) (t : Tabl) (values : Tab (List Nat)) (o : TabOp) : Work :=
  if o.a = 0xFFFF then
    let f := o.stepFactor
    let fac := t.factor f
    let r := vecAt w.r f fac.rows
    { w with r := tabSet w.r f ((List.range fac.rows).map (fun k =>
        add64 (r.getD k 0) (sum64 ((fac.vars.zipIdx).flatMap (fun q =>
          let j := jacobian t values f q.2
          let d := w.deltaOf t q.1
          (List.range (t.dim q.1)).map (fun e => mul64 (j.at k e) (d.getD e 0))))))) }
  else
    let x := vecAt w.x o.a (t.dim o.a)
    let d := w.deltaOf t o.a
    { w with x := tabSet w.x o.a ((List.range (t.dim o.a)).map (fun e => add64 (x.getD e 0) (d.getD e 0))) }

/-- One operation of Table 10.5. -/
def Work.op (w : Work) (t : Tabl) (values : Tab (List Nat)) (o : TabOp) : Work :=
  match o.op with
  | 1 => w.form t values o
  | 2 => w.grad t values o
  | 3 => w.damp t o.a
  | 4 => w.update t o.a o.b o.c
  | 5 => w.factor t o.a
  | 6 => w.trsm t o.a o.b
  | 7 => w.fwd t o.a o.b
  | 8 => w.back t o.a o.b
  | _ => w.stepOp t values o

/-- R504: one iteration; H, g, y and δ start from zero, and λ moves on. -/
def Work.iterate (w : Work) (t : Tabl) (values : Tab (List Nat)) : Work :=
  let w1 := t.ops.foldl (fun w o => w.op t values o) { w with h := [], damped := [], d := [], g := [], y := [], delta := [] }
  { w1 with lambda := mul64 w1.lambda (to64 t.dampRatio) }

/-- R504, R507: a whole request of n iterations on the resident values. -/
def solve (t : Tabl) (values : Tab (List Nat)) (n : Nat) : Work :=
  let r0 := (List.range t.factors.length).map (fun f => (f, (vecAt values (8 * f) (t.factor f).rows).map to64))
  (List.range n).foldl (fun w _ => w.iterate t values) { lambda := to64 t.dampInit, r := r0 }

/-- COST of Table 10.9: ½ Σ ‖r‖², in factor order. -/
def Work.cost (w : Work) (t : Tabl) : Nat :=
  mul64 0x3FE0000000000000 (sum64 ((List.range t.factors.length).flatMap (fun f =>
    (vecAt w.r f (t.factor f).rows).map (fun v => mul64 v v))))

/-- STEP_NORM of Table 10.9: ‖δ‖² of the last iteration, in variable order. -/
def Work.stepNorm (w : Work) (t : Tabl) : Nat :=
  sum64 ((List.range t.vars.length).flatMap (fun v => (w.deltaOf t v).map (fun d => mul64 d d)))

/-- x in variable order, 0 for FIXED variables. -/
def Work.solution (w : Work) (t : Tabl) : List Nat :=
  (List.range t.vars.length).flatMap (fun v => if t.fixed v then List.replicate (t.dim v) 0 else vecAt w.x v (t.dim v))

/-! ### Cycles (R514, R534 to R537) -/

/-- The blocks that a tablature keeps outside the store when `n` slots are missing, in the order of R514: Jacobian
blocks from the end of the factor table, last variable first (DEDUCED), then L blocks from the end of the L table.
Keys are 2 × (8 × factor + part) for Jacobian and 2 × blockKey + 1 for L blocks. -/
def Tabl.outside (t : Tabl) (n : Nat) : List Nat :=
  let js := ((t.factors.zipIdx).flatMap (fun q => (q.1.vars.zipIdx).map (fun u =>
    (2 * (8 * q.2 + u.2 + 1), pieces q.1.rows * pieces (t.dim u.1))))).reverse
  let ls := (t.blocks.map (fun b => (2 * blockKey b.1 b.2 + 1, pieces (t.dim b.1) * pieces (t.dim b.2)))).reverse
  ((js ++ ls).foldl (fun (acc : List Nat × Nat) k => if acc.2 < n then (k.1 :: acc.1, acc.2 + k.2) else acc) ([], 0)).1

/-- The blocks that an operation touches, in the keys of `outside`. -/
def Tabl.touches (t : Tabl) (o : TabOp) : List Nat :=
  let l := fun i j => 2 * blockKey i j + 1
  match o.op with
  | 1 => [2 * (8 * o.factor + o.b % 256 + 1), 2 * (8 * o.factor + o.b / 256 + 1), l (t.opVar o false) (t.opVar o true)]
  | 2 => [2 * (8 * o.factor + o.b % 256 + 1)]
  | 4 => [l o.a o.b, l o.a o.c, l o.b o.c]
  | 6 | 7 | 8 => [l o.a o.b]
  | 9 => if o.a = 0xFFFF then
      (List.range (t.factor o.stepFactor).vars.length).map (fun p => 2 * (8 * o.stepFactor + p + 1)) else []
  | _ => []

/-- R534 to R537: the cycles of a request, and those of its operations on overflow blocks. -/
def Tabl.cycles (t : Tabl) (overflow merged n : Nat) : Nat × Nat :=
  let out := t.outside overflow
  let slow := t.ops.filter (fun o => (t.touches o).any out.contains)
  let extra := (slow.map t.cost).foldl (· + ·) 0
  (Nat.max 256 (128 + 4 * merged + 4 * t.vars.length + n * (t.estCycles + 3 * extra)), n * (4 * extra))

end Sys2Proof.Machine
end

