-- ==== Sys2Proof/Machine/Solver.lean ====
section
/-! DEFINITION. The solver's lanes and store: validation and residency of tablatures, requests, their start, result,
abandonment and retirement (R505 to R522, R534 to R551, R778). -/

namespace Sys2Proof.Machine

/-- Entry `s` of lane l (Table 10.11). -/
def laneKey (l s : Nat) : Nat := ent (0x3810 + l) s

def Chip.lane (c : Chip) (l : Nat) : Lane := tabGet {} c.lanes l
def Chip.setLane (c : Chip) (l : Nat) (x : Lane) : Chip := { c with lanes := tabSet c.lanes l x }
def Chip.tablature? (c : Chip) (t : Nat) : Option Tablature := tabGet? c.tablatures t
def Chip.setTablature (c : Chip) (t : Nat) (x : Tablature) : Chip := { c with tablatures := tabSet c.tablatures t x }

/-- The run number of a lane's request among transient copies. -/
def laneRun (l : Nat) : Nat := l

/-- R539, R554: lanes and arrays make no progress in P6, and none in P7. -/
def Chip.computeGated (c : Chip) : Bool := c.gov.p6 || c.gov.p7

/-! ### Shares and residency (R512 to R516) -/

/-- R513: V0 gives the shares of V1 to V15, and has the rest. -/
def Chip.share (c : Chip) (v : Nat) : Nat :=
  if v = 0 then
    c.dget (ent 0x3800 1) - ((rangeFrom 1 15).map (fun w => c.dget (ent 0x3800 (3 + w)))).foldl (· + ·) 0
  else c.dget (ent 0x3800 (3 + v))

/-- The slots that the resident tablatures of a voice hold in the store (MY_USED). -/
def Chip.slotsUsed (c : Chip) (v : Nat) : Nat :=
  c.tablatures.foldl (fun n p => if p.2.voice = v then n + p.2.slots else n) 0

/-- The slots of the tablatures affine to a lane (RESIDENT_SLOTS). -/
def Chip.laneSlots (c : Chip) (l : Nat) : Nat :=
  c.tablatures.foldl (fun n p => if p.2.lane = l then n + p.2.slots else n) 0

/-- The lanes in service. -/
def Chip.liveLanes (c : Chip) : List Nat := (List.range 4).filter (fun l => !c.isRetired (.lane l))

/-- R512: the affine lane that the engine gives: the named one if it is in service, else the one with the fewest
resident slots, the lowest-numbered among equals. -/
def Chip.chooseLane (c : Chip) (wish : Nat) : Option Nat :=
  let live := c.liveLanes
  if live.contains wish then some wish
  else match live with
    | [] => none
    | a :: r => some (r.foldl (fun best l => if c.laneSlots l < c.laneSlots best then l else best) a)

/-- The number that marks a tablature's overflow tensor among the reservations. -/
def overflowWho (t : Nat) : Nat := 0x10000000 + t

/-- Slots of a tablature that must stay in the store: its diagonal blocks (R514). -/
def Tabl.diagonalSlots (t : Tabl) : Nat := (t.vars.map (fun v => 2 * pieces v.dim * pieces v.dim)).foldl (· + ·) 0

/-- R513, R514: slots in the store and in the overflow tensor, if the voice's share and quota hold them. -/
def Chip.splitSlots (c : Chip) (v : Nat) (t : Tabl) : Option (Nat × Nat) :=
  let room := c.share v - c.slotsUsed v
  let n := t.slots
  if n ≤ room then some (n, 0)
  else
    let spill := n - room
    if t.overflowOk && t.diagonalSlots ≤ room && spill ≤ 58254 && !c.refuses v 1 (spill * 144) then some (room, spill)
    else none

/-- R508: validation of a tablature by voice v; 0 is good. -/
def Chip.validateTablature (c : Chip) (v t : Nat) : Nat :=
  let bs := c.contents t
  let tb := Tabl.ofBytes bs
  if c.dget (ent 0x1018 2) < fieldAt bs 6 1 then 0x0A090001
  else if !tb.goodFields then 0x0A030001
  else if !goodImage bs true then 0x0A030003
  else if (c.splitSlots v tb).isNone then 0x0A050001
  else if !goodImageCrc bs then 0x0A0A0001 else 0

/-- The store banks that hold `slots` slots (R778, Table 16.2: a bank has 6,144): no rule places them, so the free mask `m`
chooses among the banks in service, made up from the lowest where it names too few to hold them. -/
def Chip.storeBanksFor (c : Chip) (slots m : Nat) : Nat :=
  let live := (List.range 16).filter (fun b => !c.isRetired (.storeBank b))
  let chosen := live.filter (fun b => bit m b)
  let more := (live.filter (fun b => !bit m b)).take ((slots + 6143) / 6144 - chosen.length)
  (chosen ++ more).foldl (fun a b => a + 2 ^ b) 0

/-- R512 to R514, R547: a validated tablature becomes resident on a lane, with no last solution. -/
def Chip.makeResident (c : Chip) (v t lane : Nat) : Chip :=
  let bs := c.contents t
  let tb := Tabl.ofBytes bs
  let (slots, spill) := (c.splitSlots v tb).getD (tb.slots, 0)
  let (c1, banks) := c.fresh (.banks t)
  let c2 := if spill = 0 then c1 else
    let c3 := c1.evictFor v 1 (charge 1 (spill * 144))
    { c3 with reserved := c3.reserved ++ [⟨overflowWho t, v, 1, spill * 144⟩] }
  (c2.useTensor t).setTablature t { voice := v, lane, image := bs, slots, overflow := spill, banks := c.storeBanksFor slots (banks % 0x10000) }

/-- R516: a tablature leaves the store. -/
def Chip.evictTablature (c : Chip) (t : Nat) : Chip :=
  { c with tablatures := tabDel c.tablatures t, reserved := c.reserved.filter (fun r => r.who ≠ overflowWho t) }

/-- A request of the tablature is running or pending on a lane. -/
def Chip.tablatureBusy (c : Chip) (t : Nat) : Bool :=
  c.lanes.any (fun (p : Nat × Lane) => (p.2.running.toList ++ p.2.waiting.toList).any (fun r => r.tab == t))

/-- The checks of a write to EVICT (R516); 0 is good. -/
def Chip.evictCheck (c : Chip) (v t : Nat) : Nat :=
  if c.tablatureBusy t then 0x0A040001
  else match c.tablature? t with
    | some x => if x.voice = v then 0 else 0x0A030001
    | none => 0x0A030001

/-! ### Requests on a lane (R520 to R522) -/

/-- R521: the order of requests that reach a pending slot in one update. -/
def SolveReq.rank (r : SolveReq) : Nat := 4 * r.voice + (if r.cue then 0 else if r.est.isNone then 1 else 2)

/-- A request leaves its lane with a completion, if a command made it; its due cue is cancelled. -/
def Chip.closeRequest (c : Chip) (r : SolveReq) (status info : Nat) : Chip :=
  let c1 := match r.slot with
    | some s => if (c.cue s).armed then c.freeSlot s else c
    | none => c
  if r.cue || r.est.isSome then c1 else c1.complete r.voice r.tag r.opcode r.cookie r.irq status info 0

/-- Table 6.12 (INFO, the lane of a solve) and R544: INFO of a solve's completion holds its lane, and in bit 8 whether the
request had started. DEDUCED for the errors of a placed request (log 54). -/
def laneInfo (l : Nat) (r : SolveReq) : Nat := l + 0x100 * b2n r.started

/-- R520: a request is superseded in a lane's pending slot. -/
def Chip.supersede (c : Chip) (l : Nat) (r : SolveReq) : Chip :=
  (((c.closeRequest r 0x0C020001 (laneInfo l r)).dinc (laneKey l 10)).dinc (ent (vIdx r.voice 3) 4))

/-- R520, R521: a request reaches its lane. -/
def Chip.offerRequest (c : Chip) (l : Nat) (r : SolveReq) : Chip :=
  let x := c.lane l
  let c1 := c.dinc (laneKey l 7)
  match x.running, x.waiting with
  | none, _ => c1.setLane l { x with running := some r }
  | some _, none => c1.setLane l { x with waiting := some r }
  | some _, some old =>
    if old.admitted = c.now ∧ r.rank < old.rank then c1.supersede l r
    else (c1.supersede l old).setLane l { x with waiting := some r }

/-- The running request has ended: the pending one follows it. -/
def Chip.nextRequest (c : Chip) (l : Nat) : Chip :=
  let x := c.lane l
  (c.endTransients (laneRun l)).setLane l { running := x.waiting, waiting := none }

/-- R522: a RUN_TABLATURE cue of voice v. -/
def Chip.cueTablature (c : Chip) (v t : Nat) : Chip :=
  match c.tablature? t with
  | none => c
  | some x =>
    if c.isRetired (.lane x.lane) then c
    else c.offerRequest x.lane { tab := t, voice := v, result := x.result, iterations := x.iterations, cue := true,
                                 admitted := c.now, born := c.resets }

/-! ### RUN_TABLATURE and SOLVE_DELTA -/

/-- What the result tensor of a tablature must hold (R548). -/
def Tabl.resultBytes (t : Tabl) : Nat := 64 + 4 * (t.vars.map (·.dim)).foldl (· + ·) 0

/-- The checks of a RUN_TABLATURE or SOLVE_DELTA in the order of Table 4.7; 0 is good. -/
def Chip.solveCheck (c : Chip) (v : Nat) (a : Admitted) : Nat :=
  let tab := a.arg 8 4
  let lane := a.arg 0x0C 1
  let iters := a.arg 0x0D 1
  let due := a.arg 0x10 8
  let blocks := a.arg 0x18 4
  let result := a.arg 0x1C 4
  let early := [c.readSince v tab a.born, if blocks = 0 then 0 else c.readSince v blocks a.born, c.writeCheck v result]
  let range := if (lane < 4 ∨ lane = 0xFF) ∧ 1 ≤ iters ∧ iters ≤ 16 ∧ !(due ≠ 0 ∧ c.badTimes 0x05 due 0 0) then 0
    else 0x0A030001
  let gone := if c.liveLanes.isEmpty then 0x0A070001 else 0
  let code := firstCode (early ++ [range, gone])
  -- the checks that read the tensors need them to be there and readable
  if early.any (· ≠ 0) then code
  else
    let v0 := match c.tablature? tab with
      | some x => if lane = 0xFF ∨ lane = x.lane then 0 else 0x0A030003
      | none => c.validateTablature v tab
    let tb := Tabl.ofBytes (match c.tablature? tab with
      | some x => x.image
      | none => c.contents tab)
    let b := if blocks = 0 ∨ (v0 ≠ 0 ∧ (c.tablature? tab).isNone) then 0 else blockTensorCheck tb tab (c.contents blocks)
    let size := match c.tensor? result with
      | some x => if (v0 = 0 ∨ (c.tablature? tab).isSome) ∧ x.size < tb.resultBytes then 0x0A030003 else 0
      | none => 0
    let cues := if due ≠ 0 ∧ (c.limit v 4 ≤ c.cuesUsed v ∨ c.freeVoiceSlot.isNone) then 0x0A050001 else 0
    firstCode [code, v0, b, size, cues]

/-- The command becomes a request: the tablature becomes resident, the due epoch arms its cue, and the request reaches
its lane (R512, R517, R520, R540). -/
def Chip.acceptSolve (c : Chip) (v : Nat) (a : Admitted) : Chip :=
  let tab := a.arg 8 4
  let due := a.arg 0x10 8
  let c0 := c.takeUp v
  let c1 := match c0.tablature? tab with
    | some _ => c0
    | none => c0.makeResident v tab ((c0.chooseLane (a.arg 0x0C 1)).getD 0)
  let lane := ((c1.tablature? tab).map (·.lane)).getD 0
  let blocks := a.arg 0x18 4
  let r : SolveReq :=
    { tab, voice := v, tag := a.tag, opcode := a.opcode, cookie := a.cookie, irq := a.irq, due,
      result := a.arg 0x1C 4, iterations := a.arg 0x0D 1, blocks, replace := a.opcode == 2 && blocks != 0,
      admitted := c.now, born := a.born }
  let c2 := (c1.ledgerName v .ring a.tag ([tab, r.result] ++ (if blocks = 0 then [] else [blocks])))
  let c3 := match c2.tablature? tab with
    | some x => c2.setTablature tab { x with result := r.result, iterations := r.iterations }
    | none => c2
  if due = 0 then c3.offerRequest lane r
  else
    let slot := c3.freeVoiceSlot
    match c3.armSolveDue v lane due (lane + 0x10000 * a.tag) with
    | some c4 => c4.offerRequest lane { r with slot }
    | none => c3.complete v a.tag a.opcode a.cookie a.irq 0x0A050001 0 0

/-- RUN_TABLATURE and SOLVE_DELTA (R508, R517 to R520); without an entry for its due cue the command waits (R540). -/
def Chip.runSolve (c : Chip) (v opcode : Nat) : Chip :=
  match c.admittedAs v opcode with
  | none => c
  | some a =>
    let code := c.solveCheck v a
    if code ≠ 0 then c.finish v a code 0 0
    else if a.arg 0x10 8 ≠ 0 ∧ !c.ledgerRoom v then c
    else c.acceptSolve v a

/-! ### Start, result and abandonment -/

/-- The run or request ends with a status and without a result. -/
def Chip.failRequest (c : Chip) (l : Nat) (r : SolveReq) (status : Nat) : Chip :=
  (c.closeRequest r status (laneInfo l r)).nextRequest l

/-- R519: a voice's request starts on its lane: its space exists, its blocks are whole in tier 1, and they are merged. -/
def Chip.startRequest (c : Chip) (l : Nat) (r : SolveReq) : Chip :=
  match c.tablature? r.tab with
  | none => c.failRequest l r 0x0A030001
  | some x =>
    let lost := firstCode [c.writeCheck r.voice r.result, if r.blocks = 0 then 0 else c.readSince r.voice r.blocks r.born]
    if lost ≠ 0 then c.failRequest l r lost
    else
      let (c1, space) := c.resultSpace r.result r.voice (laneRun l)
      if space = 2 then c1.failRequest l r 0x0A050001
      else if space = 1 || (r.blocks != 0 && !c1.hasCopy r.blocks 1 (laneRun l)) then c1
      else
        let bs := if r.blocks = 0 then [] else c1.contents r.blocks
        let es := blockEntries (fieldAt bs 8 4) (bs.drop 32)
        let base := if r.replace then [] else x.values
        let c2 := (c1.useTensor r.blocks).setTablature r.tab { x with values := mergeBlocks base es }
        c2.setLane l { c2.lane l with running := some { r with started := true, merged := blockSlots es } }

/-- The start of a lane's request; an estimator's merges into values that only the instance knows (log entry 11). -/
def Chip.laneStart (c : Chip) (l : Nat) : Chip :=
  if c.computeGated || c.isRetired (.lane l) then c
  else match (c.lane l).running with
    | none => c
    | some r =>
      if r.started then c
      else if r.est.isSome then c.setLane l { c.lane l with running := some { r with started := true } }
      else c.startRequest l r

/-- R541: the request's due cue fires in this update. -/
def Chip.dueNow (c : Chip) (r : SolveReq) : Bool :=
  match r.slot with
  | some s => c.dueSlots.contains s
  | none => false

/-- The fields of Table 10.9 for a solution; `state`, and the positions PUBLISHED and SOURCE. -/
def Solution.bytes (s : Solution) (state tab vars extrap published source : Nat) : List Byte :=
  leBytes 4 0x544C5352 ++ leBytes 1 state ++ leBytes 1 s.iterations ++ leBytes 1 s.lane ++ leBytes 1 s.flags ++
  leBytes 4 tab ++ leBytes 2 vars ++ leBytes 2 extrap ++ leBytes 8 published ++ leBytes 8 source ++
  leBytes 4 s.reg ++ leBytes 4 s.cycles ++ leBytes 8 s.cost ++ leBytes 8 s.step ++ leBytes 8 0 ++
  s.x.flatMap (fun v => leBytes 4 (to32 v))

/-- The counters of a lane after a solved request. -/
def Chip.countSolved (c : Chip) (l reg nan cycles spill : Nat) : Chip :=
  ((((((c.dinc (laneKey l 8)).dadd (laneKey l 11) reg).dadd (laneKey l 12) nan).dadd64 (laneKey l 13) cycles).dadd64
    (laneKey l 14) spill).dset (laneKey l 15) (cycles % m32))

/-- A voice's request writes RESULT as SOLVED (R504, R541, Table 10.9). -/
def Chip.writeSolved (c : Chip) (l : Nat) (r : SolveReq) (x : Tablature) : Chip :=
  let tb := Tabl.ofBytes x.image
  let w := solve tb x.values r.iterations
  let (cycles, spill) := tb.cycles x.overflow r.merged r.iterations
  let sol : Solution :=
    { iterations := r.iterations, lane := l, published := c.posNat, reg := w.reg % m32, cycles := cycles % m32,
      flags := b2n (w.reg != 0) + 2 * b2n (w.nan != 0) + 4 * b2n (x.overflow != 0),
      cost := w.cost tb, step := w.stepNorm tb, x := w.solution tb }
  let c1 := c.writeResult r.result (laneRun l) (sol.bytes 1 r.tab tb.vars.length 0 c.posNat c.posNat)
  let c2 := c1.setTablature r.tab { x with last := some sol, extrap := 0 }
  ((c2.countSolved l w.reg w.nan cycles spill).closeRequest r 0 (l + 0x100)).nextRequest l

/-- Whether the lane's running request can write its result now: it has started, its control-core evaluations are done
(R538), its lane runs, and its due cue does not fire in this update (R541). -/
def Chip.canWrite (c : Chip) (l : Nat) (r : SolveReq) : Bool :=
  r.started && !c.computeGated && !c.isRetired (.lane l) && !c.dueNow r &&
  (r.est.isNone || decide (r.iterations ≤ r.evals + 1))

/-- The end of a lane's request. The second value is an estimator's request that ended solved. -/
def Chip.laneResult (c : Chip) (l : Nat) : Chip × Option SolveReq :=
  match (c.lane l).running with
  | none => (c, none)
  | some r =>
    if !c.canWrite l r then (c, none)
    else if let some (i, _, _) := r.est then
      -- REG_COUNT, NaN pivots and cycles of a problem that only the instance knows are free values
      let (c1, reg) := c.fresh (.estSolve i)
      let (c2, nan) := c1.fresh (.estSolve i)
      let (c3, cycles) := c2.fresh (.estSolve i)
      let (c4, spill) := c3.fresh (.estSolve i)
      (((c4.countSolved l (reg % m32) (nan % m32) cycles spill).closeRequest r 0 0).nextRequest l, some r)
    else match c.tablature? r.tab with
      | none => (c.failRequest l r 0x0A030001, none)
      | some x =>
        let code := c.writeCheck r.voice r.result
        if code ≠ 0 then (c.failRequest l r code, none) else (c.writeSolved l r x, none)

/-- R545: the RESULT of an abandoned voice request. The fields that belong to a solution which does not exist are free
values. -/
def Chip.writeAbandoned (c : Chip) (l : Nat) (r : SolveReq) (x : Tablature) : Chip :=
  let vars := (Tabl.ofBytes x.image).vars
  match x.last with
  | some s =>
    let n := Nat.min 65535 (x.extrap + 1)
    (c.writeResult r.result (laneRun l) (s.bytes 2 r.tab vars.length n r.due s.published)).setTablature r.tab
      { x with extrap := n }
  | none =>
    let (c1, a) := c.fresh (.noEstimate r.tab)
    let (c2, b) := c1.fresh (.noEstimate r.tab)
    let (c3, d) := c2.fresh (.noEstimate r.tab)
    let (c4, e) := c3.fresh (.noEstimate r.tab)
    let (c5, f) := c4.fresh (.noEstimate r.tab)
    let n := (vars.map (·.dim)).foldl (· + ·) 0
    let sol : Solution :=
      { iterations := a % 256, lane := a / 256 % 256, flags := a / 65536 % 8, published := 0,
        reg := b % m32, cycles := b / m32 % m32, cost := d % m64, step := e % m64, x := List.replicate n 0 }
    c5.writeResult r.result (laneRun l) (sol.bytes 0 r.tab vars.length x.extrap c.posNat (f % m64))

/-- R287, R542 to R546: the SOLVE_DUE cue of a request fires, and the request completes in this update. Its RESULT is written
where the tensor can be written and its space exists (log entry 54). `slot` is the cue's slot. The second value is an estimator's
request that ended without a result. -/
def Chip.abandon (c : Chip) (l slot : Nat) : Chip × Option SolveReq :=
  let x := c.lane l
  let mine : Option SolveReq → Option SolveReq := fun q => match q with
    | some r => if r.slot = some slot then some r else none
    | none => none
  match mine x.running, mine x.waiting with
  | none, none => (c, none)
  | some r, _ | none, some r =>
    let c1 := c.dinc (laneKey l 9)
    let free := fun (c : Chip) =>
      if (mine x.running).isSome then c.nextRequest l else c.setLane l { c.lane l with waiting := none }
    if r.est.isSome then (free c1, some r)
    else
      let info := laneInfo l r
      let r' := { r with slot := none }
      match c1.tablature? r.tab with
      | none => (free (c1.closeRequest r' 0x0C020002 info), none)
      | some t =>
        let (c2, space) := c1.resultSpace r.result r.voice (laneRun l)
        let c3 := if c1.writeCheck r.voice r.result = 0 ∧ space = 0 then c2.writeAbandoned l r t else c1
        (free (c3.closeRequest r' 0x0C020002 info), none)

/-! ### Retirement, reset and release -/

/-- R549, R550: lane l has retired; of two requests admitted in one update for one pending slot, the order is that of R521. The estimator requests that ended without a result are answered. -/
def Chip.laneRetired (c : Chip) (l : Nat) : Chip × List SolveReq :=
  let x := c.lane l
  -- every affine tablature gets a new lane under R512, in ascending identifier
  let c1 := (c.tablatures.filter (fun p => p.2.lane == l)).foldl (fun c p =>
    match c.chooseLane 0xFF with
    | some k => c.setTablature p.1 { p.2 with lane := k }
    | none => c) c
  let c2 := match x.running with
    | some r => c1.closeRequest r 0x0A070001 (laneInfo l r)
    | none => c1
  let c3 := (c2.endTransients (laneRun l)).setLane l {}
  let ended := x.running.toList.filter (·.est.isSome)
  match x.waiting with
  | none => (c3, ended)
  | some r =>
    match c3.chooseLane 0xFF with
    | none => (c3.closeRequest r 0x0A070001 (laneInfo l r), ended ++ (if r.est.isSome then [r] else []))
    | some k0 =>
      let k := match c3.tablature? r.tab with
        | some t => t.lane
        | none => k0
      let y := c3.lane k
      match y.running, y.waiting with
      | none, _ => (c3.setLane k { y with running := some r }, ended)
      | some _, none => (c3.setLane k { y with waiting := some r }, ended)
      | some _, some old =>
        if old.admitted < r.admitted ∨ (old.admitted = r.admitted ∧ old.rank ≤ r.rank) then
          ((c3.supersede k old).setLane k { y with waiting := some r }, ended ++ (if old.est.isSome then [old] else []))
        else (c3.supersede k r, ended ++ (if r.est.isSome then [r] else []))

/-- R778: a store bank has retired: STORE_SLOTS falls, its tablatures leave, the shares follow R628. -/
def Chip.storeBankRetired (c : Chip) (b : Nat) : Chip :=
  let c1 := (c.tablatures.filter (fun p => bit p.2.banks b && p.2.slots != 0)).foldl (fun c p => c.evictTablature p.1) c
  let total := c1.dget (ent 0x3800 1) - 6144
  let c2 := c1.dset (ent 0x3800 1) total
  let s := ((rangeFrom 1 15).map (fun w => c2.dget (ent 0x3800 (3 + w)))).foldl (· + ·) 0
  if s ≤ total then c2
  else c2.each (rangeFrom 1 15) (fun c w =>
    c.dset (ent 0x3800 (3 + w)) (c2.dget (ent 0x3800 (3 + w)) * total / s))

/-- Voice v's requests end without completion, and their cues are cancelled (R305, R780). Requests of estimator
instances bound to the voice end with them. -/
def Chip.dropRequests (c : Chip) (keep : SolveReq → Bool) : Chip :=
  c.each (List.range 4) (fun c l =>
    let x := c.lane l
    let drop := fun (c : Chip) (r : SolveReq) =>
      let c1 := match r.slot with
        | some s => if (c.cue s).armed then c.freeSlot s else c
        | none => c
      if r.cue || r.est.isSome then c1 else c1.ledgerDrop r.voice .ring r.tag
    let c1 := match x.running with
      | some r => if keep r then c else (drop c r).nextRequest l
      | none => c
    let y := c1.lane l
    -- the request that has moved up, or the one still pending
    let c2 := match y.running with
      | some r => if keep r then c1 else (drop c1 r).nextRequest l
      | none => c1
    match (c2.lane l).waiting with
    | some r => if keep r then c2 else (drop c2 r).setLane l { c2.lane l with waiting := none }
    | none => c2)

/-- R305, R308, R516: the tablatures of voice v leave the store; one that another voice's request uses leaves after it. -/
def Chip.dropTablatures (c : Chip) (v : Nat) : Chip :=
  (c.tablatures.filter (fun p => p.2.voice == v)).foldl (fun c p =>
    if c.tablatureBusy p.1 then c.setTablature p.1 { p.2 with leaving := true } else c.evictTablature p.1) c

end Sys2Proof.Machine
end

