-- ==== Sys2Proof/Machine/Arrays.lean ====
section
/-! DEFINITION. Passages on the tensor arrays: loading, requests, placement, grants, operators and completion
(R553 to R556, R569 to R588, R617, R618). -/

namespace Sys2Proof.Machine

/-- Entry `s` of array a (Table 11.11). -/
def arrayKey (a s : Nat) : Nat := ent (0x4000 + a) s

def Chip.passage? (c : Chip) (t : Nat) : Option Passage := tabGet? c.passages t
def Chip.setPassage (c : Chip) (t : Nat) (x : Passage) : Chip := { c with passages := tabSet c.passages t x }

/-- The arrays in service. -/
def Chip.liveArrays (c : Chip) : List Nat := (List.range 16).filter (fun a => !c.isRetired (.array a))

/-- R570: the passage is loaded: its tensor still has the generation that was validated. -/
def Chip.loaded? (c : Chip) (t : Nat) : Option Passage :=
  match c.passage? t, c.tensor? t with
  | some p, some x => if x.gen = p.gen ∧ x.doom.isNone then some p else none
  | _, _ => none

/-! ### Validation and resolution (R569 to R572) -/

/-- R569: validation of a passage by voice v; 0 is good. -/
def Chip.validatePassage (c : Chip) (v : Nat) (bs : List Byte) : Nat :=
  let p := Pass.ofBytes bs
  if c.dget (ent 0x1018 2) < fieldAt bs 6 1 then 0x0A090001
  else if p.ops.any (fun o => !Fmt.f32.isFinite o.scale) then 0x0A030001
  else if !goodPassage bs then 0x0A030003
  else if c.quota v 0 * 1024 < fieldAt bs 0x10 4 then 0x0A050001
  else if !goodPassageCrc bs then 0x0A0A0001 else 0

/-- The entries of a binding table: slot, reserved field, tensor. -/
def bindingEntries (bs : List Byte) : List (Nat × Nat × Nat) :=
  (passRows bs 16 8 (Nat.min (fieldAt bs 8 4) (bs.length / 8))).map
    (fun r => (fieldAt r 0 2, fieldAt r 2 2, fieldAt r 4 4))

/-- R572: the header or the slot numbers of a binding table do not match the passage. Only INPUT, OUTPUT and WEIGHT
slots are resolved. -/
def badBinding (p : Pass) (t : Nat) (bs : List Byte) : Bool :=
  let n := fieldAt bs 8 4
  decide (bs.length < 16) || fieldAt bs 0 4 != 0x444E4942 || fieldAt bs 4 4 != t || fieldAt bs 12 4 != 0 ||
  decide (bs.length < 16 + 8 * n) ||
  (bindingEntries bs).any (fun e => decide (p.slots.length ≤ e.1) || e.2.1 != 0 || (p.slot e.1).role == 3)

/-- R572: the resolved tensors by slot; 0 for INTERNAL slots. -/
def resolveSlots (p : Pass) (bind : List (Nat × Nat × Nat)) : List Nat :=
  p.slots.zipIdx.map (fun q =>
    if q.1.role = 3 then 0
    else match (bind.reverse).find? (fun e => e.1 == q.2) with
      | some e => e.2.2
      | none => q.1.dflt)

/-- R572: the check of one resolved slot. -/
def Chip.slotCheck (c : Chip) (v : Nat) (s : PassSlot) (t born : Nat) : Nat :=
  if s.role = 3 then 0
  else
    let use := if s.role = 1 then c.writeCheck v t else c.readSince v t born
    if use ≠ 0 then use
    else match c.tensor? t with
      | some x => if x.size = s.bytes then 0 else 0x0A030002
      | none => 0x0A030001

/-- The checks of a RUN_PASSAGE in the order of Table 4.7; 0 is good. -/
def Chip.passageCheck (c : Chip) (v : Nat) (a : Admitted) : Nat :=
  let t := a.arg 8 4
  let gen := a.arg 0x0C 2
  let bind := a.arg 0x10 4
  let early := [c.readSince v t a.born, if bind = 0 then 0 else c.readSince v bind a.born]
  let gone := if c.liveArrays.isEmpty then 0x0A070001 else 0
  if early.any (· ≠ 0) then firstCode (gone :: early)
  else
    let bs := c.contents t
    let g := match c.tensor? t with
      | some x => if gen ≠ 0 ∧ gen ≠ x.gen then 0x0A030003 else 0
      | none => 0
    let val := match c.loaded? t with
      | some _ => 0
      | none => c.validatePassage v bs
    if val ≠ 0 then firstCode [gone, g, val]
    else
      let p := Pass.ofBytes bs
      let bt := if bind = 0 then [] else c.contents bind
      if bind ≠ 0 ∧ badBinding p t bt then firstCode [gone, g, 0x0A030003]
      else
        let ts := resolveSlots p (bindingEntries bt)
        firstCode ([gone, g] ++ (p.slots.zip ts).map (fun q => c.slotCheck v q.1 q.2 a.born))

/-! ### Requests (R573, R574) -/

/-- R573: the order of requests that reach a pending slot in one update. -/
def PassRun.rank (r : PassRun) : Nat := 4 * r.voice + (if r.cue then 0 else if r.est.isNone then 1 else 2)

/-- The model of a run of an estimator instance among the image's defaults (10 descriptor, 11 place). -/
def modelSub (desc : Bool) : Nat := if desc then 10 else 11

/-- A run or request of a voice's command completes with a status; one of an estimator instance gives up its ledger entry. -/
def Chip.closeRun (c : Chip) (r : PassRun) (status info data : Nat) : Chip :=
  match r.est with
  | some (i, _, _) => c.ledgerDrop r.voice (.estimator i) 0x4000
  | none => if r.cue then c else c.complete r.voice r.tag 1 r.cookie r.irq status info data

/-- R284: a request is superseded. -/
def Chip.supersedeRun (c : Chip) (r : PassRun) : Chip := (c.closeRun r 0x0C020001 0 0).dinc (ent (vIdx r.voice 3) 4)

/-- R573: a request reaches its passage. -/
def Chip.offerRun (c : Chip) (t : Nat) (r : PassRun) : Chip :=
  match c.passage? t with
  | none => c
  | some p => match p.running, p.waiting with
    | none, _ => c.setPassage t { p with running := some r }
    | some _, none => c.setPassage t { p with waiting := some r }
    | some _, some old =>
      if old.admitted = c.now ∧ r.rank < old.rank then c.supersedeRun r
      else (c.supersedeRun old).setPassage t { p with waiting := some r }

/-- R570: the validated image of a passage is taken. -/
def Chip.loadPassage (c : Chip) (v t : Nat) : Chip :=
  match c.loaded? t, c.tensor? t with
  | none, some x =>
    let old := (c.passage? t).getD { voice := v, gen := 0, image := [] }
    c.setPassage t { old with voice := v, gen := x.gen, image := c.contents t }
  | _, _ => c

/-- RUN_PASSAGE (R569, R571 to R573). -/
def Chip.runPassage (c : Chip) (v : Nat) : Chip :=
  match c.admittedAs v 1 with
  | none => c
  | some a =>
    let code := c.passageCheck v a
    if code ≠ 0 then c.finish v a code 0 0
    else
      let t := a.arg 8 4
      let bind := a.arg 0x10 4
      let c1 := (c.takeUp v).loadPassage v t
      let p := Pass.ofBytes (c.contents t)
      let ts := resolveSlots p (bindingEntries (if bind = 0 then [] else c.contents bind))
      let r : PassRun := { voice := v, tag := a.tag, cookie := a.cookie, irq := a.irq, admitted := c.now, born := a.born,
                           image := c.contents t, tensors := ts }
      (c1.ledgerName v .ring a.tag (t :: ts.filter (· ≠ 0) ++ (if bind = 0 then [] else [bind]))).offerRun t r

/-- R574: a RUN_PASSAGE cue of voice v. A slot whose default tensor the voice cannot use ends the request, which writes
no completion. -/
def Chip.cuePassage (c : Chip) (v t : Nat) : Chip :=
  match c.loaded? t with
  | none => c
  | some p =>
    let q := Pass.ofBytes p.image
    let ts := resolveSlots q []
    if c.liveArrays.isEmpty || (q.slots.zip ts).any (fun s => c.slotCheck v s.1 s.2 c.resets != 0) then c
    else c.offerRun t { voice := v, cue := true, admitted := c.now, born := c.resets, image := p.image, tensors := ts }

/-! ### Placement (R575, R576, R617, R618) -/

/-- Free bytes of an array's tier 0, with the homes placed so far. -/
def Chip.freeTier0 (c : Chip) (a : Nat) (extra : List (Nat × Nat × Nat)) : Nat :=
  0x100000 - ((c.blocked 0 a extra).map (·.2)).foldl (· + ·) 0

/-- The lowest-numbered quadrant of an array that no quadrant home holds. -/
def Chip.freeQuadrant (c : Chip) (a : Nat) (placed : List HomePlace) : Option Nat :=
  let held := (c.passages.flatMap (fun (p : Nat × Passage) => p.2.running.toList.flatMap (·.homes))) ++ placed
  (List.range 4).find? (fun q => !held.any (fun h => h.array == a && h.quadrant == some q))

/-- The in-service arrays that can hold a home, and where. -/
def Chip.homeSpots (c : Chip) (h : PassHome) (placed : List HomePlace) : List (Nat × HomePlace) :=
  let extra := placed.map (fun p => (p.array, p.addr, p.bytes))
  c.liveArrays.filterMap (fun a =>
    match c.place 0 a h.bytes extra, h.quad, c.freeQuadrant a placed with
    | some addr, false, _ => some (c.freeTier0 a extra, ⟨a, addr, h.bytes, none⟩)
    | some addr, true, some q => some (c.freeTier0 a extra, ⟨a, addr, h.bytes, some q⟩)
    | _, _, _ => none)

/-- R575: the best spot: the most free bytes, the lowest-numbered array among equals. -/
def bestSpot : List (Nat × HomePlace) → Option HomePlace
  | [] => none
  | a :: r => some ((r.foldl (fun best b => if best.1 < b.1 then b else best) a).2)

/-- The homes of a run in ascending number; the first that cannot be placed is answered by its number. -/
def Chip.placeHomes (c : Chip) : List PassHome → List HomePlace → List HomePlace × Option PassHome
  | [], placed => (placed, none)
  | h :: r, placed => match bestSpot (c.homeSpots h placed) with
    | some p => c.placeHomes r (placed ++ [p])
    | none => (placed, some h)

/-- R618: working copies of any voice are evicted from the array with the most free tier 0 until the home fits. -/
def Chip.makeRoom (c : Chip) (h : PassHome) (placed : List HomePlace) : Chip :=
  let extra := placed.map (fun p => (p.array, p.addr, p.bytes))
  let arrays := c.liveArrays.filter (fun a => !h.quad || (c.freeQuadrant a placed).isSome)
  match arrays with
  | [] => c
  | a0 :: r =>
    let a := r.foldl (fun best b => if c.freeTier0 best extra < c.freeTier0 b extra then b else best) a0
    (c.evictable 0 0 a true).foldl (fun c t =>
      if (c.place 0 a h.bytes extra).isSome || c.moves.any (fun m => m.tensor == t && m.kind == .toHome) then c
      else c.evict1 t) c

/-- The pending run follows the one that ended. -/
def Chip.nextRun (c : Chip) (t : Nat) : Chip :=
  match c.passage? t with
  | some p => (c.endTransients (0x100 + t)).setPassage t { p with running := p.waiting, waiting := none }
  | none => c

/-- The run ends without success (R582). -/
def Chip.failRun (c : Chip) (t : Nat) (r : PassRun) (status : Nat) : Chip := (c.closeRun r status 0 0).nextRun t

/-- The slots of a run by role. -/
def PassRun.slotsOf (r : PassRun) (role : Nat) : List Nat :=
  let p := Pass.ofBytes r.image
  (List.range p.slots.length).filter (fun s => (p.slot s).role == role)

/-- The check of a run's slots. Tensor 0 stands for what the engine itself gives an estimator's run: the input and the output,
and the weights of the image's default models. -/
def Chip.slotsCheck (c : Chip) (voice born : Nat) (est : Bool) (p : Pass) (ts : List Nat) : Nat :=
  firstCode ((p.slots.zip ts).map (fun q => if est && q.2 == 0 then 0 else c.slotCheck voice q.1 q.2 born))

/-- A run names a tensor that is lost or no longer usable (R631). -/
def Chip.runCheck (c : Chip) (r : PassRun) : Nat :=
  c.slotsCheck r.voice r.born r.est.isSome (Pass.ofBytes r.image) r.tensors

/-- Where a slot lies: its array's tier 0 address. -/
def PassRun.slotAddr (r : PassRun) (s : Nat) : Nat :=
  let x := (Pass.ofBytes r.image).slot s
  match r.homes[x.home]? with
  | some h => h.array * 0x100000 + h.addr + x.offset
  | none => 0

/-- R575: a run starts when all its homes are placed. -/
def Chip.startPassage (c : Chip) (t : Nat) : Chip :=
  match c.passage? t with
  | none => c
  | some p => match p.running with
    | none => c
    | some r =>
      if r.started || c.computeGated then c
      else
        let bad := c.runCheck r
        if bad ≠ 0 then c.failRun t r bad
        else
          let q := Pass.ofBytes r.image
          let total := (q.homes.map (·.bytes)).foldl (· + ·) 0
          let est := r.est.isSome
          if !est && c.refuses r.voice 0 total then c.failRun t r 0x0A050001
          else
            let c1 := if est then c else c.evictFor r.voice 0 total
            if !est && decide (c1.limitBytes r.voice 0 < c1.usage r.voice 0 + total) then c1
            else match c1.placeHomes q.homes [] with
              | (placed, some h) => c1.makeRoom h placed
              | (placed, none) =>
                let r1 := { r with started := true, homes := placed,
                                   whole := if est then r.slotsOf 0 else [] }
                let c2 := if est then
                    c1.setTierMem 0 (c1.tier0.writeBytes (r1.slotAddr 0) r.given) else c1
                c2.setPassage t { p with running := some r1 }

/-! ### Moves that steps wait for (R577, R607, R608, R626) -/

/-- The slots of a run that wait in tier 0 for tensor x on an array. -/
def PassRun.waitingSlots (r : PassRun) (x array : Nat) : List Nat :=
  if !r.started then []
  else
    let p := Pass.ofBytes r.image
    (r.slotsOf 0).filter (fun s => r.tensors.getD s 0 == x && !r.whole.contains s &&
      (match r.homes[(p.slot s).home]? with
       | some h => h.array == array
       | none => false))

/-- An input becomes whole in its slot's place: its working copy is moved there, or, if it is pinned or in use by
another run's home, a transient copy is made. -/
def Chip.fillSlot (c : Chip) (t : Nat) (r : PassRun) (x s : Nat) : Chip :=
  match c.passage? t, c.tensor? x with
  | some p, some y =>
    let addr := r.slotAddr s
    let r1 := { r with whole := r.whole ++ [s] }
    let c1 :=
      if y.workPinned ∨ (y.work = 0 ∧ c.inHome y.array y.workAddr) then
        c.setTierMem 0 (c.tier0.writeBytes addr (c.contents x))
      else c.makeWork x 0 (addr / 0x100000) (addr % 0x100000)
    c1.setPassage t { p with running := some r1 }
  | _, _ => c

/-- The runs whose slots wait for a tensor on an array: passage, run and slot. -/
def Chip.slotWaiters (c : Chip) (x array : Nat) : List (Nat × Nat) :=
  c.passages.flatMap (fun (p : Nat × Passage) => match p.2.running with
    | some r => (r.waitingSlots x array).map (fun s => (p.1, s))
    | none => [])

/-- Whether a started run or a lane's request waits for the tensor in tier 1: its voice and run number. -/
def Chip.tier1Waiter (c : Chip) (x : Nat) : Option (Nat × Nat) :=
  let runs := c.passages.filterMap (fun (p : Nat × Passage) => match p.2.running with
    | some r => if r.started && x != 0 && (r.slotsOf 2).any (fun s => r.tensors.getD s 0 == x) && !c.hasCopy x 1 (0x100 + p.1)
        then some (r.voice, 0x100 + p.1) else none
    | none => none)
  let reqs := (List.range 4).filterMap (fun l => match (c.lane l).running with
    | some r => if !r.started && r.blocks == x && r.blocks != 0 && !c.hasCopy x 1 (laneRun l) then
        some (r.voice, laneRun l) else none
    | none => none)
  (runs ++ reqs).head?

/-- The run or request with a run number ends with a status. -/
def Chip.failByNumber (c : Chip) (n status : Nat) : Chip :=
  if n < 4 then
    match (c.lane n).running with
    | some r => c.failRequest n r status
    | none => c
  else match c.passage? (n - 0x100) with
    | some p => match p.running with
      | some r => c.failRun (n - 0x100) r status
      | none => c
    | none => c

/-- R607, R608: a tensor that a step waits for becomes whole in tier 1. -/
def Chip.stallTier1 (c : Chip) (x : Nat) : Chip :=
  match c.tensor? x, c.tier1Waiter x with
  | some y, some (v, n) =>
    if y.lost then c.failByNumber n 0x0A070001
    else if y.home = 1 ∧ !y.workPinned then
      -- the home is there: the working copy above it is written back and released
      let c1 := c.writeBack x
      match c1.tensor? x with
      | some z => c1.setTensor x z.dropWork
      | none => c1
    else
      let bill := if y.workPinned then v else y.bill
      if c.refuses bill 1 y.size then c.failByNumber n 0x0A050001
      else
        let c1 := c.evictFor bill 1 (charge 1 y.size)
        if c1.limitBytes bill 1 < c1.usage bill 1 + charge 1 y.size then c1
        else match c1.place 1 0xFF y.size [] with
          | none => c1
          | some a =>
            if y.workPinned then
              (c1.copyBytes y.currentAt.1 y.currentAt.2 1 a y.size |> fun c2 =>
                { c2 with transients := c2.transients ++
                    [{ tensor := x, tier := 1, array := 0xFF, addr := a, voice := v, run := n }] })
            else c1.makeWork x 1 0xFF a
  | _, _ => c

/-- STALL_MOVE: the move of a tensor into the working tier of every step that waits for it (R607, R626). -/
def Chip.stallMove (c : Chip) (x tier array : Nat) : Chip :=
  if tier = 1 then c.stallTier1 x
  else if tier = 0 then
    (c.slotWaiters x array).foldl (fun c w => match c.passage? w.1 with
      | some p => match p.running with
        | some r => c.fillSlot w.1 r x w.2
        | none => c
      | none => c) c
  else c

/-! ### Grants and stealing (R555, R556, R579, R584) -/

/-- R579: every earlier operator that operator j must follow has ended. -/
def PassRun.opReady (r : PassRun) (p : Pass) (j : Nat) : Bool :=
  match p.ops[j]? with
  | none => false
  | some o =>
    r.started && !r.ended.contains j && !r.active.any (fun a => a.op == j) &&
    (List.range j).all (fun i => r.ended.contains i ||
      (match p.ops[i]? with
       | some q => !(o.reads.contains q.out) && q.out != o.out && !(q.reads.contains o.out)
       | none => true))

/-- The mask of quadrants of an array that run operators. -/
def Chip.busyQuads (c : Chip) (a : Nat) : Nat :=
  c.passages.foldl (fun n (p : Nat × Passage) => match p.2.running with
    | some r => r.active.foldl (fun n x => if x.array = a then n ||| x.quads else n) n
    | none => n) 0

/-- A ready operator: its passage, number, voice, admission, home array and quadrant, and whether it may be stolen. -/
structure ReadyOp where
  passage : Nat
  op : Nat
  voice : Nat
  admitted : Nat
  array : Nat
  quadrant : Option Nat
  steal : Bool
  deriving DecidableEq, Repr

/-- Every ready operator, by order of admission, then passage, then operator table order. -/
def Chip.readyOps (c : Chip) : List ReadyOp :=
  let xs := c.passages.flatMap (fun (p : Nat × Passage) => match p.2.running with
    | none => []
    | some r =>
      let q := Pass.ofBytes r.image
      ((List.range q.ops.length).filter (r.opReady q ·)).filterMap (fun j =>
        match q.ops[j]? with
        | none => none
        | some o => (r.homes[o.home]?).map (fun h =>
            ({ passage := p.1, op := j, voice := r.voice, admitted := r.admitted, array := h.array,
               quadrant := h.quadrant, steal := o.small && !bit q.flags 0 } : ReadyOp))))
  sortBy (fun a b => decide (a.admitted ≤ b.admitted)) xs

/-- The operator takes quadrants of an array. -/
def Chip.grant (c : Chip) (o : ReadyOp) (array quads : Nat) : Chip :=
  match c.passage? o.passage with
  | some p => match p.running with
    | some r =>
      let stolen := array ≠ o.array
      let c1 := c.setPassage o.passage { p with running := some { r with
        active := r.active ++ [{ op := o.op, array, quads, stolen }] } }
      if stolen then (c1.dinc (arrayKey array 6)).dinc (arrayKey o.array 7) else c1
    | none => c
  | none => c

/-- The first voice at or after the array's pointer with a ready operator homed there, and its first such operator. -/
def Chip.pointed (c : Chip) (a : Nat) : Option ReadyOp :=
  let mine := c.readyOps.filter (fun o => o.array == a)
  let p := tabGet 0 c.arrayPtr a
  ((List.range 16).map (fun k => (p + k) % 16)).findSome? (fun v => mine.find? (fun o => o.voice == v))

/-- R555, R556: the grants of one array in one cycle, at most four; the second value says that a full-array operator
holds the array. -/
def Chip.grantArray (c : Chip) (a : Nat) : Nat → Chip × Bool
  | 0 => (c, false)
  | k + 1 => match c.pointed a with
    | none => (c, false)
    | some o =>
      let busy := c.busyQuads a
      let moved := fun (c : Chip) => { c with arrayPtr := tabSet c.arrayPtr a ((o.voice + 1) % 16) }
      match o.quadrant with
      | none => if busy = 0 then (moved (c.grant o a 15)).grantArray a k else (c, true)
      | some q =>
        let free := (List.range 4).filter (fun k => !bit busy k)
        match (if free.contains q then some q else free.head?) with
        | none => (c, false)
        | some q' => (moved (c.grant o a (2 ^ q'))).grantArray a k

/-- R584: a SMALL operator that its home array did not grant takes a free quadrant of the lowest-numbered array on which
no operator of its own waits. `held` are the arrays that a full-array operator holds (R556). -/
def Chip.stealOps (c : Chip) (held : List Nat) : Chip :=
  (c.readyOps.filter (·.steal)).foldl (fun c o =>
    let waits := fun a => c.readyOps.any (fun x => x.array == a)
    match c.liveArrays.find? (fun a => a != o.array && !held.contains a && !waits a && c.busyQuads a != 15) with
    | none => c
    | some a => match (List.range 4).find? (fun q => !bit (c.busyQuads a) q) with
      | some q => c.grant o a (2 ^ q)
      | none => c) c

/-- OPERATOR_GRANT: one cycle's grants of every array, then stealing. -/
def Chip.grantCycle (c : Chip) : Chip :=
  if c.computeGated then c
  else
    let (c1, held) := c.liveArrays.foldl (fun (acc : Chip × List Nat) a =>
      let (c1, h) := acc.1.grantArray a 4
      (c1, if h then acc.2 ++ [a] else acc.2)) (c, [])
    c1.stealOps held

/-! ### The end of an operator and of a run -/

/-- The contents that an operator reads from a slot. -/
def Chip.slotBytes (c : Chip) (r : PassRun) (p : Pass) (s : Nat) : List Byte :=
  let x := p.slot s
  if s = 0xFFFF then []
  else if x.role = 2 then
    match r.est, r.tensors.getD s 0 with
    | some (_, desc, _), 0 => (List.range x.bytes).map (Config.defaultWeight (modelSub desc) s)
    | _, t => c.contents t
  else c.tier0.readBytes (r.slotAddr s) x.bytes

/-- R577: every tensor that the operator reads is whole in its working tier. -/
def Chip.opFed (c : Chip) (t : Nat) (r : PassRun) (p : Pass) (o : PassOp) : Bool :=
  o.reads.all (fun s => match (p.slot s).role with
    | 0 => r.whole.contains s
    | 2 => (r.est.isSome && r.tensors.getD s 0 == 0) || c.hasCopy (r.tensors.getD s 0) 1 (0x100 + t)
    | _ => true)

/-- OPERATOR_END: the operator's output is written into its slot, and its quadrants are free. -/
def Chip.endOperator (c : Chip) (t j : Nat) : Chip :=
  match c.passage? t with
  | none => c
  | some p => match p.running with
    | none => c
    | some r =>
      let q := Pass.ofBytes r.image
      match r.active.find? (fun a => a.op == j), q.ops[j]? with
      | some a, some o =>
        if c.computeGated || !c.opFed t r q o then c
        else
          let (out, sat, nan) := q.compute o (c.slotBytes r q o.inp) (c.slotBytes r q o.wgt) (c.slotBytes r q o.bias)
          let quad := a.stolen || (q.home o.home).quad
          let cycles := q.cost o quad * (if quad then 1 else 4)
          let panel := if o.op ≤ 2 then (q.slot o.wgt).bytes else 0
          let used := (o.reads.filter (fun s => (q.slot s).role == 0 || (q.slot s).role == 2)).map (fun s => r.tensors.getD s 0)
          let c1 := (c.setTierMem 0 (c.tier0.writeBytes (r.slotAddr o.out) out)).each used Chip.useTensor
          let c2 := (((((c1.dinc (arrayKey a.array 5)).dadd (arrayKey a.array 8) sat).dadd (arrayKey a.array 9) nan).dadd64
            (arrayKey a.array 10) cycles).dadd64 (arrayKey a.array 13) panel)
          c2.setPassage t { p with running := some { r with
            active := r.active.filter (fun x => x.op ≠ j), ended := r.ended ++ [j],
            arrays := setBit r.arrays a.array, qcycles := r.qcycles + cycles } }
      | _, _ => c

/-- R581: the outputs of a run become current, each in its slot's place. -/
def Chip.takeOutputs (c : Chip) (r : PassRun) : Chip :=
  let p := Pass.ofBytes r.image
  (r.slotsOf 1).foldl (fun c s =>
    let a := r.slotAddr s
    c.newContents (r.tensors.getD s 0) 0 (a / 0x100000) (a % 0x100000) (c.slotBytes r p s)) c

/-- PASSAGE_RUN_COMPLETE: the second value is an estimator's run with its output bytes. -/
def Chip.completeRun (c : Chip) (t : Nat) : Chip × Option (PassRun × List Byte) :=
  match c.passage? t with
  | none => (c, none)
  | some p => match p.running with
    | none => (c, none)
    | some r =>
      let q := Pass.ofBytes r.image
      if !r.started || c.computeGated || !(List.range q.ops.length).all r.ended.contains then (c, none)
      else if r.est.isSome then (c.nextRun t, some (r, c.slotBytes r q 1))
      else
        let bad := c.runCheck r
        if bad ≠ 0 then (c.failRun t r bad, none)
        else (((c.takeOutputs r).closeRun r 0 r.arrays r.qcycles).nextRun t, none)

/-! ### Retirement and reset -/

/-- R587: array a has retired: the runs with a home on it or an operator running on it end. The estimator runs among
them are answered. -/
def Chip.arrayRetired (c : Chip) (a : Nat) : Chip × List PassRun :=
  c.passages.foldl (fun (acc : Chip × List PassRun) (p : Nat × Passage) => match p.2.running with
    | some r =>
      if r.homes.any (fun h => h.array == a) || r.active.any (fun x => x.array == a) then
        (acc.1.failRun p.1 r 0x0A070001, if r.est.isSome then acc.2 ++ [r] else acc.2)
      else acc
    | none => acc) (c, [])

/-- R305, R582: runs end without completion; their ledger entries are released. -/
def Chip.dropRuns (c : Chip) (keep : PassRun → Bool) : Chip :=
  let free := fun (c : Chip) (r : PassRun) =>
    match r.est with
    | some (i, _, _) => c.ledgerDrop r.voice (.estimator i) 0x4000
    | none => if r.cue then c else c.ledgerDrop r.voice .ring r.tag
  c.passages.foldl (fun c (p : Nat × Passage) =>
    let c1 := match p.2.waiting with
      | some r => if keep r then c else
          match (free c r).passage? p.1 with
          | some q => (free c r).setPassage p.1 { q with waiting := none }
          | none => c
      | none => c
    match p.2.running with
    | some r => if keep r then c1 else (free c1 r).nextRun p.1
    | none => c1) c

/-- R570: the passages that voice v loaded are no longer loaded; one with a run of another voice keeps its run. -/
def Chip.unloadPassages (c : Chip) (v : Nat) : Chip :=
  { c with passages := (c.passages.filter (fun p => p.2.voice ≠ v ∨ p.2.running.isSome)).map (fun p =>
      if p.2.voice = v then (p.1, { p.2 with gen := 0x10000 }) else p) }

/-- R601: a released tensor's passage is no longer loaded. -/
def Chip.unloadPassage (c : Chip) (t : Nat) : Chip := { c with passages := tabDel c.passages t }

end Sys2Proof.Machine
end

