-- ==== Sys2Proof/Machine/Breeze.lean ====
section
/-! DEFINITION. The Breeze link: frames, slots, messages and the receive ring (R692 to R738). -/

namespace Sys2Proof.Machine

/-- Entry 0x1820:s (Table 14.14). -/
def bzKey (s : Nat) : Nat := ent 0x1820 s

def Chip.bzNode (c : Chip) : Nat := c.dget (bzKey 2)

/-- The link state of Table 14.9. -/
def Chip.bzState (c : Chip) : Nat := c.dget (bzKey 20)

/-- The transceiver runs: enabled, in service, out of P7 and FAULTED (R696, R738, R780). -/
def Chip.radioOn (c : Chip) : Bool :=
  c.dbool (bzKey 1) && !c.isRetired .breeze && !c.gov.p7 && c.engine != .faulted && c.bzState != 0

/-! ### Lengths (R703) -/

/-- R6, R101: the low rate of 250 kb/s is there only while BL2 is active. -/
def Chip.slowRadio (c : Chip) : Bool := c.dget (bzKey 5) == 1 && decide (2 ≤ c.dget (ent 0x1018 2))

/-- Bit time in µs. -/
def Chip.bitTime (c : Chip) : Nat := if c.slowRadio then 4 else 1

/-- A(L) in µs: RAMP counts half microseconds twice. -/
def Chip.airTime (c : Chip) (len : Nat) : Nat := c.dget (bzKey 7) + (104 + 8 * len) * c.bitTime

/-! ### Time on air (R711 to R713, R717), in updates of 4 ns -/

/-- Updates of a bit time. -/
def Chip.bitUpdates (c : Chip) : Nat := 250 * c.bitTime

/-- R, the ramp time. -/
def Chip.rampUpdates (c : Chip) : Nat := 125 * c.dget (bzKey 7)

/-- From a slot's start to the end of its sync word: 40 + R + 64·b µs (R706). -/
def Chip.syncAfter (c : Chip) : Nat := 10000 + c.rampUpdates + 64 * c.bitUpdates

/-- From the end of a unicast's last bit to the end of its ACK's sync word: 100 + R + 64·b µs (R727). -/
def Chip.ackAfter (c : Chip) : Nat := 25000 + c.rampUpdates + 64 * c.bitUpdates

/-- R711, R717: the predicted start of the n-th slot after S_0, scaled by the measured rate. -/
def Chip.slotStart (c : Chip) (n : Nat) : Nat :=
  let r := c.breeze.rate.getD (16000000, 1)
  c.breeze.beacon.getD 0 + divRne (n * r.1) (32 * r.2)

/-- The slot, counted from S_0, in progress at an update. -/
def Chip.slotAt (c : Chip) (t : Nat) : Nat :=
  let r := c.breeze.rate.getD (16000000, 1)
  let n := (t - c.breeze.beacon.getD 0) * (32 * r.2) / r.1
  if c.slotStart (n + 1) ≤ t then n + 1 else n

/-- The distance between two updates. -/
def gap (a b : Nat) : Nat := (a - b) + (b - a)

/-- R703: L_MAX of a frame type; `single` for a DATA_ACK to one node. -/
def Chip.longest (c : Chip) (single : Bool) : Nat :=
  let q := if single then 100 + c.airTime 2 else 0
  ((List.range 256).filter (fun l => 40 + c.airTime l + q ≤ 1960)).foldl Nat.max 0

/-- R722: the longest payload of a HOST message to a destination, head included. -/
def Chip.messageRoom (c : Chip) (dest : Nat) : Nat :=
  if c.bzNode = 0 then c.longest false - 24 else c.longest (dest != 0xFF)

/-! ### CRCs, whitening and frames (R698 to R702) -/

/-- One byte, most significant bit first, through a register of `w` bits. -/
def crcMsb (w poly : Nat) (crc : Nat) (b : Byte) : Nat :=
  (List.range 8).foldl (fun c _ => if bit c (w - 1) then (c * 2 % 2 ^ w) ^^^ poly else c * 2 % 2 ^ w)
    (crc ^^^ (b.toNat * 2 ^ (w - 8)))

/-- R700. -/
def crc8 (bs : List Byte) : Nat := bs.foldl (crcMsb 8 0x07) 0

/-- R701. -/
def crc16 (bs : List Byte) : Nat := bs.foldl (crcMsb 16 0x1021) 0xFFFF

/-- R702: the next whitening register. -/
def whitenStep (s : Nat) : Nat := s / 2 + (if bit s 0 != bit s 5 then 256 else 0)

/-- R702: one byte, least significant bit first, and the register after it. -/
def whitenByte (s : Nat) (b : Byte) : Nat × Byte :=
  let r := (List.range 8).foldl (fun (a : Nat × Nat) k => (whitenStep a.1, a.2 + (if bit a.1 0 then 2 ^ k else 0))) (s, 0)
  (r.1, b ^^^ BitVec.ofNat 8 r.2)

/-- R702: bytes whitened or restored from a register on. -/
def whiten (s : Nat) : List Byte → List Byte
  | [] => []
  | b :: r => (whitenByte s b).2 :: whiten (whitenByte s b).1 r

/-- The two header bytes of Table 14.4. -/
def headerBytes (ty source len : Nat) : List Byte := [BitVec.ofNat 8 (ty + 8 * source), BitVec.ofNat 8 len]

/-- A frame as its bytes on air, from the preamble on (Table 14.4, R699). -/
def Chip.frameBytes (c : Chip) (ty : Nat) (payload : List Byte) : List Byte :=
  let h := headerBytes ty c.bzNode payload.length
  List.replicate 4 0x55 ++ leBytes 4 (c.dget (bzKey 8)) ++ h ++ leBytes 1 (crc8 h) ++
  whiten (0x100 + c.dget (bzKey 4)) (payload ++ leBytes 2 (crc16 (h ++ payload)))

/-- A frame whose ramp-up starts at an update goes on air with the settings of that moment (R695); the receiver is deaf
until it has ended. -/
def Chip.transmit (c : Chip) (start ty : Nat) (payload : List Byte) : Chip :=
  let f : BreezeSent := { start, channel := c.dget (bzKey 4), power := c.dget (bzKey 6), ramp := c.dget (bzKey 7),
                          bitTime := c.bitTime, bytes := c.frameBytes ty payload }
  ({ c with breeze := { c.breeze with sent := f :: c.breeze.sent,
                                      deaf := start + 250 * c.airTime payload.length } }).dinc (bzKey 29)

/-! ### The queue (R722 to R726, R733) -/

/-- Head and body of a message with its SEQ. -/
def BreezeMsg.bytes (m : BreezeMsg) (seq : Nat) : List Byte :=
  leBytes 1 m.dest ++ leBytes 1 seq ++ leBytes 1 m.kind ++ leBytes 1 m.info ++ m.body

/-- R722: the checks of a TX write; 0 is good. -/
def Chip.txCheck (c : Chip) (data : List Byte) : Nat :=
  let dest := fieldAt data 0 1
  let size := 4 + (data.length - 1)
  if data.length = 0 ∨ c.messageRoom dest < size then 0x0A030002
  else if c.isRetired .breeze then 0x0A070001
  else if dest = c.bzNode ∨ (31 < dest ∧ dest ≠ 0xFF) then 0x0A030001
  else if 16 ≤ c.breeze.queue.length then 0x0A050001 else 0

/-- Messages are queued at this update's position. -/
def Chip.enqueue (c : Chip) (ms : List BreezeMsg) : Chip :=
  { c with breeze := { c.breeze with queue := c.breeze.queue ++ ms } }

/-- R722: a HOST message of voice v. -/
def Chip.txCommit (c : Chip) (v : Nat) (data : List Byte) : Chip :=
  c.enqueue [{ dest := fieldAt data 0 1, kind := 0x10, info := v, body := data.drop 1, pos := c.posNat }]

/-- R733: the messages of a keyframe are queued, all or none. `key` is the KEYFRAME body, `place` the head of a PLACE
body and `embedding` its 256 bytes. -/
def Chip.shareKeyframe (c : Chip) (key place embedding : List Byte) : Chip :=
  let z := if c.slowRadio then 32 else 128
  let m := fun (kind : Nat) (body : List Byte) =>
    ({ dest := 0xFF, kind, info := 0, body, pos := c.posNat } : BreezeMsg)
  let ms := m 1 key :: (List.range (256 / z)).map (fun i =>
    m 2 (place ++ leBytes 1 (i * z) ++ (embedding.drop (i * z)).take z))
  if 16 < c.breeze.queue.length + ms.length || ms.any (fun x => c.messageRoom 0xFF < 4 + x.body.length) then
    c.dinc (bzKey 43)
  else c.enqueue ms

/-- R723: a BREEZE_WINDOW cue releases every message queued before its firing. -/
def Chip.releaseMessages (c : Chip) : Chip :=
  { c with breeze := { c.breeze with queue := c.breeze.queue.map (fun m =>
      if laterPos c.posNat m.pos then { m with released := true } else m) } }

/-- The head of the queue leaves it with a result (R725). -/
def Chip.leaveQueue (c : Chip) (i result : Nat) : Chip :=
  ({ c with breeze := { c.breeze with queue := c.breeze.queue.eraseIdx i, awaiting := none } }).dset (bzKey 18) result

/-- The oldest released message and its place. -/
def Chip.oldest (c : Chip) : Option (Nat × BreezeMsg) :=
  (c.breeze.queue.zipIdx.find? (fun q => q.1.released)).map (fun q => (q.2, q.1))

/-- R728: the message's SEQ, taken at its first send. -/
def Chip.takeSeq (c : Chip) (i : Nat) (m : BreezeMsg) : Chip × Nat :=
  match m.seq with
  | some s => (c, s)
  | none =>
    let s := c.breeze.nextSeq
    let b := c.breeze
    (({ c with breeze := { b with nextSeq := (s + 1) % 256, queue := b.queue.set i { m with seq := some s } } }).dset
      (bzKey 17) s, s)

/-! ### Enabling -/

/-- R732: the receive ring under BILL_VOICE. -/
def Chip.makeBreezeRing (c : Chip) : Option Chip :=
  let depth := c.dget (bzKey 13)
  match c.makeEngineTensor 0xFF3000 (c.dget (bzKey 14)) 1 (0x40 + 288 * depth) 0 with
  | some c1 => some (c1.poke 0xFF3000 0 (leBytes 4 0x5A455242 ++ leBytes 2 0 ++ leBytes 2 288 ++ leBytes 4 depth))
  | none => none

/-- Entries that stand while the link is on. -/
def Chip.bzFixed (c : Chip) (sub : Nat) : Bool := c.dbool (bzKey 1) && [2, 3, 4, 5, 7, 8].contains sub

/-- R693 to R695, R732: what a write to an entry of Table 14.14 checks beyond type, range and state. -/
def Chip.bzCheck (c : Chip) (sub value : Nat) : Nat :=
  match sub with
  | 1 =>
    if value = 0 ∨ c.dbool (bzKey 1) then 0
    else if c.straps.mode = .mesh then 0x0A030001
    else if c.makeBreezeRing.isNone then 0x0A050001 else 0
  | 5 => if value = 1 ∧ c.dget (ent 0x1018 2) < 2 then 0x0A090001 else 0
  | 12 => if c.badTimes 0x07 c.posNat value 0 then 0x0A030001 else 0
  | _ => 0

/-- R723: the window cue is armed for the first frame start, and every WINDOW_PERIOD. -/
def Chip.armWindow (c : Chip) : Chip :=
  let next := (⟨(c.epoch.pos.frame + 1) % m32, 0, 0⟩ : Pos).toNat
  match (c.freeUse .breeze).armEngine 0x07 next (c.dget (bzKey 12)) c.bzNode .breeze with
  | some (c1, _) => c1
  | none => c

/-- The effect of a committed write to ENABLE (R694, R717, R723, R728). -/
def Chip.bzEnable (c : Chip) (old value : Nat) : Chip :=
  if old = value then c
  else if value = 1 then
    match c.makeBreezeRing with
    | none => c
    | some c1 =>
      let q := c1.breeze.queue.map (fun m => { m with seq := none, sends := 0 })
      let c2 := { c1 with breeze := { queue := q, sent := c1.breeze.sent } }
      ((c2.dset (bzKey 20) (if c.bzNode = 0 then 4 else 1))).armWindow
  else ((c.freeUse .breeze).freeTensor 0xFF3000).dset (bzKey 20) 0

/-- The effect of a committed write to an entry of Table 14.14 beside its stored value. -/
def Chip.bzCommit (c : Chip) (sub old value : Nat) : Chip :=
  match sub with
  | 1 => c.bzEnable old value
  | 12 => if c.dbool (bzKey 1) then c.armWindow else c
  | _ => c

/-- What ends with the transceiver's stop: a reception, an ACK due or awaited, and the slots it predicts. -/
def Breeze.stopped (b : Breeze) : Breeze :=
  { b with beacon := none, rate := none, used := none, awaiting := none, sync := none, header := none, ackDue := none }

/-- A member enters SEARCH (R696, R720, R730). -/
def Chip.bzSearch (c : Chip) : Chip :=
  ({ c with breeze := { c.breeze.stopped with misses := 0, sources := [] } }).dset (bzKey 20) 1

/-- R696: the exit from P7: a member enters SEARCH, a coordinator starts a new superframe with its next BEACON. -/
def Chip.bzWake (c : Chip) : Chip :=
  if c.bzState = 4 then { c with breeze := c.breeze.stopped }
  else if c.bzState = 1 ∨ c.bzState = 2 ∨ c.bzState = 3 then c.bzSearch else c

/-- R738: the transceiver has retired. -/
def Chip.bzRetired (c : Chip) : Chip :=
  ({ c.freeUse .breeze with breeze := { sent := c.breeze.sent, written := c.breeze.written } }).dset (bzKey 20) 5

/-! ### Sending -/

/-- The fixed fields of a beacon (Table 14.8). -/
def Chip.beaconFields (c : Chip) (follows : Bool) : List Byte :=
  leBytes 4 (c.dget (bzKey 19)) ++ leBytes 8 c.posNat ++ leBytes 4 c.epoch.estimate ++ leBytes 4 (c.dget (bzKey 25)) ++
  leBytes 1 (c.dget (bzKey 3)) ++ leBytes 1 (b2n c.epochNotRunning + 2 * b2n follows) ++ leBytes 2 0

/-- R696, R714: a beacon is due: a superframe has passed since the last one. The command stands for the update in which the
beacon's sync word ends on air (R734). -/
def Chip.beaconDue (c : Chip) : Bool :=
  match c.breeze.beacon with
  | some z => decide (z + 16000000 + c.syncAfter ≤ c.now)
  | none => true

/-- R714, R737: a superframe of the coordinator starts, with what it heard in the one before. -/
def Chip.newSuperframe (c : Chip) : Chip :=
  let c1 := (c.dinc (bzKey 19)).dset (bzKey 25) c.breeze.heard
  { c1 with breeze := { c1.breeze with heard := 0, beacon := some (c.now - c.syncAfter) } }

/-- R714, R726, R734: the coordinator's beacon, with the oldest released message that its room holds (R713). -/
def Chip.sendBeacon (c : Chip) : Chip :=
  if !c.radioOn || c.bzState != 4 || !c.beaconDue then c
  else
    let c1 := c.newSuperframe
    let start := c1.slotStart 0 + 10000
    match c1.oldest with
    | none => c1.transmit start 0 (c1.beaconFields false)
    | some (i, m) =>
      if c.longest false < 28 + m.body.length then c1.transmit start 0 (c1.beaconFields false)
      else
        let (c2, s) := c1.takeSeq i m
        (c2.transmit start 0 (c1.beaconFields true ++ m.bytes s)).leaveQueue i (if m.dest = 0xFF then 2 else 4)

/-- R718: P at an update, in units of 4 fs: 2 µs and e × U, with e in updates and U in ppm. -/
def Chip.offsetScaled (c : Chip) (t : Nat) : Nat :=
  500000000 + (t - c.breeze.beacon.getD t) * (if c.breeze.rate.isSome then c.dget (bzKey 11) else 100)

/-- R712: the start of the member's own slot while it is in progress and unused. -/
def Chip.ownStart (c : Chip) : Option Nat :=
  let n := c.slotAt c.now
  if c.breeze.beacon.isSome && n % 32 == c.bzNode && c.breeze.used != some (c.slotStart n) then some (c.slotStart n)
  else none

/-- R718, R719, R724: a member's own slot. A message longer than its room now is (R713) stays in the queue. -/
def Chip.ownSlot (c : Chip) : Chip :=
  match c.ownStart with
  | none => c
  | some t =>
    if !c.radioOn || (c.bzState != 2 && c.bzState != 3) then c
    else
      let p := c.offsetScaled t
      let c1 := ({ c with breeze := { c.breeze with used := some t } }).dset (bzKey 21) (Nat.min 0xFFFF (divRne p 25000000))
      if 5000000000 < p then c1.dset (bzKey 20) 3
      else if c.bzState = 3 then c1
      else match c1.oldest with
        | none => c1
        | some (i, m) =>
          if c1.messageRoom m.dest < 4 + m.body.length then c1
          else
            let (c2, s) := c1.takeSeq i m
            if m.dest = 0xFF then (c2.transmit (t + 10000) 1 (m.bytes s)).leaveQueue i 2
            else
              let c3 := if m.sends = 0 then c2 else c2.dinc (bzKey 39)
              let b := c3.breeze
              let last := t + 10000 + c.rampUpdates + (104 + 8 * (4 + m.body.length)) * c.bitUpdates
              ({ c3 with breeze := { b with awaiting := some last,
                                            queue := b.queue.set i { m with seq := some s, sends := m.sends + 1 } } }).transmit
                (t + 10000) 2 (m.bytes s)

/-- R727: the ACK of an accepted DATA_ACK, 100 µs after that frame's last bit. -/
def Chip.bzSendAck (c : Chip) : Chip :=
  match c.breeze.ackDue with
  | none => c
  | some (s, q, t) =>
    if c.now < t + 25000 then c
    else
      let c1 := { c with breeze := { c.breeze with ackDue := none } }
      if !c.radioOn || c.bzState == 1 then c1
      else (c1.transmit c.now 3 (leBytes 1 s ++ leBytes 1 q)).dinc (bzKey 45)

/-- R727: the window of the awaited ACK has closed and no ACK is in reception. -/
def Chip.ackLate (c : Chip) : Bool :=
  match c.breeze.awaiting with
  | some t => decide (t + c.ackAfter + 2000 < c.now) && !c.breeze.sync.any (fun x => x.ack)
  | none => false

/-- R725, R727: no ACK came. -/
def Chip.ackTimedOut (c : Chip) : Chip :=
  if !c.ackLate then c
  else
    let c1 := ({ c with breeze := { c.breeze with awaiting := none } }).dinc (bzKey 38)
    match c1.oldest with
    | some (i, m) => if c.dget (bzKey 10) + 1 ≤ m.sends then (c1.dinc (bzKey 40)).leaveQueue i 3 else c1
    | none => c1

/-! ### Receiving: preamble, sync word and header -/

/-- Every second item, from the first on. -/
def everyOther : List Nat → List Nat
  | [] => []
  | [a] => [a]
  | a :: _ :: r => a :: everyOther r

/-- R705: 16 levels that match the alternating pattern: all those of one phase lie above all those of the other. -/
def alternates (w : List Nat) : Bool :=
  let e := everyOther w
  let o := everyOther (w.drop 1)
  w.length == 16 && (e.all (fun a => o.all (fun b => b < a)) || e.all (fun a => o.all (fun b => a < b)))

/-- R705: the first 16 consecutive levels that declare a preamble, and the levels after them. -/
def findPreamble : List Nat → Option (List Nat × List Nat)
  | [] => none
  | a :: r => if alternates ((a :: r).take 16) then some ((a :: r).take 16, (a :: r).drop 16) else findPreamble r

/-- R705: a level against the slicer threshold, the mean of the 16 levels of the sum. -/
def sliced (sum level : Nat) : Bool := decide (sum < 16 * level)

/-- R699, R705: the first 32-bit run at or after place `k`, within 48 bit times of the preamble, with no more than SYNC_ERRORS
bits that differ from SYNC_WORD. -/
def Chip.syncAt (c : Chip) (sum : Nat) (levels : List Nat) (k : Nat) : Option Nat :=
  let bs := levels.map (sliced sum)
  (rangeFrom k (17 - k)).find? (fun j =>
    let run := (bs.drop j).take 32
    run.length == 32 && decide ((run.zipIdx.countP (fun q => q.1 != bit (c.dget (bzKey 8)) q.2)) ≤ c.dget (bzKey 9)))

/-- R706, R717, R727: the slot whose acceptance window holds a sync word that ended in update `t`, and whether it is the window of
the awaited ACK. A member in SEARCH predicts no slot and takes any. -/
def Chip.syncWindow (c : Chip) (t : Nat) : Option (Nat × Bool) :=
  if c.bzState = 1 then some (0, false)
  else if c.breeze.awaiting.any (fun e => gap t (e + c.ackAfter) ≤ 2000) then some (c.bzNode, true)
  else if c.breeze.beacon.isNone then none
  else
    let n := c.slotAt (t + 250000 - c.syncAfter)
    if gap t (c.slotStart n + c.syncAfter) ≤ 10000 then some (n % 32, false) else none

/-- The reception ends. -/
def Chip.endReception (c : Chip) : Chip := { c with breeze := { c.breeze with sync := none, header := none } }

/-- A reception of the link. -/
def Chip.receiving (c : Chip) (x : BreezeRx) : Chip := { c with breeze := { c.breeze with sync := some x } }

/-- R705, R706: the levels of the receiver up to the last bit of a sync word, which ends in this update. A list in which the detector
does not declare its first sync at the last level shows none. -/
def Chip.syncWord (c : Chip) (levels : List Nat) : Chip :=
  if !c.radioOn || c.breeze.sync.isSome || decide (c.now < c.breeze.deaf + levels.length * c.bitUpdates) then c
  else match findPreamble levels with
    | none => c
    | some (w, r) =>
      let sum := w.sum
      match c.syncAt sum r 0 with
      | none => c
      | some k =>
        if k + 32 ≠ r.length then c
        else match c.syncWindow c.now with
          | none => c.dinc (bzKey 31)
          | some (slot, ack) =>
            c.receiving { sum, swing := gap (everyOther w).sum (everyOther (w.drop 1)).sum, levels := r,
                          marks := [(r.length, c.posNat)], start := k, ended := c.now, slot, ack }

/-- More levels of the reception have come. -/
def BreezeRx.hear (x : BreezeRx) (pos : Nat) (levels : List Nat) : BreezeRx :=
  { x with levels := x.levels ++ levels, marks := x.marks ++ [(x.levels.length + levels.length, pos)] }

/-- Bits as bytes, least significant bit first (R699); bits short of a byte are left out. -/
def airBytes : List Bool → List Byte
  | a :: b :: c :: d :: e :: f :: g :: h :: r =>
    BitVec.ofNat 8 (b2n a + 2 * b2n b + 4 * b2n c + 8 * b2n d + 16 * b2n e + 32 * b2n f + 64 * b2n g + 128 * b2n h) :: airBytes r
  | _ => []

/-- The bytes of a reception from `n` bits after the sync word's first. -/
def BreezeRx.bytes (x : BreezeRx) (n : Nat) : List Byte := airBytes ((x.levels.drop (x.start + n)).map (sliced x.sum))

/-- R731: the epoch position at the sync word's end. -/
def BreezeRx.stamp (x : BreezeRx) : Nat := ((x.marks.find? (fun m => x.start + 32 ≤ m.1)).map (·.2)).getD 0

/-- R710: LINK_QUALITY over the header's 16 bits and the payload's: a bit is clear whose level lies a quarter of the on–off
difference or more from the threshold. -/
def BreezeRx.quality (x : BreezeRx) (len : Nat) : Nat :=
  let ls := (x.levels.drop (x.start + 32)).take 16 ++ (x.levels.drop (x.start + 56)).take (8 * len)
  255 * ls.countP (fun l => x.swing ≤ 2 * gap (16 * l) x.sum) / (16 + 8 * len)

/-- R707: the longest payload of a type. -/
def Chip.typeRoom (c : Chip) (ty : Nat) : Nat := c.longest (ty == 2)

/-- R700, R707: three header bytes with a good CRC, a type that is not reserved, and a length within L_MAX. -/
def Chip.goodAirHeader (c : Chip) (bs : List Byte) : Bool :=
  fieldAt bs 2 1 == crc8 (bs.take 2) && decide (fieldAt bs 0 1 % 8 < 4) &&
  decide (fieldAt bs 1 1 ≤ c.typeRoom (fieldAt bs 0 1 % 8))

/-- R706, R717: the window that took the sync word is one of this type of frame: an ACK's for an ACK and only for it; in SEARCH a
beacon's. -/
def Chip.rightWindow (c : Chip) (x : BreezeRx) (ty : Nat) : Bool :=
  x.ack == (ty == 3) && (c.bzState != 1 || ty == 0)

/-- R707: after a false sync the search goes on one bit after that word's first, with the same threshold and window. -/
def Chip.resumeSync (c : Chip) (x : BreezeRx) : Chip :=
  match c.syncAt x.sum x.levels (x.start + 1) with
  | none => c.endReception
  | some k =>
    let t := x.ended + (k - x.start) * c.bitUpdates
    if c.syncWindow t = some (x.slot, x.ack) then c.receiving { x with start := k, ended := t }
    else c.endReception.dinc (bzKey 31)

/-- R706 to R708: a reception that has come as far as its header, or not yet. -/
def Chip.headerOf (c : Chip) (x : BreezeRx) : Chip :=
  let h := (x.bytes 32).take 3
  if h.length < 3 then c.receiving x
  else if !c.goodAirHeader h then (c.dinc (bzKey 32)).resumeSync x
  else if !c.rightWindow x (fieldAt h 0 1 % 8) then c.endReception.dinc (bzKey 31)
  else { c with breeze := { c.breeze with sync := some x, header := some (fieldAt h 0 1, fieldAt h 1 1) } }

/-- R707, R708: the levels after an accepted sync word, up to the end of the header CRC. -/
def Chip.takeHeader (c : Chip) (levels : List Nat) : Chip :=
  match c.breeze.sync with
  | none => c
  | some x => if !c.radioOn || c.breeze.header.isSome then c else c.headerOf (x.hear c.posNat levels)

/-! ### Receiving: frames -/

/-- R702, R709: the payload of the frame in reception, if its CRC holds; the reception ends either way. -/
def Chip.takePayload (c : Chip) (levels : List Nat) : Chip × Option (BreezeRx × List Byte) :=
  match c.breeze.header, c.breeze.sync with
  | some (b0, len), some x0 =>
    let x := x0.hear c.posNat levels
    let plain := whiten (0x100 + c.dget (bzKey 4)) (x.bytes 56)
    let h := headerBytes (b0 % 8) (b0 / 8) len
    if x.levels.length = x.start + 56 + 8 * (len + 2) ∧ fieldAt plain len 2 = crc16 (h ++ plain.take len) then
      (c.endReception, some (x, plain.take len))
    else (c.endReception.dinc (bzKey 33), none)
  | _, _ => (c, none)

/-- R710: the figures of an accepted frame, and its source as heard. -/
def Chip.noteFrame (c : Chip) (source quality contrast rssi : Nat) : Chip :=
  let c1 := (((c.dinc (bzKey 30)).dset (bzKey 26) (quality % 256)).dset (bzKey 27) (Nat.min 120 contrast)).dset
    (bzKey 28) (rssi % 256)
  let b := c1.breeze
  let sources := match tabGet? b.sources source with
    | some x => tabSet b.sources source { x with heard := c.dget (bzKey 19) }
    | none => b.sources
  { c1 with breeze := { b with heard := setBit b.heard source, sources } }

/-- Table 14.12: whether a message with SEQ s is delivered and acknowledged, and the counter of the rest. -/
def Chip.duplicate (c : Chip) (source s : Nat) : Chip × Bool × Bool :=
  let put := fun (x : BreezeSource) => { c with breeze := { c.breeze with sources := tabSet c.breeze.sources source x } }
  let sf := c.dget (bzKey 19)
  match tabGet? c.breeze.sources source with
  | none => (put ⟨s, 1, sf⟩, true, true)
  | some x =>
    if laterMod 256 s x.high then
      let d := (s + 256 - x.high) % 256
      (put ⟨s, (x.got * 2 ^ d + 1) % 0x10000, sf⟩, true, true)
    else
      let d := (x.high + 256 - s) % 256
      if 15 < d then (c.dinc (bzKey 42), false, false)
      else if bit x.got d then (c.dinc (bzKey 41), false, true)
      else (put { x with got := setBit x.got d }, true, true)

/-- R731, R732: one record of the receive ring. -/
def Chip.deliver (c : Chip) (x : BreezeRx) (source ty quality contrast rssi : Nat) (msg : List Byte) : Chip :=
  let dest := fieldAt msg 0 1
  let rec_ := leBytes 8 x.stamp ++ leBytes 4 (c.dget (bzKey 19)) ++ leBytes 1 x.slot ++ leBytes 1 source ++
    leBytes 1 ty ++ leBytes 1 msg.length ++ leBytes 1 quality ++ leBytes 1 (Nat.min 120 contrast) ++ leBytes 1 rssi ++
    leBytes 1 (b2n (dest == 0xFF) + 2 * b2n c.epochNotRunning) ++ List.replicate 12 0 ++ padTo 256 msg
  let w := c.breeze.written
  let r := c.engineWrite 0xFF3000 (0x40 + 288 * (w % c.dget (bzKey 13))) rec_ 0x0060 0
  if r.2 then
    let c1 := r.1.poke 0xFF3000 0x0C (leBytes 4 ((w + 1) % m32))
    { c1 with breeze := { c1.breeze with written := (w + 1) % m32 } }
  else r.1

/-- R727, R729, R731: a message addressed to this node, or to every node, in a frame that ended in update `t`. -/
def Chip.takeMessage (c : Chip) (x : BreezeRx) (t source ty quality contrast rssi : Nat) (msg : List Byte) : Chip :=
  let dest := fieldAt msg 0 1
  if msg.length < 4 ∨ (dest ≠ c.bzNode ∧ dest ≠ 0xFF) then c
  else
    let (c1, deliver, ack) := c.duplicate source (fieldAt msg 1 1)
    let c2 := if ack && ty == 2 && dest != 0xFF then
        { c1 with breeze := { c1.breeze with ackDue := some (fieldAt msg 1 1, quality, t) } } else c1
    if deliver then c2.deliver x source ty quality contrast rssi msg else c2

/-- The type of the frame in reception. -/
def Chip.frameType (c : Chip) : Option Nat := c.breeze.header.map (fun h => h.1 % 8)

/-- The source of the frame in reception. -/
def Chip.frameSource (c : Chip) : Nat := (c.breeze.header.map (fun h => h.1 / 8)).getD 0

/-- The update in which a frame of `len` payload bytes ended. -/
def Chip.airEnd (c : Chip) (x : BreezeRx) (len : Nat) : Nat := x.ended + (24 + 8 * (len + 2)) * c.bitUpdates

/-- R729: a DATA or DATA_ACK frame ends. -/
def Chip.dataFrame (c : Chip) (contrast rssi : Nat) (levels : List Nat) : Chip :=
  let source := c.frameSource
  let ty := c.frameType.getD 7
  if !c.radioOn || (ty != 1 && ty != 2) then c
  else match c.takePayload levels with
    | (c1, none) => c1
    | (c1, some (x, msg)) =>
      let q := x.quality msg.length
      (c1.noteFrame source q contrast rssi).takeMessage x (c.airEnd x msg.length) source ty q contrast rssi msg

/-- R717: what an accepted beacon tells of time: S_0, and the rate from the beacon before it, heard k superframes earlier. -/
def Chip.heardBeacon (c : Chip) (x : BreezeRx) (number : Nat) : Breeze :=
  let z := x.ended - c.syncAfter
  let next := decide (number = (c.dget (bzKey 19) + 1) % m32)
  let rate := match c.breeze.beacon with
    | some z0 => if next && decide (z0 < z) then some (z - z0, c.breeze.misses + 1) else c.breeze.rate
    | none => c.breeze.rate
  { c.breeze with beacon := some z, rate, misses := 0 }

/-- R717, R719, R735: an accepted beacon of the fleet with its figures. -/
def Chip.takeBeacon (c : Chip) (x : BreezeRx) (quality contrast rssi : Nat) (p : List Byte) : Chip :=
  let c1 := { c with breeze := c.heardBeacon x (fieldAt p 0 4) }
  ((((((c1.noteFrame 0 quality contrast rssi).dset (bzKey 19) (fieldAt p 0 4)).dset (bzKey 22) (fieldAt p 4 8)).dset
    (bzKey 24) (fieldAt p 0x0C 4)).dset (bzKey 25) (fieldAt p 0x10 4)).dset (bzKey 23) x.stamp).dset (bzKey 20) 2

/-- R715, R717, R719, R731, R735: a beacon ends. -/
def Chip.beaconFrame (c : Chip) (contrast rssi : Nat) (levels : List Nat) : Chip :=
  if !c.radioOn || c.frameType != some 0 then c
  else match c.takePayload levels with
    | (c1, none) => c1
    | (c1, some (x, p)) =>
      if c.bzState = 4 then c1
      else if p.length < 24 ∨ fieldAt p 0x14 1 ≠ c.dget (bzKey 3) then c1.dinc (bzKey 35)
      else
        let q := x.quality p.length
        let c2 := c1.takeBeacon x q contrast rssi p
        if bit (fieldAt p 0x15 1) 1 then c2.takeMessage x (c.airEnd x p.length) 0 0 q contrast rssi (p.drop 24) else c2

/-- R724, R725: the ACK of the unicast that waits, of its destination and its SEQ, takes it from the queue. -/
def Chip.acknowledged (c : Chip) (source s : Nat) : Chip :=
  match c.oldest with
  | some (i, m) => if c.breeze.awaiting.isSome && m.dest == source && m.seq == some s then c.leaveQueue i 1 else c
  | none => c

/-- R724, R725: an ACK ends. -/
def Chip.ackFrame (c : Chip) (contrast rssi : Nat) (levels : List Nat) : Chip :=
  let source := c.frameSource
  if !c.radioOn || c.frameType != some 3 then c
  else match c.takePayload levels with
    | (c1, none) => c1
    | (c1, some (x, p)) =>
      ((c1.noteFrame source (x.quality p.length) contrast rssi).dinc (bzKey 44)).acknowledged source (fieldAt p 0 1)

/-- R720: slot 0's window of the next superframe has closed without an accepted beacon, and none is in reception. -/
def Chip.beaconLate (c : Chip) : Bool :=
  c.breeze.sync.isNone && decide (c.slotStart (32 * (c.breeze.misses + 1)) + c.syncAfter + 10000 < c.now)

/-- R720: slot 0's window closes without an accepted beacon. -/
def Chip.beaconMissed (c : Chip) : Chip :=
  if !c.radioOn || (c.bzState != 2 && c.bzState != 3) || !c.beaconLate then c
  else
    let c1 := (c.dinc (bzKey 36)).dinc (bzKey 19)
    let n := c.breeze.misses + 1
    if 4 ≤ n then (c1.bzSearch).dinc (bzKey 37) else { c1 with breeze := { c1.breeze with misses := n } }

/-- R716: by the node's own prediction a slot has started since the sync word of the frame in reception. -/
def Chip.overrun (c : Chip) : Bool :=
  c.bzState != 1 && c.breeze.sync.any (fun x => x.ended < c.slotStart (c.slotAt c.now))

/-- R716: the frame being received is abandoned at the next slot's start. -/
def Chip.slotOverrun (c : Chip) : Chip :=
  if c.radioOn && c.overrun then c.endReception.dinc (bzKey 34) else c

/-- R730: a source unheard for 16 superframes is forgotten. -/
def Chip.forgetSource (c : Chip) (source : Nat) : Chip :=
  match tabGet? c.breeze.sources source with
  | some x =>
    if 16 ≤ (c.dget (bzKey 19) + m32 - x.heard % m32) % m32 then
      { c with breeze := { c.breeze with sources := tabDel c.breeze.sources source } }
    else c
  | none => c

end Sys2Proof.Machine
end

