-- ==== Sys2Proof/Machine/Cameras.lean ====
section
/-! DEFINITION. Camera channels: packets, triggers, rectification, the pyramid ring and virtual streams
(R316 to R342, R370, R371, R373 to R377). -/

namespace Sys2Proof.Machine

/-- The key of entry :sub of channel ch (Table 7.9). -/
def camKey (ch sub : Nat) : Nat := ent (0x2000 + ch) sub

def Chip.cam (c : Chip) (ch : Nat) : Camera := tabGet {} c.cams ch
def Chip.setCam (c : Chip) (ch : Nat) (x : Camera) : Chip := { c with cams := tabSet c.cams ch x }

/-- P6 and P7: the core clocks are gated or stopped (R740). -/
def Chip.gated (c : Chip) : Bool := c.gov.p6 || c.gov.p7

/-- The channel is in service and enabled. -/
def Chip.camOn (c : Chip) (ch : Nat) : Bool := c.dbool (camKey ch 1) && !c.isRetired (.camera ch)

/-- WIDTH and HEIGHT. -/
def Chip.camWidth (c : Chip) (ch : Nat) : Nat := c.dget (camKey ch 6)
def Chip.camHeight (c : Chip) (ch : Nat) : Nat := c.dget (camKey ch 7)

/-- R318: the link whose packets channel ch takes. -/
def Chip.linkOf (c : Chip) (ch : Nat) : Nat := if c.dbool (camKey (ch / 2 * 2) 2) then ch / 2 * 2 else ch

/-- The enabled channels that take CSI-2 packets from a link. -/
def Chip.channelsOf (c : Chip) (link : Nat) : List Nat :=
  (List.range 6).filter (fun ch => c.linkOf ch == link && c.camOn ch && c.dget (camKey ch 34) == 0)

/-! ### Tensors of a channel (R370, R371) -/

/-- Identifier base of channel ch. -/
def camBase (ch : Nat) : Nat := 0xFF0000 + 0x100 * ch

/-- R342: BAND_ROWS. -/
def bandRows (w h : Nat) : Nat := Nat.min h (8388608 / w)

/-- R340: the size of level k. -/
def levelSize (w h k : Nat) : Nat × Nat := (w / 2 ^ k, h / 2 ^ k)

/-- The tensors of a channel: identifier and bytes (R370, R371). -/
def Chip.camTensors (c : Chip) (ch : Nat) : List (Nat × Nat) :=
  let w := c.camWidth ch
  let h := c.camHeight ch
  let br := bandRows w h
  let lists := (List.range (c.dget (camKey ch 31))).map (fun k => (camBase ch + k, 64 + 128 * c.dget (camKey ch 24)))
  let pyr := fun d =>
    ((List.range ((h + br - 1) / br)).map (fun t => (camBase ch + 0x20 + 8 * d + t, Nat.min br (h - t * br) * w))) ++
    (rangeFrom 1 3).map (fun k =>
      (camBase ch + 0x20 + 8 * d + 3 + k, (levelSize w h k).1 * (levelSize w h k).2))
  lists ++ (List.range (c.dget (camKey ch 32))).flatMap pyr

/-- Tensors are made one after another, or none of them. -/
def Chip.makeAll (c : Chip) (bill tier : Nat) : List (Nat × Nat) → Option Chip
  | [] => some c
  | t :: r => match c.makeEngineTensor t.1 bill tier t.2 0 with
    | some c1 => c1.makeAll bill tier r
    | none => none

/-- The tensors of a channel are freed. -/
def Chip.freeCamTensors (c : Chip) (ch : Nat) : Chip :=
  c.each ((c.tensors.filter (fun p => p.1 / 0x100 == camBase ch / 0x100)).map (·.1)) Chip.freeTensor

/-! ### Pixels -/

/-- The bits of each pixel of a data type (Table 7.2). -/
def pixelBits (format : Nat) : Nat :=
  if format = 0x2A then 8 else if format = 0x2B then 10 else if format = 0x2C then 12 else 14

/-- The group of pixels that `n` payload bytes spell: the high bytes of the pixels, then their low bits packed from
the first pixel up (MIPI CSI-2 v2.1; PRESUMED). -/
def unpackGroup (count low : Nat) (bs : List Byte) : List Nat :=
  let lows := leNat (bs.drop count)
  (List.range count).map (fun i => (bs.getD i 0).toNat * 2 ^ low + lows / 2 ^ (low * i) % 2 ^ low)

/-- Pixels of a payload, group by group, with fuel. -/
def unpackGroups (count bytes low : Nat) : Nat → List Byte → List Nat
  | 0, _ => []
  | n + 1, bs => if bs.length < bytes then [] else
      unpackGroup count low (bs.take bytes) ++ unpackGroups count bytes low n (bs.drop bytes)

/-- The pixels of a long packet's payload. -/
def unpackRow (format : Nat) (bs : List Byte) : List Nat :=
  if format = 0x2A then bs.map (·.toNat)
  else if format = 0x2B then unpackGroups 4 5 2 bs.length bs
  else if format = 0x2C then unpackGroups 2 3 4 bs.length bs
  else unpackGroups 4 7 6 bs.length bs

/-- R325: 8-bit intensity of a pixel of b bits. -/
def intensity (b black p : Nat) : Nat := Nat.min 255 (divRne (p - black) (2 ^ (b - 8)))

/-- One row or level of pixels: value and validity at a position, none outside. -/
abbrev Image := Nat → Nat → Nat × Bool

/-- A signed coordinate clamped to 0 … n − 1. -/
def clampTo (n : Nat) (i : Int) : Nat := (min (max i 0) ((n : Int) - 1)).toNat

/-! ### Rectification (R333 to R338) -/

/-- A point of the lookup: source X and Y in 1/65,536 pixel. -/
def lutPoint (bs : List Byte) (gx ix iy : Nat) : Int × Int :=
  let at_ := 0x10 + 8 * (iy * gx + ix)
  (toSigned 32 (fieldAt bs at_ 4), toSigned 32 (fieldAt bs (at_ + 4) 4))

/-- GX or GY of a size at grid spacing 2^g. -/
def gridCount (n g : Nat) : Nat := (n + 2 ^ g - 1) / 2 ^ g + 1

/-- R336: the source position of an output pixel, in 1/256 pixel. -/
def sourceAt (bs : List Byte) (w x y : Nat) : Int × Int :=
  let g := (bs.getD 8 0).toNat
  let n := 2 ^ g
  let gx := gridCount w g
  let fx : Int := (x % n : Nat)
  let fy : Int := (y % n : Nat)
  let m : Int := n
  let p := fun dx dy => lutPoint bs gx (x / n + dx) (y / n + dy)
  let mix := fun (a b cc d : Int) =>
    divRneInt ((m - fx) * (m - fy) * a + fx * (m - fy) * b + (m - fx) * fy * cc + fx * fy * d) (2 ^ (2 * g + 8))
  (mix (p 0 0).1 (p 1 0).1 (p 0 1).1 (p 1 1).1, mix (p 0 0).2 (p 1 0).2 (p 0 1).2 (p 1 1).2)

/-- R337: the converted image sampled bilinearly at a position in 1/256 pixel. -/
def sampleAt (w h : Nat) (img : Nat → Nat → Nat) (sx sy : Int) : Nat × Bool :=
  let x := sx / 256
  let y := sy / 256
  let fx := (sx % 256).toNat
  let fy := (sy % 256).toNat
  if x < 0 ∨ y < 0 ∨ (w : Int) ≤ x + 1 ∨ (h : Int) ≤ y + 1 then (0, false)
  else
    let px := img x.toNat y.toNat
    let qx := img (x.toNat + 1) y.toNat
    let py := img x.toNat (y.toNat + 1)
    let qy := img (x.toNat + 1) (y.toNat + 1)
    (divRne ((256 - fx) * (256 - fy) * px + fx * (256 - fy) * qx + (256 - fx) * fy * py + fx * fy * qy) 65536, true)

/-- R338: RECT_REACH of a channel. -/
def Chip.rectReach (c : Chip) (ch : Nat) : Nat :=
  let bank := if c.dget (camKey ch 35) = 0 then 0x100000 else 0x200000
  Nat.min 255 ((bank / c.camWidth ch - 2) / 2)

/-- R334: the checks of a lookup tensor; 0 is good. -/
def Chip.lutCheck (c : Chip) (ch t : Nat) : Nat :=
  match c.tensor? t with
  | none => 0x0A030003
  | some x =>
    if x.lost then 0x0A070001
    else if !(x.home == 1 || x.work == 1) || (x.pinTier != 0xFF && x.pinTier != 1) then 0x0A030003
    else
    let bs := c.tensorRead x 0 x.size
    let w := c.camWidth ch
    let h := c.camHeight ch
    let g := fieldAt bs 8 1
    let gx := gridCount w g
    let gy := gridCount h g
    let far := (List.range gy).any (fun iy => (List.range gx).any (fun ix =>
      let y := (lutPoint bs gx ix iy).2
      let own : Int := ((iy * 2 ^ g : Nat) : Int) * 65536
      decide ((c.rectReach ch : Int) * 65536 < (if own ≤ y then y - own else own - y))))
    if fieldAt bs 0 4 ≠ 0x54554C52 ∨ fieldAt bs 4 2 ≠ w ∨ fieldAt bs 6 2 ≠ h ∨ g < 3 ∨ 6 < g ∨ fieldAt bs 9 3 ≠ 0 ∨
        x.size ≠ 0x10 + 8 * (gx * gy) ∨ far = true then 0x0A030003
    else if fieldAt bs 0x0C 4 ≠ crc32 (bs.drop 0x10) then 0x0A0A0001 else 0

/-! ### The pyramid (R339 to R342) -/

/-- The tensor and the offset of pixel (x, y) of level k of pyramid slot d. -/
def Chip.pixelAt (c : Chip) (ch d k x y : Nat) : Nat × Nat :=
  let w := c.camWidth ch
  let br := bandRows w (c.camHeight ch)
  if k = 0 then (camBase ch + 0x20 + 8 * d + y / br, y % br * w + x)
  else (camBase ch + 0x20 + 8 * d + 3 + k, y * (w / 2 ^ k) + x)

/-- A level of the pyramid in a slot as an image. -/
def Chip.levelImage (c : Chip) (ch d k : Nat) : Image := fun x y =>
  let at_ := c.pixelAt ch d k x y
  let v := match c.tensor? at_.1 with
    | some t => ((c.tierMem t.currentAt.1).read (t.currentAt.2 + at_.2)).toNat
    | none => 0
  (v, !(tabGet {} (c.cam ch).frames d).invalid.contains (k, x, y))

/-- The binomial weights of R339. -/
def binomial : List Nat := [1, 4, 6, 4, 1]

/-- R339, R341: S_k at a pixel. -/
def smooth (w h : Nat) (img : Image) (x y : Nat) : Nat × Bool :=
  let px := (List.range 5).flatMap (fun (j : Nat) => (List.range 5).map (fun (i : Nat) =>
    let p := img (clampTo w ((x : Int) + (i : Nat) - 2)) (clampTo h ((y : Int) + (j : Nat) - 2))
    (binomial.getD i 0 * binomial.getD j 0 * p.1, p.2)))
  (divRne ((px.map (·.1)).foldl (· + ·) 0) 256, px.all (·.2))

/-- The pixels of one row of a level that ingest can now compute. -/
def Chip.levelRow (c : Chip) (ch d k y : Nat) : List (Nat × Bool) :=
  let w := c.camWidth ch
  let h := c.camHeight ch
  let f := tabGet {} (c.cam ch).frames d
  let wk := (levelSize w h k).1
  if k = 0 then
    let img := fun x y => (f.rows.getD y []).getD x 0
    match f.lut with
    | none => (List.range w).map (fun x => (img x y, true))
    | some t =>
      let bs := c.contents t
      (List.range w).map (fun x => let p := sourceAt bs w x y; sampleAt w h img p.1 p.2)
  else
    let below := c.levelImage ch d (k - 1)
    let sz := levelSize w h (k - 1)
    (List.range wk).map (fun x => smooth sz.1 sz.2 below (2 * x) (2 * y))

/-- One row of a level is written into the pyramid. -/
def Chip.writeLevelRow (c : Chip) (ch d k y : Nat) : Chip :=
  let px := c.levelRow ch d k y
  let at_ := c.pixelAt ch d k 0 y
  let c1 := (c.engineWrite at_.1 at_.2 (px.map (fun p => BitVec.ofNat 8 p.1)) 0x0010 ch).1
  let x := c1.cam ch
  let f := tabGet {} x.frames d
  let bad := ((List.range px.length).filter (fun i => !(px.getD i (0, true)).2)).map (fun i => (k, i, y))
  let f1 := { f with invalid := f.invalid ++ bad, written := f.written.set k (y + 1) }
  c1.setCam ch { x with frames := tabSet x.frames d f1 }

/-- R345: how many rows of level k can be written, given those of the level below (or the received rows). -/
def availableRows (h reach below k : Nat) (rect done : Bool) : Nat :=
  let hk := h / 2 ^ k
  if done then hk
  else if k = 0 then Nat.min h (if rect then below - reach - 1 else below)
  else Nat.min hk ((below - 1) / 2)

/-- Ingest writes every row of every level that the received rows determine; at the frame's end all of them. -/
def Chip.ingest (c : Chip) (ch d : Nat) (done : Bool) : Chip :=
  c.each (List.range 4) (fun c k =>
    let f := tabGet {} (c.cam ch).frames d
    let below := if k = 0 then f.rows.length else f.written.getD (k - 1) 0
    let n := availableRows (c.camHeight ch) (c.rectReach ch) below k f.lut.isSome done
    let from_ := f.written.getD k 0
    c.each (rangeFrom from_ (n - from_)) (fun c y => c.writeLevelRow ch d k y))

/-! ### Frames -/

/-- R320 to R323, R325: one accepted row of converted intensities; a bad CRC or a row that nothing supplied counts
as an error line. -/
def Chip.acceptRow (c : Chip) (ch : Nat) (row : List Nat) (error : Bool) : Chip :=
  let x := c.cam ch
  match x.current with
  | none => c
  | some d =>
    let f := tabGet {} x.frames d
    if c.camHeight ch ≤ f.count then
      let c1 := c.setCam ch { x with frames := tabSet x.frames d { f with count := f.count + 1, long := true } }
      if f.long then c1 else c1.dinc (camKey ch 44)
    else
      let f1 := { f with count := f.count + 1, rows := f.rows ++ [row], errorLines := f.errorLines + b2n error }
      (c.setCam ch { x with frames := tabSet x.frames d f1 }).ingest ch d false

/-- R323: the frame in progress ends. -/
def Chip.endFrame (c : Chip) (ch : Nat) : Chip :=
  let x := c.cam ch
  match x.current with
  | none => c
  | some d =>
    let f := tabGet {} x.frames d
    let h := c.camHeight ch
    let short := decide (f.count < h)
    let rows := f.rows ++ List.replicate (h - f.rows.length) (List.replicate (c.camWidth ch) 0)
    let c1 := (c.setCam ch { x with frames := tabSet x.frames d { f with rows, short } }).ingest ch d true
    let x1 := c1.cam ch
    let f1 := tabGet {} x1.frames d
    let f2 := { f1 with rows := [], ended := some c.posNat }
    let c2 := c1.setCam ch { x1 with current := none, frames := tabSet x1.frames d f2 }
    let c3 := if short then c2.dinc (camKey ch 43) else c2
    c3.dinc (camKey ch 39)

/-- R344: the extraction parameters as they stand. -/
def Chip.readParams (c : Chip) (ch slot serial : Nat) : CamRun :=
  let g := fun s => c.dget (camKey ch s)
  { slot, serial, tmin := g 16, tmax := g 17,
    threshold := Nat.min (Nat.max (g 15) (g 16)) (g 17),
    target := g 19, gain := g 20, arc := g 21, cell := g 22, keep := g 23, most := g 24, levels := g 25,
    flow := g 26 == 1, window := g 27, iter := g 28, residual := g 29, eig := g 30 }

/-- R343, R346: a run is requested on the frame whose Frame Start is the latest. It waits for EXTRACTION_RUN_START; a
request that already waits is superseded. -/
def Chip.askRun (c : Chip) (ch : Nat) : Chip :=
  let x := c.cam ch
  match x.latest with
  | none => c
  | some d =>
    let r : CamRun := { slot := d, serial := (tabGet {} x.frames d).serial }
    let c1 := c.setCam ch { x with asked := some r }
    if x.asked.isSome then c1.dinc (camKey ch 49) else c1

/-- R343: a FRONT_END_START cue names the channel. -/
def Chip.frontEndCue (c : Chip) (ch : Nat) : Chip :=
  if c.camOn ch && c.dget (camKey ch 14) == 2 then c.askRun ch else c

/-- R324, R329, R342 to R344: a frame starts. -/
def Chip.startFrame (c : Chip) (ch : Nat) : Chip :=
  let c := c.endFrame ch
  let x := c.cam ch
  let d := x.nextPyr
  let trig := x.triggers.head?
  let f : CamFrame := { serial := x.serial + 1, start := c.posNat, trigger := (trig.map (·.1)).getD 0,
                        freeRun := trig.isNone, overlap := (trig.map (·.2)).getD false,
                        black := c.dget (camKey ch 8),
                        lut := if c.dbool (camKey ch 11) then x.lut else none }
  let c1 := c.setCam ch { x with serial := x.serial + 1, current := some d, latest := some d,
                                 nextPyr := (d + 1) % c.dget (camKey ch 32),
                                 triggers := x.triggers.drop 1, frames := tabSet x.frames d f }
  if c1.dget (camKey ch 14) = 1 then c1.askRun ch else c1

/-- A converted row of exactly WIDTH pixels (R322). -/
def Chip.convertRow (c : Chip) (ch black : Nat) (px : List Nat) : List Nat :=
  let b := pixelBits (c.dget (camKey ch 5))
  let w := c.camWidth ch
  let row := (px.take w).map (intensity b black)
  row ++ List.replicate (w - row.length) 0

/-- R317, R320 to R322, R327: a long packet reaches an enabled channel of its link. -/
def Chip.camPacket (c : Chip) (ch : Nat) (p : LongPacket) : Chip :=
  let x := c.cam ch
  if c.gated then c.dinc (camKey ch 45)
  else if p.eccMulti then c.dinc (camKey ch 40)
  else if p.vc ≠ c.dget (camKey ch 4) ∨ p.format ≠ c.dget (camKey ch 5) ∨ x.current = none then c.dinc (camKey ch 45)
  else
    let black := match x.current with
      | some d => (tabGet {} x.frames d).black
      | none => 0
    let px := unpackRow p.format p.payload
    let c1 := if px.length != c.camWidth ch then c.dinc (camKey ch 42) else c
    let c2 := if p.crcOk then c1 else c1.dinc (camKey ch 41)
    if p.crcOk then c2.acceptRow ch (c2.convertRow ch black px) false
    else c2.acceptRow ch (List.replicate (c2.camWidth ch) 0) true

/-! ### Triggers -/

/-- R330: a TRIG_PULSE on the pin is suppressed by a channel with TRIG_GUARD 1 and an outstanding trigger. -/
def Chip.guarded (c : Chip) (pin : Nat) : Bool :=
  (List.range 6).any (fun ch => c.camOn ch && c.dget (camKey ch 9) == pin && c.dbool (camKey ch 10) &&
    !(c.cam ch).triggers.isEmpty)

/-- R330: the suppressed trigger is counted by the channels that guard the pin. -/
def Chip.suppressed (c : Chip) (pin : Nat) : Chip :=
  c.each (List.range 6) (fun c ch =>
    if c.camOn ch && c.dget (camKey ch 9) == pin && c.dbool (camKey ch 10) && !(c.cam ch).triggers.isEmpty then
      c.dinc (camKey ch 46) else c)

/-- R328, R331: an assertion of the pin becomes an outstanding trigger of each enabled channel that follows it. -/
def Chip.triggered (c : Chip) (pin : Nat) : Chip :=
  c.each (List.range 6) (fun c ch =>
    if c.camOn ch && c.dget (camKey ch 9) == pin then
      let x := c.cam ch
      let spill := !x.triggers.isEmpty
      let c1 := c.setCam ch { x with triggers := x.triggers ++ [(c.posNat, spill)] }
      if spill then c1.dinc (camKey ch 47) else c1
    else c)

/-- R332: outstanding triggers a whole frame old or older expire. -/
def Chip.expireTriggers (c : Chip) (ch : Nat) : Chip :=
  let x := c.cam ch
  let old := fun (t : Nat × Bool) => reached c.posNat (addPos c.epoch.frameLines t.1 m32)
  let n := x.triggers.countP old
  (c.setCam ch { x with triggers := x.triggers.filter (fun t => !old t) }).dadd (camKey ch 48) n

/-! ### Virtual streams (R373 to R376, R689) -/

/-- The bytes of one pixel in a frame tensor. -/
def pixelBytes (format : Nat) : Nat := if format = 0x2A then 1 else 2

/-- The pixels of raw frame bytes. -/
def rawPixels (format : Nat) (bs : List Byte) : List Nat :=
  if format = 0x2A then bs.map (·.toNat)
  else (List.range (bs.length / 2)).map (fun i => fieldAt bs (2 * i) 2)

/-- R376: the checks of an INJECT write to a channel. -/
def Chip.bandCheck (c : Chip) (ch t : Nat) : Nat :=
  match c.tensor? t with
  | none => 0x0A030003
  | some x =>
    if x.lost then 0x0A070001
    else
    let bs := c.tensorRead x 0 16
    let w := c.camWidth ch
    let h := c.camHeight ch
    let fmt := c.dget (camKey ch 5)
    let first := fieldAt bs 10 2
    let rows := fieldAt bs 12 2
    let k := c.cam ch
    if fieldAt bs 0 4 ≠ 0x4D525646 ∨ fieldAt bs 4 2 ≠ w ∨ fieldAt bs 6 2 ≠ h ∨ fieldAt bs 8 1 ≠ fmt ∨ rows = 0 ∨
        h < first + rows ∨ x.size ≠ 16 + rows * w * pixelBytes fmt ∨
        (first ≠ 0 ∧ k.named.isEmpty ∧ k.virtualFrame = none) then 0x0A030003 else 0

/-- R375: row k of the virtual frame f has fallen due. -/
def Chip.rowDue (c : Chip) (f k : Nat) : Bool :=
  let p := c.epoch.pos
  laterMod m32 p.frame f || (p.frame == f && decide (k ≤ p.line))

/-- R375, R376: a band is named. -/
def Chip.nameBand (c : Chip) (ch t : Nat) : Chip :=
  let bs := (c.contents t).take 16
  let first := fieldAt bs 10 2
  let b : Band := ⟨t, first, fieldAt bs 12 2⟩
  let x := c.cam ch
  if first = 0 then
    let c1 := c.setCam ch { x with named := [b], namedAt := c.posNat }
    if x.named.isEmpty then c1 else c1.dinc (camKey ch 49)
  else if !x.named.isEmpty then c.setCam ch { x with named := x.named ++ [b] }
  else match x.virtualFrame with
    | some f => if c.rowDue f first then c.dinc (camKey ch 45)
                else c.setCam ch { x with bands := x.bands ++ [b] }
    | none => c

/-- The bytes of row k of the virtual frame in progress that something has supplied; none when any is missing. -/
def Chip.virtualRow (c : Chip) (ch f k : Nat) : Option (List Byte) :=
  let x := c.cam ch
  let n := c.camWidth ch * pixelBytes (c.dget (camKey ch 5))
  if c.straps.mode = Mode.mesh then
    let mine := x.chunks.filter (fun q => q.frame == f)
    let byteAt := fun i => mine.findSome? (fun q =>
      if q.offset ≤ i ∧ i < q.offset + q.bytes.length then some (q.bytes.getD (i - q.offset) 0) else none)
    let bs := (rangeFrom (k * n) n).map byteAt
    if bs.all (·.isSome) then some (bs.map (·.getD 0)) else none
  else
    match x.bands.find? (fun b => decide (b.first ≤ k ∧ k < b.first + b.rows)) with
    | some b => some (((c.contents b.tensor).drop (16 + (k - b.first) * n)).take n)
    | none => none

/-- R689: the bytes that arrived of a row, with zeros for the missing ones. -/
def Chip.partialRow (c : Chip) (ch f k : Nat) : List Byte :=
  let x := c.cam ch
  let n := c.camWidth ch * pixelBytes (c.dget (camKey ch 5))
  (rangeFrom (k * n) n).map (fun i => ((x.chunks.filter (fun q => q.frame == f)).findSome? (fun q =>
    if q.offset ≤ i ∧ i < q.offset + q.bytes.length then some (q.bytes.getD (i - q.offset) 0) else none)).getD 0)

/-- R375: the rows of the virtual frame that are due are processed, and the frame ends after its last. -/
def Chip.deliverRows (c : Chip) (ch f : Nat) : Chip :=
  c.each (List.range (c.camHeight ch)) (fun c k =>
    match (c.cam ch).current with
    | none => c
    | some d =>
      let fr := tabGet {} (c.cam ch).frames d
      if fr.count = k ∧ c.rowDue f k then
        let fmt := c.dget (camKey ch 5)
        let c1 := match c.virtualRow ch f k with
          | some bs => c.acceptRow ch (c.convertRow ch fr.black (rawPixels fmt bs)) false
          | none =>
            let px := if c.straps.mode = Mode.mesh then rawPixels fmt (c.partialRow ch f k) else []
            c.acceptRow ch (c.convertRow ch fr.black px) true
        let x1 := c1.cam ch
        let c2 := c1.setCam ch { x1 with bands := x1.bands.filter (fun b => decide (k + 1 < b.first + b.rows)) }
        if k + 1 = c.camHeight ch then
          let c3 := c2.endFrame ch
          c3.setCam ch { c3.cam ch with virtualFrame := none, bands := [],
                                        chunks := (c3.cam ch).chunks.filter (fun q => q.frame != f) }
        else c2
      else c)

/-- R375, R689: a named frame starts at the first frame start after its naming, in mesh mode a frame of which bytes
have arrived at its own frame start; due rows are processed. In P6 and P7 nothing is (R327). -/
def Chip.virtualDelivery (c : Chip) (ch : Nat) : Chip :=
  if !(c.camOn ch) || c.dget (camKey ch 34) != 1 || c.gated then c
  else
    let x := c.cam ch
    let now := c.epoch.pos.frame
    let starts := if c.straps.mode = Mode.mesh then
        x.chunks.any (fun q => q.frame == now) && x.virtualFrame != some now
      else !x.named.isEmpty && laterMod m32 now (x.namedAt / m32)
    let c1 := if starts then
        let c0 := c.startFrame ch
        c0.setCam ch { c0.cam ch with virtualFrame := some now, bands := (c0.cam ch).named, named := [] }
      else c
    match (c1.cam ch).virtualFrame with
    | some f => c1.deliverRows ch f
    | none => c1

/-! ### Entries -/

/-- INJECT outside bench mode, or by another voice than the channel's. -/
def Chip.camFixed (c : Chip) (v ch sub : Nat) : Bool :=
  sub == 36 && (c.straps.mode != .bench || v != c.dget (camKey ch 33))

/-- What a write to an entry of Table 7.9 checks beyond type, range and state (R319, R334, R353, R371, R373, R376,
R377). -/
def Chip.camCheck (c : Chip) (ch sub value : Nat) : Nat :=
  let other := if ch % 2 = 0 then ch + 1 else ch - 1
  match sub with
  | 1 =>
    if value = 0 then 0
    else
      let paired := c.dbool (camKey (ch / 2 * 2) 2)
      if paired && ((c.dbool (camKey other 1) && c.dget (camKey other 4) == c.dget (camKey ch 4)) ||
          c.dget (camKey other 5) != c.dget (camKey ch 5)) then 0x0A030003
      else if !c.dbool (camKey ch 1) && (c.makeAll (c.dget (camKey ch 33)) 1 (c.camTensors ch)).isNone then 0x0A050001 else 0
  | 2 => if ch % 2 = 1 ∧ value = 1 then 0x0A030001 else 0
  | 11 => if value = 1 then c.lutCheck ch (c.dget (camKey ch 12)) else 0
  | 16 => if c.dget (camKey ch 17) < value then 0x0A030003 else 0
  | 17 => if value < c.dget (camKey ch 16) then 0x0A030003 else 0
  | 27 => if value % 2 = 0 then 0x0A030001 else 0
  | 34 => if value = 1 ∧ c.straps.mode = .field then 0x0A030001 else 0
  | 35 =>
    if value ≠ 0 ∧ (List.range 6).any (fun k => k != ch && c.dget (camKey k 35) == value) then 0x0A030003 else 0
  | 36 => firstCode [if !c.camOn ch || c.dget (camKey ch 34) != 1 then 0x0A030003 else 0, c.bandCheck ch value]
  | _ => 0

/-- R365, R371: a channel is switched on or off. -/
def Chip.camEnable (c : Chip) (ch : Nat) (on : Bool) : Chip :=
  if on then
    match c.makeAll (c.dget (camKey ch 33)) 1 (c.camTensors ch) with
    | some c1 => c1.setCam ch { trackId := (c.cam ch).trackId, lut := (c.cam ch).lut }
    | none => c
  else (c.freeCamTensors ch).setCam ch { trackId := (c.cam ch).trackId, lut := (c.cam ch).lut }

/-- R335: the lookup is held pinned in tier 1, or let go: the pin stays where a command made it too, or another channel
holds the same lookup. -/
def Chip.camRect (c : Chip) (ch : Nat) (on : Bool) : Chip :=
  let x := c.cam ch
  if on then
    let t := c.dget (camKey ch 12)
    let c1 := match c.tensor? t with
      | some k => c.setTensor t { k with pinTier := 1 }
      | none => c
    c1.setCam ch { x with lut := some t }
  else
    let c1 := c.setCam ch { x with lut := none }
    match x.lut with
    | some t => match c1.tensor? t with
      | some k => if k.voicePin || c1.lutHeld t then c1 else c1.setTensor t { k with pinTier := 0xFF }
      | none => c1
    | none => c1

/-- The effect of a committed write to an entry of Table 7.9 beside its stored value; `old` is the value before. -/
def Chip.camCommit (c : Chip) (ch sub old value : Nat) : Chip :=
  match sub with
  | 1 => if old = value then c else c.camEnable ch (value == 1)
  | 11 => if old = value then c else c.camRect ch (value == 1)
  | 36 => c.nameBand ch value
  | _ => c

end Sys2Proof.Machine
end

