-- ==== Sys2Proof/Machine/FrontEnd.lean ====
section
/-! DEFINITION. Extraction runs: corners, suppression, the plain descriptor, tracking and the feature list
(R343 to R372). -/

namespace Sys2Proof.Machine

/-! ### Corners (R349 to R351) -/

/-- The 16 circle offsets of R349. -/
def circle : List (Int × Int) :=
  [(0, -3), (1, -3), (2, -2), (3, -1), (3, 0), (3, 1), (2, 2), (1, 3),
   (0, 3), (-1, 3), (-2, 2), (-3, 1), (-3, 0), (-3, -1), (-2, -2), (-1, -3)]

/-- The least element of a non-empty list of integers, and 0 of an empty one. -/
def leastOf : List Int → Int
  | [] => 0
  | a :: r => r.foldl min a

/-- R350, R351: the largest t at which some `arc` consecutive circle differences are all at least t, or all at most
−t; differences are circle less centre. -/
def arcScore (arc : Nat) (diffs : List Int) : Int :=
  let ring := diffs ++ diffs
  let runs := (List.range 16).map (fun s => (ring.drop s).take arc)
  ((runs.map leastOf) ++ (runs.map (fun r => leastOf (r.map (fun d => -d))))).foldl max 0

/-- R349 to R351: the score of a pixel of a level; 0 where the segment test is not applied or never passes. -/
def cornerScore (w h arc : Nat) (img : Image) (x y : Nat) : Nat :=
  if x < 16 ∨ y < 16 ∨ w < x + 17 ∨ h < y + 17 ∨ !(img x y).2 then 0
  else
    let ring := circle.map (fun o => img ((x : Int) + o.1).toNat ((y : Int) + o.2).toNat)
    if ring.all (·.2) then (arcScore arc (ring.map (fun p => (p.1 : Int) - (img x y).1))).toNat else 0

/-- A corner: score, level and pixel. -/
structure Corner where
  score : Nat
  level : Nat
  x : Nat
  y : Nat
  deriving DecidableEq, Repr

/-- R356: the local test on the table of scores of a level, row by row. -/
def localBest (scores : List (List Nat)) (x y : Nat) : Bool :=
  let at_ := fun (i j : Nat) => (scores.getD j []).getD i 0
  let s := at_ x y
  decide (at_ (x - 1) (y - 1) < s) && decide (at_ x (y - 1) < s) && decide (at_ (x + 1) (y - 1) < s) &&
  decide (at_ (x - 1) y < s) && decide (at_ (x + 1) y ≤ s) &&
  decide (at_ (x - 1) (y + 1) ≤ s) && decide (at_ x (y + 1) ≤ s) && decide (at_ (x + 1) (y + 1) ≤ s)

/-- The candidates of a level that survive the local test, at threshold t. -/
def levelCorners (w h arc t level : Nat) (img : Image) : List Corner :=
  let scores := (List.range h).map (fun y => (List.range w).map (fun x => cornerScore w h arc img x y))
  (List.range h).flatMap (fun y => (List.range w).filterMap (fun x =>
    let s := (scores.getD y []).getD x 0
    if t ≤ s ∧ 0 < s ∧ localBest scores x y then some ⟨s, level, x, y⟩ else none))

/-- R358: the rank order. -/
def Corner.before (a b : Corner) : Bool :=
  if a.score ≠ b.score then b.score < a.score
  else if a.level ≠ b.level then a.level < b.level
  else if a.y ≠ b.y then a.y < b.y
  else a.x ≤ b.x

/-- R357: the cell of a level-0 position in pixels. -/
def cellOf (cell x y : Nat) : Nat × Nat := (x / cell, y / cell)

/-- R358: ranked corners kept while their cell has room; `cells` are the cells already counted. -/
def keepCorners (cell keep : Nat) : List (Nat × Nat) → List Corner → List Corner
  | _, [] => []
  | cells, k :: r =>
    let q := cellOf cell (k.x * 2 ^ k.level) (k.y * 2 ^ k.level)
    if cells.count q < keep then k :: keepCorners cell keep (q :: cells) r else keepCorners cell keep cells r

/-! ### The plain descriptor (R360 to R362) -/

/-- One step of the generator of R360. -/
def pairStep (x : Nat) : Nat :=
  let x1 := x ^^^ (x * 0x2000 % m32)
  let x2 := x1 ^^^ (x1 / 0x20000)
  x2 ^^^ (x2 * 0x20 % m32)

/-- A sampling pair: a, then b. -/
abbrev SamplePair := (Int × Int) × (Int × Int)

/-- The pair that a generator value spells. -/
def pairOf (x : Nat) : SamplePair :=
  let q := fun (k : Nat) => ((x / 2 ^ (8 * k) % 256 % 31 : Nat) : Int) - 15
  ((q 0, q 1), (q 2, q 3))

/-- The acceptance test of R360. -/
def pairGood (p : SamplePair) : Bool :=
  p.1 != p.2 && decide (p.1.1 * p.1.1 + p.1.2 * p.1.2 ≤ 225) && decide (p.2.1 * p.2.1 + p.2.2 * p.2.2 ≤ 225)

/-- The pairs of R360 from a generator value on, with fuel for the steps. -/
def pairsFrom : Nat → Nat → Nat → List SamplePair
  | 0, _, _ => []
  | _, _, 0 => []
  | fuel + 1, x, n + 1 =>
    let x' := pairStep x
    if pairGood (pairOf x') then pairOf x' :: pairsFrom fuel x' n else pairsFrom fuel x' (n + 1)

/-- R360: the 256 sampling pairs; 2,048 steps suffice. -/
def samplePairs : List SamplePair := pairsFrom 2048 0x9E3779B9 256

/-- S_LEVEL at a signed pixel; none outside the level or where it is not valid. -/
def smoothAt (w h : Nat) (img : Image) (x y : Int) : Option Nat :=
  if x < 0 ∨ y < 0 ∨ (w : Int) ≤ x ∨ (h : Int) ≤ y then none
  else
    let p := smooth w h img x.toNat y.toNat
    if p.2 then some p.1 else none

/-- R361, R362: the 32 bytes of a descriptor at a centre, and DESC_PARTIAL. -/
def plainDescriptor (w h : Nat) (img : Image) (cx cy : Int) : List Byte × Bool :=
  let bitsOf := samplePairs.map (fun p =>
    match smoothAt w h img (cx + p.1.1) (cy + p.1.2), smoothAt w h img (cx + p.2.1) (cy + p.2.2) with
    | some a, some b => (decide (a < b), false)
    | _, _ => (false, true))
  let n := (bitsOf.zipIdx).foldl (fun acc q => if q.1.1 then acc + 2 ^ q.2 else acc) 0
  (leBytes 32 n, bitsOf.any (·.2))

/-! ### Records (Table 7.6) -/

/-- The 64 bytes of a record. -/
def Feature.bytes (r : Feature) : List Byte :=
  leBytes 4 r.id ++ leBytes 4 r.x ++ leBytes 4 r.y ++ leBytes 1 r.level ++ leBytes 1 r.score ++
  leBytes 1 r.status ++ leBytes 1 (b2n r.part) ++ padTo 32 r.desc ++ leBytes 2 r.residual ++ leBytes 2 r.age ++
  leBytes 4 r.eig ++ leBytes 8 0

/-- A record read back from its bytes. -/
def Feature.ofBytes (bs : List Byte) : Feature :=
  { id := fieldAt bs 0 4, x := fieldAt bs 4 4, y := fieldAt bs 8 4, level := fieldAt bs 12 1,
    score := fieldAt bs 13 1, status := fieldAt bs 14 1, part := fieldAt bs 15 1 == 1,
    desc := (bs.drop 16).take 32, residual := fieldAt bs 48 2, age := fieldAt bs 50 2, eig := fieldAt bs 52 4 }

/-- The records of a feature list tensor. -/
def listRecords (bs : List Byte) : List Feature :=
  (List.range (fieldAt bs 0x24 2)).map (fun i => Feature.ofBytes ((bs.drop (64 + 64 * i)).take 64))

/-- R361: a record's centre on its level. -/
def Feature.centre (r : Feature) : Int × Int :=
  (divRneInt (toSigned 32 r.x) (256 * 2 ^ r.level), divRneInt (toSigned 32 r.y) (256 * 2 ^ r.level))

/-- The record with the descriptor at its place in a pyramid (R361, R368). -/
def Feature.describe (r : Feature) (size : Nat → Nat × Nat) (img : Nat → Image) : Feature :=
  let d := plainDescriptor (size r.level).1 (size r.level).2 (img r.level) r.centre.1 r.centre.2
  { r with desc := d.1, part := d.2 }

/-! ### Tracking (R365 to R368): positions, sums and steps are FP32 patterns -/

/-- R366: an FP32 position rounded to 1/256 pixel; none where it is no finite number. -/
def position256 (p : Nat) : Option Int :=
  match Fmt.f32.decode p with
  | .fin neg m e =>
    let s : Int := if neg then -(m : Int) else m
    some (if 0 ≤ e + 8 then s * 2 ^ (e + 8).toNat else divRneInt s (2 ^ (-(e + 8)).toNat))
  | _ => none

/-- A level of a pyramid: its size and its pixels. -/
structure Level where
  width : Nat
  height : Nat
  img : Image

/-- R366: a level sampled bilinearly at an FP32 position, which is rounded to 1/256 pixel; none where one of the four pixels
lies outside the level or is not valid. -/
def Level.sample (l : Level) (px py : Nat) : Option Nat :=
  match position256 px, position256 py with
  | some sx, some sy =>
    let x := sx / 256
    let y := sy / 256
    let fx := (sx % 256).toNat
    let fy := (sy % 256).toNat
    if x < 0 ∨ y < 0 ∨ (l.width : Int) ≤ x + 1 ∨ (l.height : Int) ≤ y + 1 then none
    else
      let p := fun dx dy => l.img (x.toNat + dx) (y.toNat + dy)
      if (p 0 0).2 && (p 1 0).2 && (p 0 1).2 && (p 1 1).2 then
        some (Fmt.f32.ofRat false ((256 - fx) * (256 - fy) * (p 0 0).1 + fx * (256 - fy) * (p 1 0).1 +
          (256 - fx) * fy * (p 0 1).1 + fx * fy * (p 1 1).1) 65536)
      else none
  | _, _ => none

/-- The offsets of a square window of `n` pixels a side, n odd, in raster order. -/
def windowOffsets (n : Nat) : List (Int × Int) :=
  (List.range n).flatMap (fun (j : Nat) => (List.range n).map (fun (i : Nat) =>
    ((i : Int) - (n / 2 : Nat), (j : Int) - (n / 2 : Nat))))

/-- The sample at an offset of whole pixels from an FP32 position. -/
def Level.sampleBy (l : Level) (px py : Nat) (o : Int × Int) : Option Nat :=
  l.sample (Fmt.f32.add px (Fmt.f32.ofInt o.1)) (Fmt.f32.add py (Fmt.f32.ofInt o.2))

/-- The samples of a window about an FP32 position in raster order; none where the window leaves the valid area. -/
def Level.window (l : Level) (n px py : Nat) : Option (List Nat) :=
  let s := (windowOffsets n).map (l.sampleBy px py)
  if s.all (·.isSome) then some (s.map (·.getD 0)) else none

/-- The gradient of a level at a window's pixels: `Config.gradient` of the 5 × 5 samples about each of them. -/
def Level.gradients (l : Level) (n px py : Nat) : List (Nat × Nat) :=
  (windowOffsets n).map (fun o =>
    let near := (windowOffsets 5).map (fun q => l.sampleBy px py (o.1 + q.1, o.2 + q.2))
    (Config.gradient 0 near % m32, Config.gradient 1 near % m32))

/-- R366: the sum of products, term after term. -/
def sumProducts (ts : List (Nat × Nat)) : Nat :=
  ts.foldl (fun acc t => Fmt.f32.add acc (Fmt.f32.mul t.1 t.2)) 0

/-- The gradient matrix of a window: its elements xx, xy and yy. -/
structure GradMatrix where
  xx : Nat
  xy : Nat
  yy : Nat

def gradMatrix (g : List (Nat × Nat)) : GradMatrix :=
  ⟨sumProducts (g.map (fun q => (q.1, q.1))), sumProducts g, sumProducts (g.map (fun q => (q.2, q.2)))⟩

/-- R366: the 2 × 2 system in closed form; a singular one gives a free step. -/
def GradMatrix.solve (a : GradMatrix) (ex ey : Nat) : Nat × Nat :=
  let f := Fmt.f32
  let det := f.sub (f.mul a.xx a.yy) (f.mul a.xy a.xy)
  if f.abs det = 0 then
    let at_ := [a.xx, a.xy, a.yy, ex, ey]
    (Config.singularStep 0 at_ % m32, Config.singularStep 1 at_ % m32)
  else (f.div (f.sub (f.mul a.yy ex) (f.mul a.xy ey)) det, f.div (f.sub (f.mul a.xx ey) (f.mul a.xy ex)) det)

/-- R367: the smaller eigenvalue divided by the window's pixel count. -/
def GradMatrix.minEig (a : GradMatrix) (count : Nat) : Nat :=
  let f := Fmt.f32
  let d := f.sub a.xx a.yy
  let root := f.sqrt (f.add (f.mul d d) (f.mul (f.ofInt 4) (f.mul a.xy a.xy)))
  f.div (f.div (f.sub (f.add a.xx a.yy) root) (f.ofInt 2)) (f.ofInt count)

/-- Where a track stands within a level: the displacement from the previous position, and what the window's matrix is. -/
structure Flow where
  dx : Nat
  dy : Nat
  grad : GradMatrix

/-- One iteration: the window of the current level at the displaced position against that of the previous one. -/
def Flow.iterate (fl : Flow) (cur : Level) (n px py : Nat) (old : List Nat) (g : List (Nat × Nat)) : Option Flow :=
  let f := Fmt.f32
  match cur.window n (f.add px fl.dx) (f.add py fl.dy) with
  | none => none
  | some new =>
    let diff := (old.zip new).map (fun q => f.sub q.1 q.2)
    let s := fl.grad.solve (sumProducts (diff.zip (g.map (·.1)))) (sumProducts (diff.zip (g.map (·.2))))
    some { fl with dx := f.add fl.dx s.1, dy := f.add fl.dy s.2 }

/-- An optional value taken through n steps. -/
def iterateOpt {α : Type} (step : α → Option α) : Nat → α → Option α
  | 0, a => some a
  | n + 1, a => (step a).bind (iterateOpt step n)

/-- A position of 1/256 level-0 pixel on level k. -/
def levelPosition (k : Nat) (x : Int) : Nat := Fmt.f32.ofRat (decide (x < 0)) x.natAbs (256 * 2 ^ k)

/-- R365: one level: exactly `iters` iterations from a displacement; none where a window leaves the valid area. -/
def trackLevel (prev cur : Level) (n iters k : Nat) (x y : Int) (dx dy : Nat) : Option Flow :=
  let px := levelPosition k x
  let py := levelPosition k y
  match prev.window n px py with
  | none => none
  | some old =>
    let g := prev.gradients n px py
    iterateOpt (fun fl => fl.iterate cur n px py old g) iters ⟨dx, dy, gradMatrix g⟩

/-- R365: levels 3 to 0, the guess of each the displacement of the one above, doubled. -/
def trackLevels (prev cur : Nat → Level) (n iters : Nat) (x y : Int) : Option Flow :=
  let two := Fmt.f32.ofInt 2
  [2, 1, 0].foldl (fun (acc : Option Flow) k => acc.bind (fun fl =>
      trackLevel (prev k) (cur k) n iters k x y (Fmt.f32.mul two fl.dx) (Fmt.f32.mul two fl.dy)))
    (trackLevel (prev 3) (cur 3) n iters 3 x y 0 0)

/-- R367: the mean absolute residual at level 0 of a track at its final position. -/
def finalResidual (prev cur : Level) (n : Nat) (x y : Int) (fl : Flow) : Option Nat :=
  let f := Fmt.f32
  let px := levelPosition 0 x
  let py := levelPosition 0 y
  match prev.window n px py, cur.window n (f.add px fl.dx) (f.add py fl.dy) with
  | some old, some new =>
    some (f.div ((old.zip new).foldl (fun acc q => f.add acc (f.abs (f.sub q.1 q.2))) 0) (f.ofInt (n * n)))
  | _, _ => none

/-- Where a track ended: the new position in 1/256 pixel, the residual and the normalised smaller eigenvalue. -/
structure Tracked where
  x : Int
  y : Int
  residual : Nat
  eig : Nat

/-- R365, R366: a position tracked from one pyramid into another; none where a window leaves the valid area. -/
def trackPoint (prev cur : Nat → Level) (n iters : Nat) (x y : Int) : Option Tracked :=
  let f := Fmt.f32
  match trackLevels prev cur n iters x y with
  | none => none
  | some fl =>
    match finalResidual (prev 0) (cur 0) n x y fl, position256 (f.add (levelPosition 0 x) fl.dx),
        position256 (f.add (levelPosition 0 y) fl.dy) with
    | some res, some nx, some ny => some ⟨nx, ny, res, fl.grad.minEig (n * n)⟩
    | _, _, _ => none

/-- R367, R368: one record of the previous list is tracked into the current pyramid. A lost record keeps the position that
the previous list gives it. -/
def Feature.track (r : Feature) (p : CamRun) (prev cur : Nat → Level) : Feature :=
  let f := Fmt.f32
  match trackPoint prev cur p.window p.iter (toSigned 32 r.x) (toSigned 32 r.y) with
  | none =>
    let at_ := [r.id, r.x, r.y]
    { r with status := 2, residual := Config.borderField 0 at_ % 0x10000, eig := Config.borderField 1 at_ % m32 }
  | some o =>
    let q := { r with residual := ((position256 o.residual).getD 0).toNat % 0x10000, eig := o.eig }
    if f.lt o.eig p.eig then { q with status := 3 }
    else if f.lt (f.ofInt p.residual) o.residual then { q with status := 4 }
    else { q with status := 1, x := (o.x % m32).toNat, y := (o.y % m32).toNat, age := Nat.min 65535 (r.age + 1) }

/-! ### Runs -/

/-- The frame of a run still lies in the ring. -/
def Chip.frameThere (c : Chip) (ch slot serial : Nat) : Bool :=
  (tabGet {} (c.cam ch).frames slot).serial == serial

/-- R363, R364: the records to track, the previous pyramid's slot and the start of the frame tracked from. -/
def Chip.trackSource (c : Chip) (ch : Nat) : Option (List Feature × Nat × Nat) :=
  match (c.cam ch).prev with
  | none => none
  | some p =>
    if c.frameThere ch p.slot p.serial then
      some ((listRecords (c.contents p.list)).filter (fun r => r.status == 0 || r.status == 1), p.slot, p.start)
    else none

/-- A level of the pyramid in a slot, for the tracker. -/
def Chip.pyramidLevel (c : Chip) (ch slot k : Nat) : Level :=
  let sz := levelSize (c.camWidth ch) (c.camHeight ch) k
  ⟨sz.1, sz.2, c.levelImage ch slot k⟩

/-- R363 to R368: the tracked records of a run, whatever their status, each with the descriptor at its position. -/
def Chip.trackAll (c : Chip) (ch : Nat) (r : CamRun) : List Feature :=
  if !r.flow then []
  else match c.trackSource ch with
    | none => []
    | some (old, slot, _) =>
      let size := levelSize (c.camWidth ch) (c.camHeight ch)
      old.map (fun f => (f.track r (c.pyramidLevel ch slot) (c.pyramidLevel ch r.slot)).describe size (c.levelImage ch r.slot))

/-- R349 to R358: the kept candidates before the cap, in rank order. -/
def Chip.newCorners (c : Chip) (ch : Nat) (r : CamRun) (tracked : List Feature) : List Corner :=
  let size := levelSize (c.camWidth ch) (c.camHeight ch)
  let found := ((List.range 4).filter (bit r.levels ·)).flatMap (fun k =>
    levelCorners (size k).1 (size k).2 r.arc r.threshold k (c.levelImage ch r.slot k))
  let cells := (tracked.filter (·.status == 1)).map (fun f => cellOf r.cell (f.x / 256) (f.y / 256))
  keepCorners r.cell r.keep cells (sortBy Corner.before found)

/-- TRACK_ID i after the next one (R372): from 1, modulo 2^32. -/
def trackIdAt (next i : Nat) : Nat := (next + i) % m32

/-- R359, R372: the NEW records. -/
def Chip.newRecords (c : Chip) (ch : Nat) (r : CamRun) (ks : List Corner) : List Feature :=
  let size := levelSize (c.camWidth ch) (c.camHeight ch)
  (ks.zipIdx).map (fun q =>
    ({ id := trackIdAt (c.cam ch).trackId q.2, x := q.1.x * 2 ^ q.1.level * 256, y := q.1.y * 2 ^ q.1.level * 256,
       level := q.1.level, score := q.1.score, status := 0 } : Feature).describe size (c.levelImage ch r.slot))

/-- R354: THRESHOLD after a run. -/
def nextThreshold (r : CamRun) (n : Nat) : Nat :=
  let e : Int := (n : Int) - r.target
  let t : Int := r.threshold
  let t1 := if r.target / 8 < e.natAbs then
      let step : Int := (Nat.min 8 (Nat.max 1 (e.natAbs * r.gain / r.target)) : Nat)
      if 0 < e then t + step else t - step
    else t
  (min (max t1 r.tmin) r.tmax).toNat

/-- Table 7.5: the header of a list. -/
def listHeader (ch : Nat) (r : CamRun) (f : CamFrame) (w h : Nat) (recs : List Feature) (prev : Option Nat) :
    List Byte :=
  let flags := b2n f.short + 2 * b2n f.long + 4 * b2n (f.errorLines != 0) + 8 * b2n prev.isNone +
    16 * b2n f.freeRun + 32 * b2n f.overlap + 64 * b2n f.lut.isSome
  leBytes 4 0x46544C53 ++ leBytes 1 ch ++ leBytes 1 r.levels ++ leBytes 1 r.threshold ++ leBytes 1 flags ++
  leBytes 8 f.start ++ leBytes 8 f.trigger ++ leBytes 8 (f.ended.getD 0) ++ leBytes 2 w ++ leBytes 2 h ++
  leBytes 2 recs.length ++ leBytes 2 (recs.countP (·.status == 1)) ++
  leBytes 2 (recs.countP (fun x => decide (2 ≤ x.status))) ++ leBytes 2 (recs.countP (·.status == 0)) ++
  leBytes 2 f.errorLines ++ leBytes 2 0 ++ leBytes 8 (prev.getD 0) ++ leBytes 8 0

/-- R354, R369, R372: the run in progress ends, once its frame has ended. -/
def Chip.endRun (c : Chip) (ch : Nat) : Chip :=
  let x := c.cam ch
  match x.run with
  | none => c
  | some r =>
    let f := tabGet {} x.frames r.slot
    if !c.camOn ch || !c.frameThere ch r.slot r.serial then c.setCam ch { x with run := none }
    else if f.ended = none then c
    else
      let tracked := c.trackAll ch r
      let prev := if r.flow then (c.trackSource ch).map (·.2.2) else none
      let kept := c.newCorners ch r tracked
      let ok := tracked.countP (·.status == 1)
      let fresh := c.newRecords ch r (kept.take (r.most - ok))
      let recs := tracked ++ fresh
      let list := camBase ch + x.nextList
      let bytes := listHeader ch r f (c.camWidth ch) (c.camHeight ch) recs prev ++ recs.flatMap Feature.bytes
      let c1 := ((c.engineWrite list 0 bytes 0x0010 ch).1).rawRecord (0x14 + ch) bytes
      let c2 := c1.setCam ch { x with run := none, nextList := (x.nextList + 1) % c.dget (camKey ch 31),
                                      trackId := trackIdAt x.trackId fresh.length,
                                      prev := some ⟨list, r.slot, r.serial, f.start⟩ }
      let c3 := (c2.dset (camKey ch 37) list).dset (camKey ch 38) f.start
      if c.dbool (camKey ch 18) then c3 else c3.dset (camKey ch 15) (nextThreshold r (ok + kept.length))

/-- R343, R344, R346: a requested run starts, or becomes pending behind the one in progress. -/
def Chip.startRun (c : Chip) (ch : Nat) : Chip :=
  let x := c.cam ch
  match x.asked with
  | none => c
  | some r =>
    if !c.camOn ch then c.setCam ch { x with asked := none }
    else if x.run.isSome then
      let c1 := c.setCam ch { x with asked := none, waiting := some r }
      if x.waiting.isSome then c1.dinc (camKey ch 49) else c1
    else c.setCam ch { x with asked := none, run := some (c.readParams ch r.slot r.serial) }

/-- R346, R347: the pending run starts once no run is in progress, or is dropped with its pyramid gone. -/
def Chip.startPending (c : Chip) (ch : Nat) : Chip :=
  let x := c.cam ch
  match x.waiting, x.run with
  | some r, none =>
    let c1 := c.setCam ch { x with waiting := none }
    if c.frameThere ch r.slot r.serial then
      c1.setCam ch { x with waiting := none, run := some (c.readParams ch r.slot r.serial) }
    else c1.dinc (camKey ch 50)
  | _, _ => c

end Sys2Proof.Machine
end

