-- ==== Sys2Proof/Machine/EstimatorMap.lean ====
section
/-! DEFINITION. The estimator's explicit rules over features, keyframes and the map: matching, embeddings, candidate
scores, budgets, culling, export and import (R465, R472, R474, R481 to R485, R497 to R500). -/

namespace Sys2Proof.Machine

def Chip.est (c : Chip) (i : Nat) : Estimator := tabGet {} c.ests i
def Chip.setEst (c : Chip) (i : Nat) (e : Estimator) : Chip := { c with ests := tabSet c.ests i e }

/-- The voice that instance i is bound to. -/
def Chip.estVoice (c : Chip) (i : Nat) : Nat := c.dget (entEst i 0x3000 3)

/-! ### Matching (R465) -/

/-- The Hamming distance of two descriptors. -/
def hamming (a b : List Byte) : Nat := ((a.zip b).map (fun p => popcount 8 (p.1 ^^^ p.2).toNat)).foldl (· + ·) 0

/-- R465: the landmark that a track of a camera continues. -/
def Estimator.trackOf (e : Estimator) (cam track : Nat) : Option Nat :=
  (e.assoc.find? (fun q => q.1 == (cam, track))).map (·.2)

/-- R465: the pairs of records (those that `ok` names) and points within the limit, lowest distance first, then lowest
identifier: distance, point, record. -/
def matchPairs (limit : Nat) (pts : List EstPoint) (ok : Feature → Bool) (recs : List (Nat × Feature)) : List (Nat × Nat × Nat) :=
  let all := (recs.zipIdx).flatMap (fun q =>
    if ok q.1.2 then (pts.map (fun p => (hamming q.1.2.desc p.desc, p.id, q.2))).filter (fun t => t.1 ≤ limit)
    else [])
  sortBy (fun a b => decide (a.1 < b.1 ∨ (a.1 = b.1 ∧ (a.2.1 < b.2.1 ∨ (a.2.1 = b.2.1 ∧ a.2.2 ≤ b.2.2))))) all

/-- The records of a frame take points in the order of the pairs. A point takes one record of a camera (DEDUCED). -/
def acceptPairs (recs : List (Nat × Feature)) (pairs : List (Nat × Nat × Nat)) (ms : List (Option Nat)) : List (Option Nat) :=
  pairs.foldl (fun ms t =>
    let cam := ((recs[t.2.2]?).map (·.1)).getD 0
    let taken := (ms.zip recs).any (fun q => q.1 == some t.2.1 && q.2.1 == cam)
    if (ms.getD t.2.2 none).isSome || taken then ms else ms.set t.2.2 (some t.2.1)) ms

/-- R465: the landmark of each record of a frame. -/
def Estimator.marks (e : Estimator) (limit : Nat) (recs : List (Nat × Feature)) : List (Option Nat) :=
  let kept := recs.map (fun r => if r.2.status = 1 then (match e.trackOf r.1 r.2.id with
    | some p => if e.landmarks.contains p then some p else none
    | none => none) else none)
  acceptPairs recs (matchPairs limit (e.points.filter (fun p => e.landmarks.contains p.id)) (fun r => r.status == 0) recs) kept

/-- The landmarks of a frame's records, by camera and TRACK_ID. -/
def assocOf (recs : List (Nat × Feature)) (marks : List (Option Nat)) : List ((Nat × Nat) × Nat) :=
  (recs.zip marks).filterMap (fun q => q.2.map (fun p => ((q.1.1, q.1.2.id), p)))

/-- Records with STATUS NEW or TRACKED. -/
def liveRecords (recs : List (Nat × Feature)) : List (Nat × Feature) :=
  recs.filter (fun r => r.2.status == 0 || r.2.status == 1)

/-- The tracks of a frame's records. -/
def trackIds (recs : List (Nat × Feature)) : List (Nat × Nat) := (liveRecords recs).map (fun r => (r.1, r.2.id))

/-- How many tracks two frames share. -/
def sharedTracks (a b : List (Nat × Nat)) : Nat := a.countP b.contains

/-! ### Embeddings (R472, R474) -/

/-- R472: the plain embedding of a primary list's records. -/
def plainEmbedding (recs : List Feature) : List Byte :=
  let live := recs.filter (fun r => r.status == 0 || r.status == 1)
  let n := live.length
  (List.range 256).map (fun i =>
    let s : Int := (live.map (fun r => if bit ((r.desc.getD (i / 8) 0).toNat) (i % 8) then (1 : Int) else -1)).foldl (· + ·) 0
    let v := if n = 0 then 0 else max (-127) (min 127 (divRneInt (127 * s) n))
    BitVec.ofNat 8 (ofSigned 8 v))

/-- R474: the score of two embeddings. -/
def placeScore (a b : List Byte) : Int :=
  ((a.zip b).map (fun p => toSigned 8 p.1.toNat * toSigned 8 p.2.toNat)).foldl (· + ·) 0

/-- R474: the candidates among keyframes, by descending score, then lower identifier. -/
def candidates (emb : List Byte) (keys : List EstKey) (least : Int) (n : Nat) : List (EstKey × Int) :=
  let xs := (keys.map (fun k => (k, placeScore emb k.emb))).filter (fun p => decide (least ≤ p.2))
  (sortBy (fun a b => decide (b.2 < a.2 ∨ (a.2 = b.2 ∧ a.1.id ≤ b.1.id))) xs).take n

/-! ### Verification (R475) -/

/-- The state in which the generator of a verification starts. -/
def ransacSeed (newId candId : Nat) : Nat :=
  let x := newId % m32 ^^^ candId * 0x9E3779B9 % m32
  if x = 0 then 1 else x

/-- Three matches drawn from n with the generator of R360, and its state after them (log entry 11). -/
def drawThree (n x : Nat) : (Nat × Nat × Nat) × Nat :=
  let a := pairStep x
  let b := pairStep a
  let d := pairStep b
  ((a % n, b % n, d % n), d)

/-- The hypotheses in turn; the winner so far is its inlier count, its pose token and its inliers. `inliers` tells for three
matches the token and the inliers. -/
def ransac (inliers : Nat × Nat × Nat → Nat × List Nat) (n : Nat) : Nat → Nat → Nat × Nat × List Nat → Nat × Nat × List Nat
  | 0, _, best => best
  | k + 1, x, best =>
    let d := drawThree n x
    let h := inliers d.1
    ransac inliers n k d.2 (if best.1 < h.2.length then (h.2.length, h.1, h.2) else best)

/-- R475: the winning hypothesis for a candidate over its matches (each a number of what the match says): inlier count, pose
token and the inliers' places. With fewer than three matches there is none. -/
def verifyLoop (newId candId iters reproj : Nat) (inputs : List Nat) (matches_ : List (List Nat)) : Nat × Nat × List Nat :=
  let m := fun i => matches_.getD i []
  let inliers := fun (t : Nat × Nat × Nat) =>
    let token := Config.estimate 4 (m t.1 ++ m t.2.1 ++ m t.2.2 ++ inputs) 0
    (token, (List.range matches_.length).filter (fun i =>
      !Fmt.f32.lt reproj (Config.estimate 8 (token :: m i ++ inputs) 0 % m32)))
  if matches_.length < 3 then (0, 0, []) else ransac inliers matches_.length iters (ransacSeed newId candId) (0, 0, [])

/-! ### The map (R481 to R485) -/

/-- R483: bytes of a keyframe. -/
def EstKey.bytes (k : EstKey) : Nat := 320 + 16 * k.obs.length

/-- R483: MAP_BYTES. -/
def Estimator.mapBytes (e : Estimator) : Nat :=
  (e.keys.map EstKey.bytes).foldl (· + ·) 0 + 64 * e.points.length + 48 * e.edges.length

/-- The keyframes of the map and the window, each once. -/
def Estimator.allKeys (e : Estimator) : List EstKey :=
  e.keys ++ e.window.filter (fun k => !e.keys.any (fun m => m.id == k.id))

/-- How many keyframes observe a point. -/
def Estimator.observers (e : Estimator) (p : Nat) : Nat := e.allKeys.countP (fun k => k.obs.any (fun o => o.point == p))

/-- A point leaves the map, with its observations. -/
def Estimator.dropPoint (e : Estimator) (p : Nat) : Estimator :=
  let cut := fun (k : EstKey) => { k with obs := k.obs.filter (fun o => o.point ≠ p) }
  { e with points := e.points.filter (fun x => x.id ≠ p), keys := e.keys.map cut }

/-- A keyframe leaves the map; its odometry edges are joined into one. `rel` gives the joined edge's values. -/
def Estimator.dropKey (e : Estimator) (k : Nat) (rel : Nat → Nat → List Nat) : Estimator :=
  let mine := e.edges.filter (fun x => x.first == k || x.second == k)
  let rest := e.edges.filter (fun x => !(x.first == k || x.second == k))
  let before := mine.find? (fun x => x.second == k && !x.loop)
  let after := mine.find? (fun x => x.first == k && !x.loop)
  let joined := match before, after with
    | some a, some b =>
      let v := rel a.first b.second
      [{ first := a.first, second := b.second, loop := false, rel := v.take 7, weight := v.getD 7 0 }]
    | _, _ => []
  { e with keys := e.keys.filter (fun x => x.id ≠ k), edges := rest ++ joined }

/-- R484: keyframe k is redundant: at least `ratio` (FP32) of its points are observed by three or more others. -/
def Estimator.redundant (e : Estimator) (k : EstKey) (ratio : Nat) : Bool :=
  let n := k.obs.length
  let r := k.obs.countP (fun o => 4 ≤ e.observers o.point)
  !(flOfCount r).lt ((Fmt.f32.decode ratio).mul (flOfCount n))
where
  flOfCount (n : Nat) : Fl := .fin false n 0

/-- R484: culling until `need` more bytes fit `budget`: the instance and the counts of points and keyframes culled. -/
def Estimator.cull (e : Estimator) (budget need minObs ratio : Nat) (rel : Nat → Nat → List Nat) :
    Estimator × Nat × Nat :=
  let fits := fun (e : Estimator) => e.mapBytes + need ≤ budget
  let inWindow := fun p => e.landmarks.contains p
  let r1 := (e.points.filter (fun p => !inWindow p.id && e.observers p.id < minObs)).foldl
    (fun (a : Estimator × Nat) p => if fits a.1 then a else (a.1.dropPoint p.id, a.2 + 1)) (e, 0)
  let spare := fun (k : EstKey) => !e.window.any (fun w => w.id == k.id) &&
    !e.edges.any (fun x => x.loop && (x.first == k.id || x.second == k.id))
  let r2 := (e.keys.filter spare).foldl
    (fun (a : Estimator × Nat) k =>
      if fits a.1 || !a.1.redundant k ratio then a else (a.1.dropKey k.id rel, a.2 + 1)) (r1.1, 0)
  (r2.1, r1.2, r2.2)

/-- A keyframe in ascending identifier order. -/
def insertKey (k : EstKey) : List EstKey → List EstKey
  | [] => [k]
  | x :: r => if k.id < x.id then k :: x :: r else if k.id = x.id then k :: r else x :: insertKey k r

/-- R484, R485: a marginalised keyframe enters the map, culling first; `edge` is its odometry edge from the keyframe
before it. The second value counts the culled points and keyframes. -/
def Estimator.addKey (e : Estimator) (k : EstKey) (edge : Option EstEdge) (budget minObs ratio : Nat)
    (rel : Nat → Nat → List Nat) : Estimator × Nat × Nat :=
  if e.keys.any (fun x => x.id == k.id) then ({ e with keys := insertKey k e.keys }, 0, 0)
  else
    let need := k.bytes + (if edge.isSome then 48 else 0)
    let (e1, p, n) := if budget < e.mapBytes + need then e.cull budget need minObs ratio rel else (e, 0, 0)
    if budget < e1.mapBytes + need || 131072 ≤ e1.keys.length then ({ e1 with mapFull := true }, p, n)
    else ({ e1 with keys := insertKey k e1.keys, edges := e1.edges ++ edge.toList }, p, n)

/-! ### Export and import (Tables 9.8, 9.9) -/

/-- A list of U32 fields. -/
def u32s (xs : List Nat) : List Byte := xs.flatMap (leBytes 4)

/-- A list of F64 fields, exactly n. -/
def f64s (n : Nat) (xs : List Nat) : List Byte := (List.range n).flatMap (fun i => leBytes 8 (xs.getD i 0))

/-- A list of F32 fields, exactly n. -/
def f32s (n : Nat) (xs : List Nat) : List Byte := (List.range n).flatMap (fun i => leBytes 4 (xs.getD i 0))

/-- The observations of a keyframe by ascending point identifier. -/
def EstKey.sortedObs (k : EstKey) : List EstObs := sortBy (fun a b => decide (a.point ≤ b.point)) k.obs

/-- R498: everything after the header. -/
def Estimator.mapBody (e : Estimator) : List Byte :=
  let firsts := (e.keys.foldl (fun (a : List Nat × Nat) k => (a.1 ++ [a.2], a.2 + k.obs.length)) ([], 0)).1
  let loops := fun k => e.edges.any (fun x => x.loop && (x.first == k || x.second == k))
  (e.keys.zip firsts).flatMap (fun q =>
    leBytes 4 q.1.id ++ leBytes 4 (b2n (loops q.1.id)) ++ leBytes 8 q.1.stamp ++ f64s 3 q.1.pos ++ f32s 4 q.1.quat ++
    leBytes 4 q.2 ++ leBytes 4 q.1.obs.length ++ padTo 256 q.1.emb) ++
  e.points.flatMap (fun p =>
    leBytes 4 p.id ++ leBytes 2 (Nat.min 65535 (e.keys.countP (fun k => k.obs.any (fun o => o.point == p.id)))) ++
    leBytes 2 0 ++ f64s 3 p.pos ++ padTo 32 p.desc) ++
  e.keys.flatMap (fun k => k.sortedObs.flatMap (fun o =>
    leBytes 4 o.point ++ leBytes 1 o.cam ++ leBytes 1 o.level ++ leBytes 2 0 ++ leBytes 4 o.x ++ leBytes 4 o.y)) ++
  (sortBy (fun a b => decide (a.first < b.first ∨ (a.first = b.first ∧ a.second ≤ b.second))) e.edges).flatMap
    (fun x => u32s [x.first, x.second] ++ leBytes 1 (b2n x.loop) ++ List.replicate 3 0 ++ f32s 7 x.rel ++
      leBytes 4 x.weight ++ leBytes 4 0)

/-- R498: the whole export. -/
def Estimator.exportBytes (e : Estimator) (level flags descId placeId at_ : Nat) : List Byte :=
  let body := e.mapBody
  let obs := (e.keys.map (fun k => k.obs.length)).foldl (· + ·) 0
  let head := leBytes 4 0x504D4B53 ++ leBytes 2 0x0100 ++ leBytes 1 level ++ leBytes 1 flags ++
    u32s [e.keys.length, e.points.length, obs, e.edges.length, e.nextKey, e.nextPoint] ++ leBytes 8 at_ ++
    u32s [descId, placeId] ++ leBytes 8 (64 + body.length) ++ leBytes 4 (crc32 body)
  head ++ leBytes 4 (crc32 head) ++ body

/-- Signed little-endian fields of a record. -/
def fieldsAt (bs : List Byte) (off size n : Nat) : List Nat := (List.range n).map (fun i => fieldAt bs (off + size * i) size)

/-- R500: the map of an export. Keyframes brought in have no tracks. -/
def Estimator.importMap (e : Estimator) (bs : List Byte) : Estimator :=
  let nk := fieldAt bs 0x08 4
  let np := fieldAt bs 0x0C 4
  let no := fieldAt bs 0x10 4
  let ne := fieldAt bs 0x14 4
  let obsOff := 64 + 320 * nk + 64 * np
  let obs := fun first n => (rangeFrom first n).map (fun j =>
    let r := (bs.drop (obsOff + 16 * j)).take 16
    ({ point := fieldAt r 0 4, cam := fieldAt r 4 1, level := fieldAt r 5 1, x := fieldAt r 8 4, y := fieldAt r 12 4 } : EstObs))
  let keys := (List.range nk).map (fun j =>
    let r := (bs.drop (64 + 320 * j)).take 320
    ({ id := fieldAt r 0 4, frame := fieldAt r 0x0C 4, start := fieldAt r 8 8, stamp := fieldAt r 8 8, pos := fieldsAt r 0x10 8 3,
       quat := fieldsAt r 0x28 4 4, emb := r.drop 0x40, obs := obs (fieldAt r 0x38 4) (Nat.min no (fieldAt r 0x3C 4)),
       tracks := [] } : EstKey))
  let points := (List.range np).map (fun j =>
    let r := (bs.drop (64 + 320 * nk + 64 * j)).take 64
    ({ id := fieldAt r 0 4, pos := fieldsAt r 8 8 3, desc := (r.drop 0x20).take 32 } : EstPoint))
  let edges := (List.range ne).map (fun j =>
    let r := (bs.drop (obsOff + 16 * no + 48 * j)).take 48
    ({ first := fieldAt r 0 4, second := fieldAt r 4 4, loop := fieldAt r 8 1 == 1, rel := fieldsAt r 0x0C 4 7,
       weight := fieldAt r 0x28 4 } : EstEdge))
  { e with keys, points, edges, nextKey := fieldAt bs 0x18 4, nextPoint := fieldAt bs 0x1C 4, window := [],
           landmarks := [], assoc := [], closure := none, apply := none, loopDue := none, mapFull := false, exhausted := false }

/-- R499: an import's layout: VERSION 1 and Table 9.8. -/
def goodImport (bs : List Byte) : Bool :=
  decide (64 ≤ bs.length) && fieldAt bs 0 4 == 0x504D4B53 && fieldAt bs 4 2 == 0x0100 && fieldAt bs 7 1 ≤ 3 &&
  fieldAt bs 0x30 8 == 64 + 320 * fieldAt bs 8 4 + 64 * fieldAt bs 0x0C 4 + 16 * fieldAt bs 0x10 4 + 48 * fieldAt bs 0x14 4 &&
  fieldAt bs 0x30 8 ≤ bs.length

/-- R499: its two CRCs. -/
def goodImportCrc (bs : List Byte) : Bool :=
  fieldAt bs 0x38 4 == crc32 ((bs.take (fieldAt bs 0x30 8)).drop 0x40) && fieldAt bs 0x3C 4 == crc32 (bs.take 0x3C)

end Sys2Proof.Machine
end

