-- ==== Sys2Proof/Machine/Estimator.lean ====
section
/-! DEFINITION. The processing of an estimator instance's frames: assembly, descriptors, initialisation, tracking,
keyframes, embeddings, loops and relocalisation (R446 to R485). What its numeric core computes is opaque (log entry
11). -/

namespace Sys2Proof.Machine

/-! ### Parameters and inputs -/

/-- An entry of instance i. -/
def Chip.eget (c : Chip) (i idx sub : Nat) : Nat := c.dget (entEst i idx sub)

/-- R460: the value of a parameter for a frame that starts at a position. -/
def Chip.param (c : Chip) (i start idx sub : Nat) : Nat :=
  match (c.est i).olds.find? (fun o => o.2.1 == entEst i idx sub && !laterPos start o.1) with
  | some o => o.2.2
  | none => c.eget i idx sub

/-- R453: P(f). -/
def Chip.dueOf (c : Chip) (i f : Nat) : Nat := addPos c.epoch.frameLines (f % m32 * m32) (c.eget i 0x3000 16)

/-- The channels of a camera mask. -/
def Chip.estCams (c : Chip) (i : Nat) : List Nat := (List.range 6).filter (bit (c.eget i 0x3000 5) ·)

/-- CAMERAS_ACTIVE as a list (R452). -/
def Chip.estActive (c : Chip) (i : Nat) : List Nat := (c.estCams i).filter (fun k => !c.isRetired (.camera k))

/-- R452: the primary camera of frame f. -/
def Chip.primaryOf (c : Chip) (i f : Nat) : Option Nat :=
  match (c.est i).oldPrimary with
  | some p => if laterMod m32 f p.2 then (c.estActive i).head? else some p.1
  | none => (c.estActive i).head?

/-- The lists of a camera that the instance has: those written, or the injected ones, which enter at their FRAME_START
(R450). -/
def Chip.viewsOf (c : Chip) (i cam : Nat) : List EstView :=
  if c.eget i 0x3000 9 = 1 then
    ((c.est i).lists.filter (fun b => fieldAt b 4 1 == cam && reached c.posNat (fieldAt b 8 8))).map
      (fun b => { cam, at_ := fieldAt b 8 8, bytes := b })
  else (c.est i).views.filter (fun v => v.cam == cam)

/-- The frame in which a list's FRAME_START lies. -/
def EstView.frame (v : EstView) : Nat := fieldAt v.bytes 0x0C 4

/-- R446: the first list of a camera whose FRAME_START lies in frame f. -/
def Chip.viewOf (c : Chip) (i cam f : Nat) : Option EstView :=
  match (c.viewsOf i cam).filter (fun v => v.frame == f) with
  | [] => none
  | b :: r => some (r.foldl (fun x y => if fieldAt y.bytes 8 8 < fieldAt x.bytes 8 8 then y else x) b)

/-- R447: the stamp of a primary list. -/
def listStamp (b : List Byte) : Nat := if bit (fieldAt b 7 1) 4 then fieldAt b 8 8 else fieldAt b 0x10 8

/-- The image of a flash place: 0 A, 1 B (R816). -/
def Flash.image (f : Flash) (k : Nat) : Option FwImage := if k = 0 then f.imageA else f.imageB

/-- A model selection: the plain computation, the default model of the running image, or a passage. -/
inductive EstModel where
  | plain | builtin | passage (t : Nat)
  deriving DecidableEq, Repr

/-- The running image (R817). -/
def Chip.runningImage (c : Chip) : Option FwImage := c.flash.image (c.dget (ent 0x6000 9))

/-- The passage of a default model of the running image (Table 17.6): 10 descriptor, 11 place. -/
def Chip.defaultModel (c : Chip) (sub : Nat) : List Byte :=
  match c.runningImage with
  | some im => (if sub = 10 then im.desc else im.place).getD (Config.defaultModel sub)
  | none => []

/-- The model's own number of a default model of instance i among the passages; no tensor has it. -/
def builtinPassage (i sub : Nat) : Nat := 0x2000000 + 16 * i + sub

/-- R470, R471, R588: the model in use for a frame that starts at a position; `sub` is 10 or 11 of 0x3030. -/
def Chip.modelOf (c : Chip) (i sub start : Nat) : EstModel :=
  let sel := c.eget i 0x3030 sub
  if sel = 0xFFFFFFFF then .plain
  else if sel = 0 ∧ !c.models then .plain
  else
    let use := if sel = 0 then EstModel.builtin else .passage sel
    match (c.est i).noArrays with
    | some p => if laterPos start p then .plain else use
    | none => use

/-- The inputs that records, inertial outputs and poses give to the numeric core. -/
def featInputs (recs : List (Nat × Feature)) (marks : List (Option Nat)) : List Nat :=
  (recs.zip marks).flatMap (fun q =>
    [q.1.1, q.1.2.id, q.1.2.x, q.1.2.y, q.1.2.level, q.1.2.status, (q.2.map (· + 1)).getD 0])

def outInputs (outs : List EstOut) : List Nat :=
  outs.flatMap (fun o => [o.ch, ofSigned 32 o.value, o.stamp, o.period, o.seq])

/-- The inertial outputs later than one stamp and up to another (R489), in output order. -/
def Estimator.outsBetween (e : Estimator) (s0 s1 : Nat) : List EstOut :=
  e.outs.filter (fun o => laterPos o.stamp s0 && !laterPos o.stamp s1)

/-- Everything a solve of a frame sees. -/
def Estimator.solveInputs (e : Estimator) (fr : EstFrame) (more : List Nat) : List Nat :=
  e.token :: fr.stamp :: featInputs fr.recs fr.marks ++ outInputs fr.outs ++ e.calib ++ more

/-- The median of FP32 values; of an even count, which no rule gives, an open value of the middle two. -/
def medianF32 (vals : List Nat) : Nat :=
  let s := sortBy (fun a b => !Fmt.f32.lt b a) vals
  let n := s.length
  if n = 0 then 0
  else if n % 2 = 1 then s.getD (n / 2) 0
  else Config.estimate 9 [s.getD (n / 2 - 1) 0, s.getD (n / 2) 0] 0 % m32

/-- R462, R466: the median parallax of the tracks that a frame shares with a keyframe; `ref` is what stands for that keyframe's
side of a track. -/
def Estimator.medianParallax (e : Estimator) (fr : EstFrame) (tracks : List (Nat × Nat)) (ref : Nat × Nat → List Nat) : Nat :=
  medianF32 (((liveRecords fr.recs).filter (fun r => tracks.contains (r.1, r.2.id))).map (fun r =>
    Config.estimate 0 (ref (r.1, r.2.id) ++ [r.1, r.2.x, r.2.y, fr.stamp] ++ outInputs fr.outs ++ e.calib) 0 % m32))

/-- n outputs of the numeric core. -/
def outputs (what : Nat) (inputs : List Nat) (n : Nat) : List Nat := (List.range n).map (Config.estimate what inputs)

/-- The values of an edge between two keyframes: seven of pose, one weight. -/
def edgeValues (token a b : Nat) : List Nat := (outputs 10 [token, a, b] 8).map (· % m32)

/-- An edge of the map. -/
def edgeOf (token a b : Nat) (loop : Bool) : EstEdge :=
  let v := edgeValues token a b
  { first := a, second := b, loop, rel := v.take 7, weight := v.getD 7 0 }

/-! ### The end of a frame -/

/-- Frame processing ends with what P(f) will publish. -/
def Chip.endFrameProc (c : Chip) (i : Nat) (fr : EstFrame) (r : Option EstResult) : Chip :=
  let e := c.est i
  c.setEst i { e with cur := none, next := (fr.frame + 1) % m32, results := e.results ++ r.toList }

/-- A frame that gives no pose. -/
def EstFrame.noEstimate (fr : EstFrame) (enter : Option EstState) : EstResult :=
  { frame := fr.frame, stamp := fr.stamp, solved := false, enter }

/-- FLAGS that a frame brings (Table 9.14). -/
def EstFrame.flags (fr : EstFrame) (key reloc : Bool) : Nat :=
  b2n key + 4 * b2n reloc + 8 * b2n fr.missing + 16 * b2n fr.held + 32 * b2n fr.stopped + 64 * b2n fr.plain

/-- R491: QUALITY of a SOLVED pose. -/
def qualityOf (inliers ref : Nat) : Nat := 255 * Nat.min inliers ref / ref

/-- The SOLVED result of a frame from its solve's outputs; `ref` is QUALITY_REF. -/
def EstFrame.solved (fr : EstFrame) (key reloc : Bool) (ref : Nat) (enter : Option EstState) : EstResult :=
  let o := fun k => fr.sol.getD k 0
  { quality := qualityOf (o 32 % 0x10000) ref, frame := fr.frame, stamp := fr.stamp, solved := true, token := o 0, vals := (rangeFrom 1 10).map (fun k => o k % m32),
    cov := (rangeFrom 11 21).map (fun k => o k % m32), inliers := o 32 % 0x10000, flags := fr.flags key reloc, enter }

/-! ### Requests to the lanes (R455, R462, R476) -/

/-- The model's own number of an instance's problem among the tablatures; no tensor has it. -/
def estTab (i : Nat) (closure : Bool) : Nat := 0x1000000 + 16 * i + b2n closure

/-- The tag of a request's ledger entry; its cue's entry has the slot as its tag (R621). -/
def estTag (slot : Nat) : Nat := 0x8000 + slot

/-- The cue slot of an instance's window or closure solve (R444). -/
def estSlot (i : Nat) (closure : Bool) : Nat := 16 * i + (if closure then 4 else 3)

/-- The ledger entry of a request is released. -/
def Chip.estClosed (c : Chip) (i : Nat) (closure : Bool) : Chip :=
  c.ledgerDrop (c.estVoice i) (.estimator i) (estTag (estSlot i closure))

/-- The problem's place in the solver store; how many slots it takes is not stated (log entry 11). -/
def Chip.estTablature (c : Chip) (i lane : Nat) (closure : Bool) : Chip :=
  let v := c.estVoice i
  match c.tablature? (estTab i closure) with
  | some x => c.setTablature (estTab i closure) { x with lane }
  | none =>
    let (c1, n) := c.fresh (.estPlace i)
    let (c2, b) := c1.fresh (.estPlace i)
    c2.setTablature (estTab i closure)
      { voice := v, lane, image := [], slots := n % (c.share v - c.slotsUsed v + 1), overflow := 0, banks := b % 0x10000 }

/-- A request is sent: two ledger entries, the due cue, the lane. None while the ledger has no room or no lane is in
service (R458). -/
def Chip.estRequest (c : Chip) (i : Nat) (kind : EstSolve) (frame due iterations solveLane : Nat) : Option Chip :=
  let closure := kind == .closure
  let v := c.estVoice i
  let slot := estSlot i closure
  let wish := match solveLane, c.tablature? (estTab i closure) with
    | 0xFF, some x => x.lane
    | w, _ => w
  match c.chooseLane wish with
  | none => none
  | some lane =>
    if c.limit v 3 < c.ledgerUsed v + 2 || (c.cue slot).armed then none
    else
      let c1 := (c.estTablature i lane closure).armOwn slot 0xFF 0x05 due 0 (lane + 0x10000 * estTag slot)
        (.estimator i (slot % 16))
      let c2 := (c1.ledgerAdd { voice := v, source := .estimator i, tag := slot }).ledgerAdd
        { voice := v, source := .estimator i, tag := estTag slot }
      some (c2.offerRequest lane { tab := estTab i closure, voice := v, est := some (i, kind, frame), due,
                                   slot := some slot, iterations, admitted := c.now, born := c.resets })

/-- What the solve of a frame sees: of an initialisation both keyframes (R462). -/
def Estimator.requestInputs (e : Estimator) (fr : EstFrame) : List Nat :=
  (match e.mode, e.first with
    | .init, some a => featInputs a.recs (a.recs.map (fun _ => none))
    | _, _ => []) ++ e.solveInputs fr []

/-- A frame's solve is sent, with what it sees now, or the frame waits. -/
def Chip.sendSolve (c : Chip) (i : Nat) (fr : EstFrame) : Chip :=
  let e := c.est i
  let kind := if e.mode = .init then EstSolve.start else .window
  let c1 := c.setEst i { e with cur := some { fr with stage := .solve, inputs := e.requestInputs fr } }
  (c1.estRequest i kind fr.frame (c.dueOf i fr.frame) (c.param i fr.start 0x3010 11) (c.param i fr.start 0x3010 12)).getD c1

/-- The outstanding closure's request is sent, if it has not been. -/
def Chip.sendClosure (c : Chip) (i : Nat) : Chip :=
  let e := c.est i
  match e.closure with
  | none => c
  | some q =>
    if q.sent || q.solved.isSome then c
    else match c.estRequest i .closure e.next q.due q.iterations q.lane with
      | some c1 => c1.setEst i { e with closure := some { q with sent := true } }
      | none => c

/-! ### Keyframes (R466 to R468, R481 to R485) -/

/-- One map point in units of credit (R482). -/
def pointCredit : Nat := 65536 * 256 * 1000000000

/-- R482: the growth of credit over the outputs of the first gyro channel from one stamp to another: 5,000 for each
second, in the unit of `credit`. -/
def Chip.creditGrowth (c : Chip) (i s0 s1 : Nat) (outs : List EstOut) : Nat :=
  let lines := c.epoch.frameLines
  let outs := (outs.filter (fun o => laterPos o.stamp s0 && !laterPos o.stamp s1)).filter (fun o => o.ch == c.eget i 0x3000 7 % 256)
  let span := fun a b => (Pos.ofNat (subPos lines b a)).units lines
  let r := outs.foldl (fun (acc : Nat × Nat × Nat) o => (o.stamp, acc.2.1 + 5000 * span acc.1 o.stamp * o.period, o.period))
    (s0, 0, 0)
  r.2.1 + 5000 * span r.1 s1 * r.2.2

/-- R466: a solved frame becomes a keyframe. -/
def Chip.isKeyframe (c : Chip) (i : Nat) (fr : EstFrame) : Bool :=
  let e := c.est i
  match e.window.getLast? with
  | none => true
  | some k =>
    let p := fun s => c.param i fr.start 0x3010 s
    let passed := (fr.frame + m32 - k.frame) % m32
    let shared := sharedTracks (trackIds fr.recs) k.tracks
    let few := (Estimator.redundant.flOfCount shared).lt
      ((Fmt.f32.decode (p 7)).mul (Estimator.redundant.flOfCount k.tracks.length))
    let parallax := e.medianParallax fr k.tracks (fun q => [e.token, k.id, q.1, q.2])
    decide (p 5 ≤ passed) && (few || !Fmt.f32.lt parallax (p 8) || decide (p 6 ≤ passed))

/-- R465, R482: the records that become points, with their positions: record number and three FP64 patterns. -/
def Estimator.newPoints (e : Estimator) (fr : EstFrame) (most : Nat) : List (Nat × List Nat) :=
  let all := ((fr.recs.zip fr.marks).zipIdx).filterMap (fun q =>
    if q.1.2.isSome || !(q.1.1.2.status == 0 || q.1.1.2.status == 1) then none
    else
      let o := outputs 6 (e.token :: q.2 :: e.solveInputs fr []) 4
      if o.headD 0 = 0 then none else some (q.2, (o.drop 1).map (· % m64)))
  let room := Nat.min (33554432 - e.points.length) (0xFFFFFFFF - e.nextPoint)
  all.take (Nat.min most room)

/-- The instance with points created for records of a frame, and the frame with its landmarks. -/
def Estimator.createPoints (e : Estimator) (fr : EstFrame) (most : Nat) : Estimator × EstFrame × Nat :=
  let ps := e.newPoints fr most
  let ids := ps.zipIdx.map (fun q => (q.1.1, e.nextPoint + q.2, q.1.2))
  let marks := ids.foldl (fun (ms : List (Option Nat)) q => ms.set q.1 (some q.2.1)) fr.marks
  let pts := ids.map (fun q =>
    ({ id := q.2.1, pos := q.2.2, desc := ((fr.recs[q.1]?).map (·.2.desc)).getD [] } : EstPoint))
  ({ e with points := e.points ++ pts, nextPoint := e.nextPoint + ps.length,
            landmarks := e.landmarks ++ ids.map (·.2.1),
            exhausted := e.exhausted || decide (0xFFFFFFFF ≤ e.nextPoint + ps.length) }, { fr with marks }, ps.length)

/-- The keyframe of a frame. Its observations are its records with a landmark, and their tracks stand first. -/
def EstFrame.toKey (fr : EstFrame) (id : Nat) (pos quat : List Nat) : EstKey :=
  let seen := (fr.recs.zip fr.marks).filterMap (fun q => q.2.map (fun p => (q.1, p)))
  let rest := (fr.recs.zip fr.marks).filter (fun q => q.2.isNone)
  { id, frame := fr.frame, start := fr.start, stamp := fr.stamp, pos, quat, emb := fr.emb,
    obs := seen.map (fun q => { point := q.2, cam := q.1.1, level := q.1.2.level, x := q.1.2.x, y := q.1.2.y }),
    tracks := seen.map (fun q => (q.1.1, q.1.2.id)) ++ trackIds (rest.map (·.1)) }

/-- R468: landmarks leave the window until it fits. -/
def Estimator.fitLandmarks (e : Estimator) (most : Nat) : Estimator :=
  let seen := fun p => e.window.countP (fun k => k.obs.any (fun o => o.point == p))
  let order := sortBy (fun a b => decide (seen a < seen b ∨ (seen a = seen b ∧ a ≤ b))) e.landmarks
  { e with landmarks := e.landmarks.filter (fun p => !(order.take (e.landmarks.length - most)).contains p) }

/-- R733: the messages of a new keyframe, if BREEZE_SHARE is 1 for its frame. -/
def Chip.shareKey (c : Chip) (i : Nat) (k : EstKey) : Chip :=
  if c.param i k.start 0x3030 12 = 1 then
    let head := leBytes 1 i ++ leBytes 4 k.id
    c.shareKeyframe (head ++ leBytes 8 k.stamp ++ (k.pos.map to32).flatMap (leBytes 4) ++
      (k.quat.drop 1).flatMap (leBytes 4)) head k.emb
  else c

/-- R467, R484, R485: the oldest keyframe leaves a window that is too long, into the prior and the map; `start` is FRAME_START of
the frame in processing (R460). -/
def Chip.marginalise (c : Chip) (i start : Nat) : Chip :=
  let e := c.est i
  if e.window.length ≤ c.eget i 0x3010 9 then c
  else match e.window with
    | [] => c
    | k :: r =>
      let before := (e.keys.filter (fun x => x.id < k.id)).getLast?
      let e1 := { e with window := r, token := Config.estimate 12 [e.token, k.id] 0 }
      let (e2, p, n) := e1.addKey k (before.map (fun b => edgeOf e.token b.id k.id false))
        (c.eget i 0x3000 11 * 0x100000) (c.param i start 0x3020 2) (c.param i start 0x3020 3) (edgeValues e.token)
      ((c.setEst i e2).dadd (entEst i 0x3020 14) p).dadd (entEst i 0x3020 15) n

/-- R475: the matches of a frame's records with the points that a keyframe observed: record, point. -/
def Estimator.loopMatches (e : Estimator) (limit : Nat) (k : EstKey) (recs : List (Nat × Feature)) : List (Nat × Nat) :=
  let pts := e.points.filter (fun p => k.obs.any (fun o => o.point == p.id))
  let ms := acceptPairs recs (matchPairs limit pts (fun r => r.status == 0 || r.status == 1) recs) (recs.map (fun _ => none))
  (ms.zipIdx).filterMap (fun q => q.1.map (fun p => (q.2, p)))

/-- Record k of a frame, with its camera. -/
def EstFrame.recAt (fr : EstFrame) (k : Nat) : Nat × Feature := fr.recs.getD k (0, Feature.ofBytes [])

/-- R475: the first candidate with enough inliers: the keyframe, its pose token and the matches that are inliers. `newId` is the
new keyframe's identifier. -/
def Chip.verified (c : Chip) (i : Nat) (fr : EstFrame) (newId : Nat) (cands : List (EstKey × Int)) :
    Option (EstKey × Nat × List (Nat × Nat)) :=
  let e := c.est i
  let p := fun s => c.param i fr.start 0x3030 s
  cands.findSome? (fun q =>
    let ms := e.loopMatches (c.param i fr.start 0x3010 4) q.1 fr.recs
    let say := fun (m : Nat × Nat) =>
      let r := fr.recAt m.1
      [r.1, r.2.x, r.2.y, r.2.level, m.2] ++ ((e.points.find? (fun x => x.id == m.2)).map (·.pos)).getD []
    let w := verifyLoop newId q.1.id (p 5) (p 6) e.calib (ms.map say)
    if p 7 ≤ w.1 then some (q.1, w.2.1, w.2.2.map (fun j => ms.getD j (0, 0))) else none)

/-- R476: the variables of a closure: the keyframes from the candidate to the new one, of them the 4,096 highest. -/
def Estimator.closureVars (e : Estimator) (first second : Nat) : List Nat :=
  let ids := sortBy (fun a b => decide (b ≤ a)) ((e.allKeys.map (·.id)).filter (fun k => decide (first ≤ k ∧ k ≤ second)))
  ids.take 4096

/-- R474 to R476, R479: the search for a loop at a new keyframe. -/
def Chip.searchLoop (c : Chip) (i : Nat) (fr : EstFrame) (k : EstKey) : Chip :=
  let e := c.est i
  let p := fun s => c.param i fr.start 0x3030 s
  if p 1 = 0 then c
  else
    let others := sortBy (fun a b => decide (b.id ≤ a.id)) (e.allKeys.filter (fun x => x.id ≠ k.id))
    let recent := (others.take (p 4)).map (·.id)
    let db := e.keys.filter (fun x => x.id ≠ k.id ∧ !recent.contains x.id)
    let cands := candidates k.emb db (toSigned 32 (p 3)) (p 2)
    match c.verified i fr k.id cands with
    | none => if cands.isEmpty then c else c.dinc (entEst i 0x3030 14)
    | some q =>
      if e.loopDue.any (fun d => laterPos d fr.start) then c.dinc (entEst i 0x3030 16)
      else
        let c1 := c.dinc (entEst i 0x3030 13)
        let due := addPos c.epoch.frameLines fr.start (p 8)
        (c1.setEst i { e with edges := e.edges ++ [edgeOf e.token q.1.id k.id true], loopDue := some due,
                              closure := some { first := q.1.id, second := k.id, due, token := e.token, iterations := p 9,
                                                vars := e.closureVars q.1.id k.id
                                                lane := c.param i fr.start 0x3010 12 } }).sendClosure i

/-- A keyframe enters the window with its points (R466 to R468, R474, R482, R733). The second value: it was created. -/
def Chip.newKeyframe (c : Chip) (i : Nat) (fr : EstFrame) (pos quat : List Nat) : Chip × Bool :=
  let e := c.est i
  if 0xFFFFFFFF ≤ e.nextKey then (c.setEst i { e with exhausted := true }, false)
  else
    let last := ((e.window.getLast?).map (·.stamp)).getD fr.stamp
    let credit := Nat.min (5000 * pointCredit) (e.credit + c.creditGrowth i last fr.stamp fr.outs)
    let most := Nat.min (c.param i fr.start 0x3020 1) (credit / pointCredit)
    let (e1, fr1, n) := e.createPoints fr most
    let k := fr1.toKey e.nextKey pos quat
    let seen := k.obs.map (·.point)
    let e2 := { e1 with credit := credit - n * pointCredit, assoc := assocOf fr1.recs fr1.marks, nextKey := e.nextKey + 1, window := e1.window ++ [k],
                        landmarks := e1.landmarks ++ (seen.filter (fun p => !e1.landmarks.contains p)).eraseDups,
                        exhausted := e1.exhausted || decide (0xFFFFFFFF ≤ e.nextKey + 1) }
    let c1 := (c.setEst i (e2.fitLandmarks (c.eget i 0x3010 10))).dinc (entEst i 0x3010 16)
    (((c1.marginalise i fr.start).shareKey i k).searchLoop i fr1 k, true)

/-! ### The ends of initialisation, tracking and relocalisation -/

/-- R463: an accepted initialisation: both keyframes enter the window and the map. -/
def Chip.finishInit (c : Chip) (i : Nat) (fr : EstFrame) : Chip :=
  let e := c.est i
  match e.first with
  | none => c.endFrameProc i fr (some (fr.noEstimate none))
  | some a =>
    let o := fun k => fr.sol.getD k 0
    let c0 := c.setEst i { e with token := o 0, mode := .tracking, first := none, weak := 0, credit := 5000 * pointCredit }
    let a1 := { a with marks := a.recs.map (fun _ => none) }
    let (c1, ka) := c0.newKeyframe i a1 [0, 0, 0] ((rangeFrom 37 4).map (fun k => o k % m32))
    let fr1 := { fr with marks := (c1.est i).marks (c.param i fr.start 0x3010 4) fr.recs }
    let (c2, kb) := c1.newKeyframe i fr1 ((rangeFrom 34 3).map (fun k => o k % m64)) ((rangeFrom 4 4).map (fun k => o k % m32))
    let e2 := c2.est i
    let budget := c.eget i 0x3000 11 * 0x100000
    let e3 := e2.window.foldl (fun (x : Estimator) k =>
      let before := (x.keys.filter (fun y => y.id < k.id)).getLast?
      (x.addKey k (before.map (fun b => edgeOf x.token b.id k.id false)) budget (c.param i fr.start 0x3020 2)
        (c.param i fr.start 0x3020 3) (edgeValues x.token)).1) e2
    (c2.setEst i e3).endFrameProc i fr (some (fr1.solved (ka || kb) false (c.param i fr.start 0x3010 15) (some .tracking)))

/-- R466, R469: a solved frame enters the window's state, as a keyframe or not; or too many weak frames lose it. -/
def Chip.finishTrack (c : Chip) (i : Nat) (fr : EstFrame) (key : Bool) : Chip :=
  let e := c.est i
  let o := fun k => fr.sol.getD k 0
  let weak := if o 32 % 0x10000 < c.param i fr.start 0x3010 13 then e.weak + 1 else 0
  let ref := c.param i fr.start 0x3010 15
  if c.param i fr.start 0x3010 14 ≤ weak then
    (c.setEst i { e with mode := .lost, weak := 0, window := [], landmarks := [], assoc := [], token := 0 }).endFrameProc i fr
      (some (fr.noEstimate (some .lost)))
  else
    let c1 := c.setEst i { e with token := o 0, weak, assoc := assocOf fr.recs fr.marks }
    if key then
      let (c2, made) := c1.newKeyframe i fr ((rangeFrom 34 3).map (fun k => o k % m64))
        ((rangeFrom 4 4).map (fun k => o k % m32))
      c2.endFrameProc i fr (some (fr.solved made false ref none))
    else c1.endFrameProc i fr (some (fr.solved false false ref none))

/-- R480: the search of a frame in LOST. -/
def Chip.finishSearch (c : Chip) (i : Nat) (fr : EstFrame) : Chip :=
  let e := c.est i
  let p := fun s => c.param i fr.start 0x3030 s
  let cands := candidates fr.emb e.keys (toSigned 32 (p 3)) (p 2)
  match c.verified i fr e.nextKey cands with
  | none => c.endFrameProc i fr (some (fr.noEstimate none))
  | some q =>
    let fr1 := { fr with sol := outputs 7 ([q.1.id, q.2.1] ++ e.solveInputs fr []) 41 }
    let seen := (q.1.obs.map (·.point)).eraseDups.filter (fun x => e.points.any (fun y => y.id == x))
    let e1 := { e with mode := .tracking, weak := 0, token := fr1.sol.headD 0,
                       window := [{ q.1 with frame := fr.frame, stamp := fr.stamp }], landmarks := seen,
                       assoc := q.2.2.map (fun (m : Nat × Nat) => (((fr.recAt m.1).1, (fr.recAt m.1).2.id), m.2)) }
    (c.setEst i (e1.fitLandmarks (c.eget i 0x3010 10))).endFrameProc i fr
      (some (fr1.solved false true (c.param i fr.start 0x3010 15) (some .tracking)))

/-- R461: the frame becomes the first keyframe of an initialisation. -/
def Chip.finishFirst (c : Chip) (i : Nat) (fr : EstFrame) : Chip :=
  (c.setEst i { c.est i with first := some fr }).endFrameProc i fr (some (fr.noEstimate none))

/-! ### Models on the arrays (R470 to R473) -/

/-- A run of instance i's model is on the arrays. -/
def Chip.estRunning (c : Chip) (i : Nat) : Bool :=
  c.passages.any (fun (p : Nat × Passage) =>
    (p.2.running.toList ++ p.2.waiting.toList).any (fun r => (r.est.map (·.1)) == some i))

/-- A model run of a passage's image under identifier t is offered, if none of the instance is under way, the ledger has room,
and the bound voice can use the weights (R572, R573). Slot 0 takes what the engine gives, slot 1 is read by it; `builtin` is a
default model of the image, whose weights are its own. -/
def Chip.offerModel (c : Chip) (i t : Nat) (image : List Byte) (builtin desc : Bool) (frame : Nat) (given : List Byte) : Chip :=
  let v := c.estVoice i
  let p := Pass.ofBytes image
  let ts := (resolveSlots p []).zipIdx.map (fun q => if builtin || decide (q.2 ≤ 1) then 0 else q.1)
  if c.estRunning i || !c.ledgerRoom v || c.slotsCheck v c.resets true p ts != 0 then c
  else
    (c.ledgerAdd { voice := v, source := .estimator i, tag := 0x4000, tensors := (t :: ts).filter (fun x => x != 0 && x < 0x1000000) }).offerRun t
      { voice := v, est := some (i, desc, frame), admitted := c.now, born := c.resets, image, given, tensors := ts }

/-- The image's default model of an instance runs. -/
def Chip.offerBuiltin (c : Chip) (i : Nat) (desc : Bool) (frame : Nat) (given : List Byte) : Chip :=
  let t := builtinPassage i (modelSub desc)
  let image := c.defaultModel (modelSub desc)
  let c1 := match c.passage? t with
    | some _ => c
    | none => c.setPassage t { voice := c.estVoice i, gen := 0x10000, image }
  c1.offerModel i t image true desc frame given

/-- The loaded passage of a model runs. -/
def Chip.offerLoaded (c : Chip) (i t : Nat) (desc : Bool) (frame : Nat) (given : List Byte) : Chip :=
  match c.loaded? t with
  | none => c
  | some p => c.offerModel i t p.image false desc frame given

/-- INT8 equal to intensity − 128. -/
def toInt8 (v : Nat) : Byte := BitVec.ofNat 8 (v + 128)

/-- R470, Table 9.6: the patch of a record in a pyramid slot of its camera. A pixel outside the level, or not valid, has an open
value (log entry 11). -/
def Chip.patchOf (c : Chip) (cam slot start : Nat) (r : Feature) : List Nat :=
  let size := levelSize (c.camWidth cam) (c.camHeight cam) r.level
  (List.range 32).flatMap (fun (dy : Nat) => (List.range 32).map (fun (dx : Nat) =>
    (smoothAt size.1 size.2 (c.levelImage cam slot r.level) (r.centre.1 + dx - 16) (r.centre.2 + dy - 16)).getD
      (Config.estimate 13 [cam, start, r.id, dx, dy] 0 % 256)))

/-- The patch of record k of a frame: an injected list brings no pyramid, so its pixels are open (log entry 11). -/
def EstFrame.patch (fr : EstFrame) (k : Nat) : List Nat :=
  match fr.patches[k]? with
  | some (p :: ps) => p :: ps
  | _ => (List.range 1024).map (fun j => Config.estimate 13 [fr.primary, fr.start, ((fr.recs[k]?).map (·.2.id)).getD 0, j] 1 % 256)

/-- Level 2 of the primary camera's pyramid (Table 9.6), with as many pixels as an injected list's frame has. -/
def Chip.levelTwo (c : Chip) (fr : EstFrame) : List Nat :=
  if fr.two.isEmpty then
    let size := levelSize (c.camWidth fr.primary) (c.camHeight fr.primary) 2
    (List.range (size.1 * size.2)).map (fun j => Config.estimate 13 [fr.primary, fr.start, j] 2 % 256)
  else fr.two

/-- R446: a list that camera ch has just written reaches the instances that take it, with what a model will read of its
pyramid. An instance that is not at work keeps the lists of the frame in progress and of the one before. -/
def Chip.estTakeList (c : Chip) (ch list slot : Nat) : Chip :=
  c.each (List.range 8) (fun c i =>
    let e := c.est i
    if e.st = .stopped || c.eget i 0x3000 9 == 1 || !(c.estCams i).contains ch then c
    else
      let bytes := c.contents list
      let start := fieldAt bytes 8 8
      let size := levelSize (c.camWidth ch) (c.camHeight ch) 2
      let patches := if c.eget i 0x3030 10 = 0xFFFFFFFF then [] else (listRecords bytes).map (c.patchOf ch slot start)
      let two := if c.eget i 0x3030 11 = 0xFFFFFFFF then [] else
        (List.range size.2).flatMap (fun y => (List.range size.1).map (fun x => (c.levelImage ch slot 2 x y).1))
      let v : EstView := { cam := ch, at_ := c.posNat, bytes, patches, two }
      let old := if e.st = .idle then e.views.filter (fun w => !laterMod m32 c.epoch.pos.frame (w.frame + 1)) else e.views
      c.setEst i { e with views := old ++ [v] })

/-- EXTRACTION_RUN_END: the run ends, and the list that it has written reaches the instances. -/
def Chip.runEnds (c : Chip) (ch : Nat) : Chip :=
  let c1 := c.endRun ch
  match (c.cam ch).run, (c1.cam ch).prev with
  | some r, some p => if (c1.cam ch).nextList ≠ (c.cam ch).nextList then c1.estTakeList ch p.list r.slot else c1
  | _, _ => c1

/-- A frame's embedding is there: its processing ends. -/
def Chip.afterPlace (c : Chip) (i : Nat) (fr : EstFrame) : Chip :=
  let e := c.est i
  match e.mode with
  | .init => if fr.sol.isEmpty then c.finishFirst i fr else c.finishInit i fr
  | .tracking => c.finishTrack i fr true
  | .lost => c.finishSearch i fr
  | _ => c

/-- A frame needs its embedding (R470 to R472). -/
def Chip.placeStep (c : Chip) (i : Nat) (fr : EstFrame) : Chip :=
  match c.modelOf i 11 fr.start with
  | .plain =>
    let mine := (fr.recs.filter (fun r => r.1 == fr.primary)).map (·.2)
    c.afterPlace i { fr with emb := plainEmbedding mine }
  | .builtin =>
    (c.setEst i { c.est i with cur := some { fr with stage := .place } }).offerBuiltin i false fr.frame
      ((c.levelTwo fr).map toInt8)
  | .passage t =>
    (c.setEst i { c.est i with cur := some { fr with stage := .place } }).offerLoaded i t false fr.frame
      ((c.levelTwo fr).map toInt8)

/-- A frame's solve is there (R463, R466). -/
def Chip.afterSolve (c : Chip) (i : Nat) (fr : EstFrame) : Chip :=
  let e := c.est i
  match e.mode with
  | .init =>
    if Fmt.f32.lt (c.param i fr.start 0x3010 3) (fr.sol.getD 33 0 % m32) then
      c.endFrameProc i fr (some (fr.noEstimate none))
    else c.placeStep i fr
  | .tracking => if c.isKeyframe i fr then c.placeStep i fr else c.finishTrack i fr false
  | _ => c

/-- R461, R462: a frame in INIT. -/
def Chip.initStep (c : Chip) (i : Nat) (fr : EstFrame) : Chip :=
  let e := c.est i
  let p := fun s => c.param i fr.start 0x3010 s
  let enough := decide (p 1 ≤ (liveRecords fr.recs).length)
  let wait := c.endFrameProc i fr (some (fr.noEstimate none))
  match e.first with
  | none => if enough then c.placeStep i fr else wait
  | some a =>
    if p 6 < (fr.frame + m32 - a.frame) % m32 then (if enough then c.placeStep i fr else wait)
    else if sharedTracks (trackIds fr.recs) (trackIds a.recs) < p 1 then wait
    else
      let parallax := e.medianParallax fr (trackIds a.recs) (fun q =>
        ((a.recs.find? (fun r => r.1 == q.1 && r.2.id == q.2)).map (fun r => [a.stamp, r.2.x, r.2.y])).getD [])
      if Fmt.f32.lt parallax (p 2) then wait else c.sendSolve i fr

/-- A frame's descriptors are there: what follows depends on the state (R461, R465, R480). -/
def Chip.afterDescribe (c : Chip) (i : Nat) (fr : EstFrame) : Chip :=
  let e := c.est i
  match e.mode with
  | .init => c.initStep i { fr with marks := fr.recs.map (fun _ => none) }
  | .tracking => c.sendSolve i { fr with marks := e.marks (c.param i fr.start 0x3010 4) fr.recs }
  | .lost => c.placeStep i { fr with marks := fr.recs.map (fun _ => none) }
  | _ => c

/-- Descriptors given to the records, the plain ones where none is given. -/
def EstFrame.withDescs (fr : EstFrame) : EstFrame :=
  { fr with recs := fr.recs.zipIdx.map (fun q => (q.1.1, { q.1.2 with desc := fr.descs.getD q.2 q.1.2.desc })) }

/-- The records that one run of a descriptor passage takes. -/
def batchSize (image : List Byte) : Nat := Nat.max 1 (((Pass.ofBytes image).slot 0).elements / 1024)

/-- The input of a descriptor run: the patches of the records that have no descriptor yet, as many as a run takes. -/
def EstFrame.batch (fr : EstFrame) (image : List Byte) : List Byte :=
  let n := batchSize image
  padTo (1024 * n) (((rangeFrom fr.descs.length (Nat.min n (fr.recs.length - fr.descs.length))).flatMap fr.patch).map toInt8)

/-- A frame needs its descriptors (R470, R471, R588). -/
def Chip.describeStep (c : Chip) (i : Nat) (fr : EstFrame) : Chip :=
  let waits := c.setEst i { c.est i with cur := some fr }
  let whole := decide (fr.recs.length ≤ fr.descs.length)
  match c.modelOf i 10 fr.start with
  | .plain => c.afterDescribe i { fr with plain := true }
  | .builtin =>
    if whole then c.afterDescribe i fr.withDescs
    else waits.offerBuiltin i true fr.frame (fr.batch (c.defaultModel 10))
  | .passage t =>
    if whole then c.afterDescribe i fr.withDescs
    else waits.offerLoaded i t true fr.frame (fr.batch (((c.loaded? t).map (·.image)).getD []))

/-- The bytes of a model run of instance i. -/
def Chip.modelDone (c : Chip) (i : Nat) (desc : Bool) (frame : Nat) (image out : List Byte) : Chip :=
  let c1 := c.ledgerDrop (c.estVoice i) (.estimator i) 0x4000
  match (c1.est i).cur with
  | none => c1
  | some fr =>
    if fr.frame ≠ frame then c1
    else if desc then
      let n := Nat.min (batchSize image) (fr.recs.length - fr.descs.length)
      c1.describeStep i { fr with descs := fr.descs ++ (List.range n).map (fun j => padTo 32 (out.drop (32 * j))) }
    else c1.afterPlace i { fr with emb := padTo 256 out }

/-! ### The beginning of a frame -/

/-- R477: a met closure applies before a frame that starts later than its due epoch: keyframes and points move, each
point with the first keyframe that observed it. -/
def Chip.applyClosure (c : Chip) (i start : Nat) : Chip :=
  let e := c.est i
  match e.apply with
  | none => c
  | some (tok, q) =>
    if !laterPos start q.due then c
    else
      let moves := fun (id : Nat) => q.vars.contains id || decide (q.second < id)
      let moved := fun (k : EstKey) =>
        if !moves k.id then k else
        let o := outputs 11 ([tok, k.id] ++ k.pos ++ k.quat) 7
        { k with pos := (o.take 3).map (· % m64), quat := (o.drop 3).map (· % m32) }
      let movedPoint := fun (p : EstPoint) =>
        match e.allKeys.find? (fun k => k.obs.any (fun o => o.point == p.id)) with
        | some k => if moves k.id then { p with pos := (outputs 11 ([tok, k.id] ++ p.pos) 10).drop 7 |>.map (· % m64) } else p
        | none => p
      c.setEst i { e with apply := none, keys := e.keys.map moved, window := e.window.map moved,
                          points := e.points.map movedPoint, token := Config.estimate 11 [tok, e.token] 10 }

/-- Injected records enter when the epoch reaches their stamps (R450). -/
def Chip.takeInjected (c : Chip) (i : Nat) : Chip :=
  let e := c.est i
  let due := e.records.filter (fun o => reached c.posNat o.stamp)
  if due.isEmpty then c
  else c.setEst i { e with outs := e.outs ++ due, records := e.records.filter (fun o => !reached c.posNat o.stamp) }

/-- R454: the position at which the lists of frame f were there: that of the last of them, or, without all of them, the end of
the frame or the primary camera's list, whichever is later. -/
def Chip.readyAt (c : Chip) (main : EstView) (others : List Nat) (i f : Nat) : Nat :=
  let later := fun a b => if laterPos b a then b else a
  let at_ := others.map (fun k => (c.viewOf i k f).map (·.at_))
  let end_ := (f + 1) % m32 * m32
  let all_ := (at_.filterMap id).foldl later main.at_
  if at_.all (·.isSome) && !laterPos all_ (later main.at_ end_) then all_ else later main.at_ end_

/-- R446, R447, R454: frame `next` begins once its lists are there. -/
def Chip.beginFrame (c : Chip) (i : Nat) : Chip :=
  let f := (c.est i).next
  match c.primaryOf i f with
  | none => c
  | some cam => match c.viewOf i cam f with
    | none => c
    | some main =>
      let others := (c.estActive i).filter (· ≠ cam)
      let end_ := (f + 1) % m32 * m32
      if !(others.all (fun k => (c.viewOf i k f).isSome) || reached c.posNat end_) then c
      else
        let start := fieldAt main.bytes 8 8
        let c1 := c.applyClosure i start
        let e := c1.est i
        let used := (c.estCams i).filter (fun k => k == cam || others.contains k)
        -- a list that is written after the frame could begin is none of the frame's
        let ready := c.readyAt main others i f
        let views := used.filterMap (fun k => (c.viewOf i k f).filter (fun v => !laterPos v.at_ ready))
        let recs := views.flatMap (fun v => (listRecords v.bytes).map (fun r => (v.cam, r)))
        let stamp := listStamp main.bytes
        let outs := e.outs.filter (fun o => !laterPos o.stamp stamp && (c.eget i 0x3000 9 == 1 || !laterPos o.emerged ready))
        let fr : EstFrame :=
          { frame := f, stamp, start, primary := cam, recs, outs, two := main.two
            patches := views.flatMap (fun v => (List.range (listRecords v.bytes).length).map (fun k => v.patches.getD k []))
            missing := (c.estCams i).any (fun k => !views.any (fun v => v.cam == k)),
            held := outs.any (·.held), stopped := outs.any (·.stopped) }
        (c1.setEst i { e with cur := some fr, olds := e.olds.filter (fun o => !laterPos start o.1) }).describeStep i fr

/-- FRAME_PROCESSING_START: the next frame begins, or the one in processing goes on with a step that waited (R458). -/
def Chip.frameStep (c : Chip) (i : Nat) : Chip :=
  let c1 := (c.takeInjected i).sendClosure i
  let e := c1.est i
  if !(e.mode == .init || e.mode == .tracking || e.mode == .lost) || c1.computeGated then c1
  else match e.cur with
    | none => c1.beginFrame i
    | some fr => match fr.stage with
      | .describe => c1.describeStep i fr
      | .place => c1.placeStep i fr
      | .solve =>
        let sent := c1.lanes.any (fun (p : Nat × Lane) => (p.2.running.toList ++ p.2.waiting.toList).any (fun r =>
          match r.est with
          | some (j, kind, f) => j == i && kind != .closure && f == fr.frame
          | none => false))
        if sent || !fr.sol.isEmpty || c1.ledger.any (fun x => x.source == .estimator i && x.tag == estTag (estSlot i false)) then c1
        else c1.sendSolve i fr

/-- An estimator's request has ended solved (R455, R463, R477). -/
def Chip.estSolved (c : Chip) (r : SolveReq) : Chip :=
  match r.est with
  | none => c
  | some (i, kind, f) =>
    let c1 := c.estClosed i (kind == .closure)
    let e := c1.est i
    match kind with
    | .closure => match e.closure with
      | some q => c1.setEst i { e with closure := some { q with
          solved := some (Config.estimate 5 ([q.token, q.first, q.second, r.iterations] ++ q.vars) 0) } }
      | none => c1
    | _ => match e.cur with
      | none => c1
      | some fr =>
        if fr.frame ≠ f then c1
        else
          c1.afterSolve i { fr with sol := outputs (if kind = .start then 1 else 2) (r.iterations :: fr.inputs) 41 }

/-- An estimator's request has ended without a result: its frame is missed at P(f), its closure at its due epoch. -/
def Chip.estUnsolved (c : Chip) (r : SolveReq) : Chip :=
  match r.est with
  | none => c
  | some (i, kind, _) => c.estClosed i (kind == .closure)

end Sys2Proof.Machine
end

