-- ==== Sys2Proof/Machine/Inertial.lean ====
section
/-! DEFINITION. Inertial channels, SPI masters, coefficient banks and encoders (R379 to R435). -/

namespace Sys2Proof.Machine

/-- The key of entry :sub of inertial channel ch (Table 8.9). -/
def inKey (ch sub : Nat) : Nat := ent (0x2100 + ch) sub

/-- R379: the key of a group entry, kept once for the four channels. -/
def grpKey (g sub : Nat) : Nat := ent (0x2100 + 4 * g) sub

/-- The key of entry :sub of SPI master m (rows 48 to 57). -/
def spiKey (m sub : Nat) : Nat := ent (0x2100 + 4 * m) sub

/-- The key of entry :sub of encoder e (Table 8.10). -/
def encKey (e sub : Nat) : Nat := ent (0x2180 + e) sub

def Chip.chan (c : Chip) (ch : Nat) : Inertial := tabGet {} c.inertial ch
def Chip.setChan (c : Chip) (ch : Nat) (x : Inertial) : Chip := { c with inertial := tabSet c.inertial ch x }
def Chip.grp (c : Chip) (g : Nat) : Group := tabGet {} c.groups g
def Chip.setGrp (c : Chip) (g : Nat) (x : Group) : Chip := { c with groups := tabSet c.groups g x }
def Chip.master (c : Chip) (m : Nat) : SpiMaster := tabGet {} c.spi m
def Chip.setMaster (c : Chip) (m : Nat) (x : SpiMaster) : Chip := { c with spi := tabSet c.spi m x }
def Chip.enc (c : Chip) (e : Nat) : Encoder := tabGet {} c.encoders e
def Chip.setEnc (c : Chip) (e : Nat) (x : Encoder) : Chip := { c with encoders := tabSet c.encoders e x }

/-- The channel is enabled and in service. -/
def Chip.chanOn (c : Chip) (ch : Nat) : Bool := c.dbool (inKey ch 1) && !c.isRetired (.inertial ch)

/-- The active behaviour level. -/
def Chip.level (c : Chip) : Nat := c.dget (ent 0x1018 2)

/-! ### The structure of a chain (R400 to R404, R418, R421) -/

/-- The number of trailing zero bits, up to 12. -/
def trailingZeros (n : Nat) : Nat := ((rangeFrom 1 12).filter (fun k => n % 2 ^ k == 0)).length

/-- RATIO of a group. -/
def Chip.ratio (c : Chip) (g : Nat) : Nat := c.dget (grpKey g 13)

/-- R400: k. -/
def Chip.stagesOf (c : Chip) (g : Nat) : Nat :=
  if c.dget (grpKey g 14) = 0xFF then trailingZeros (c.ratio g) else c.dget (grpKey g 14)

/-- N_i, i from 1. -/
def Chip.hbTaps (c : Chip) (g i : Nat) : Nat := c.dget (grpKey g (15 + i))

/-- T. -/
def Chip.resTaps (c : Chip) (g : Nat) : Nat := c.dget (grpKey g 15)

/-- The sum over the half-band stages of a quantity. -/
def Chip.overStages (c : Chip) (g : Nat) (f : Nat → Nat) : Nat :=
  ((rangeFrom 1 (c.stagesOf g)).map f).foldl (· + ·) 0

/-- PHASE_FRAC as the chain uses it: the fractional phase is a feature of BL2 (R150, R409). -/
def Chip.phaseFrac (c : Chip) (ch : Nat) : Nat := if c.dget (ent 0x1018 2) < 2 then 0 else c.dget (inKey ch 9)

/-- R418: E. -/
def Chip.settle (c : Chip) (ch : Nat) : Nat :=
  let g := ch / 4
  let k := c.stagesOf g
  c.dget (inKey ch 8) + (if c.dget (inKey ch 2) = 0 then 3 else 0) +
  c.overStages g (fun i => (c.hbTaps g i - 1) * 2 ^ (i - 1)) + (c.resTaps g - 1) * 2 ^ k +
  (if c.phaseFrac ch = 0 then 0 else 2 ^ k)

/-- R421: 64 × D. -/
def Chip.delay64 (c : Chip) (ch : Nat) : Nat :=
  let g := ch / 4
  64 * c.dget (inKey ch 8) + c.phaseFrac ch + (if c.dget (inKey ch 2) = 0 then 120 else 0) +
  c.overStages g (fun i => 2 ^ (i - 1) * (c.hbTaps g i - 1) * 32) + 2 ^ c.stagesOf g * (c.resTaps g - 1) * 32

/-! ### Coefficients (R402, R403, R410) -/

/-- How many values stage i holds. -/
def halfCount (taps : Nat) : Nat := (taps + 1) / 4

/-- R410: the default coefficients in the order of Table 8.6. -/
def Chip.defaultBank (c : Chip) (g : Nat) : List Int :=
  ((rangeFrom 1 (c.stagesOf g)).flatMap (fun i =>
    (0x100000 : Int) :: List.replicate (halfCount (c.hbTaps g i) - 1) 0)) ++
  List.replicate ((c.resTaps g + 1) / 2) ((divRne 0x400000 (c.resTaps g) : Nat) : Int)

/-- The coefficients in force. -/
def Chip.bankOf (c : Chip) (g : Nat) : List Int :=
  let x := c.grp g
  (if x.active = 0 then x.bank0 else x.bank1).getD (c.defaultBank g)

/-- The values of half-band stage i within a bank. -/
def Chip.stageCoefs (c : Chip) (g i : Nat) : List Int :=
  let skip := ((rangeFrom 1 (i - 1)).map (fun q => halfCount (c.hbTaps g q))).foldl (· + ·) 0
  ((c.bankOf g).drop skip).take (halfCount (c.hbTaps g i))

/-- The values of the residual stage within a bank. -/
def Chip.resCoefs (c : Chip) (g : Nat) : List Int :=
  (c.bankOf g).drop (c.overStages g (fun i => halfCount (c.hbTaps g i)))

/-! ### Arithmetic (R405 to R409) -/

/-- The bounds of the 40-bit accumulator. -/
def accClamp (a : Int) : Int × Bool :=
  if a < -0x8000000000 then (-0x8000000000, true)
  else if 0x7FFFFFFFFF < a then (0x7FFFFFFFFF, true) else (a, false)

/-- R408: the accumulator as a 24-bit value, and whether it saturated. -/
def toQ23 (a : Int) : Int × Bool :=
  let r := divRneInt a 256
  if r < -0x800000 then (-0x800000, true) else if 0x7FFFFF < r then (0x7FFFFF, true) else (r, false)

/-- R406, R407: the products of sums and coefficients accumulated in order. -/
def accumulate (terms : List (Int × Int)) : Int × Bool :=
  terms.foldl (fun acc t =>
    let r := accClamp (acc.1 + divRneInt (t.1 * t.2) 0x4000)
    (r.1, acc.2 || r.2)) (0, false)

/-- A stored value of a history, zero beyond its end. -/
def histAt (h : List StageVal) (i : Nat) : StageVal := h.getD i ⟨0, false⟩

/-- R402, R406: the accumulator of a half-band stage over its newest `taps` inputs, and whether a saturation reached
it. -/
def halfBand (taps : Nat) (coefs : List Int) (h : List StageVal) : Int × Bool :=
  let mid := (taps - 1) / 2
  let offs := (List.range (halfCount taps)).reverse.map (fun q => (2 * q + 1, coefs.getD q 0))
  let pairs := offs.map (fun o => ((histAt h (mid - o.1)).value + (histAt h (mid + o.1)).value, o.2))
  let r := accumulate (pairs ++ [((histAt h mid).value, 0x200000)])
  (r.1, r.2 || (histAt h mid).sat ||
    offs.any (fun o => (histAt h (mid - o.1)).sat || (histAt h (mid + o.1)).sat))

/-- R403, R406: the accumulator of the residual stage, `skip` inputs before the newest. -/
def residual (taps skip : Nat) (coefs : List Int) (h : List StageVal) : Int × Bool :=
  let at_ := fun i => histAt h (skip + i)
  let pairs := (List.range (taps / 2)).map (fun i => ((at_ i).value + (at_ (taps - 1 - i)).value, coefs.getD i 0))
  let mid := if taps % 2 = 1 then [((at_ (taps / 2)).value, coefs.getD (taps / 2) 0)] else []
  let r := accumulate (pairs ++ mid)
  (r.1, r.2 || (List.range taps).any (fun i => (at_ i).sat))

/-- R387: one comb output sample from the newest 61 inputs of ±1: the fourth power of a boxcar of 16. -/
def boxcar (h : List Int) : List Int :=
  match h with
  | [] => []
  | _ :: r => (h.take 16).foldl (· + ·) 0 :: boxcar r

/-- R387: the comb output, newest input first, in Q1.23. -/
def combOutput (h : List Int) : Int := ((boxcar (boxcar (boxcar (boxcar h)))).headD 0) * 64

/-! ### A sample through the chain -/

/-- What a capture records now (R388, R391). -/
def Chip.capture (c : Chip) : Capture := ⟨c.posNat, c.epoch.estimate, c.epochNotRunning⟩

/-- The history lists of the half-band stages after a new input of stage i. -/
def Chip.pushStage (c : Chip) (g n : Nat) (v : StageVal) : Nat → Nat → Tab (List StageVal) → Tab (List StageVal)
  | 0, _, st => st
  | fuel + 1, i, st =>
    let k := c.stagesOf g
    let keep := if i ≤ k then c.hbTaps g i else c.resTaps g + 1
    let h := (v :: tabGet [] st i).take keep
    let st1 := tabSet st i h
    if i ≤ k ∧ (n + 1) % 2 ^ i = 0 then
      let a := halfBand (c.hbTaps g i) (c.stageCoefs g i) h
      let o := toQ23 a.1
      c.pushStage g n ⟨o.1, o.2 || a.2⟩ fuel (i + 1) st1
    else st1

/-- R89, R90, R422 to R424: stamp, line period and EPOCH_NOT_RUNNING of the output whose newest sample heads the
list. -/
def stampOf (lines d64 : Nat) (samples : List InSample) : Nat × Nat × Bool :=
  let up := (d64 + 63) / 64
  let frac := (64 - d64 % 64) % 64
  let z : Capture := ⟨0, 0, false⟩
  let lo := ((samples[up]?).map (·.cap)).getD z
  if frac = 0 then (lo.pos, lo.period, lo.stopped)
  else
    let hi := ((samples[up - 1]?).map (·.cap)).getD z
    let diff := (Pos.ofNat (subPos lines hi.pos lo.pos)).units lines
    ((Pos.ofUnits lines (divRne (64 * (Pos.ofNat lo.pos).units lines + diff * frac) 64 % (m32 * lines * 0x10000))).toNat,
     lo.period, lo.stopped || hi.stopped)

/-- R404, R408, R409, R419, R422: the output that emerges at the newest sample. -/
def Chip.formOutput (c : Chip) (ch : Nat) (x : Inertial) : InOut :=
  let g := ch / 4
  let k := c.stagesOf g
  let t := c.resTaps g
  let h := tabGet [] x.stages (k + 1)
  let a0 := residual t 0 (c.resCoefs g) h
  let frac := c.phaseFrac ch
  let a := if 2 ≤ c.level ∧ frac ≠ 0 then
      let a1 := residual t 1 (c.resCoefs g) h
      (a0.1 - divRneInt ((a0.1 - a1.1) * ((frac * 2 ^ (12 - k) : Nat) : Int)) 0x40000, a0.2 || a1.2)
    else a0
  let o := toQ23 a.1
  let st := stampOf c.epoch.frameLines (c.delay64 ch) x.samples
  let e := c.settle ch
  { value := o.1, stamp := st.1, period := st.2.1, seq := ((x.n + 1) / c.ratio g - 1) % m32, satOut := o.2,
    satInternal := a.2, held := (x.samples.take (e + 1)).any (·.held), stopped := st.2.2,
    bank := (c.grp g).active, settled := decide (e + 1 ≤ x.since) }

/-- R412: a pending swap takes effect at an output boundary in a later update than its commit. -/
def Chip.swapAtBoundary (c : Chip) (g : Nat) : Chip :=
  let x := c.grp g
  match x.swap with
  | some t => if t < c.now then c.setGrp g { x with active := 1 - x.active, swap := none } else c
  | none => c

/-- One chain input sample enters a channel (R401, R404). A sample of the update of a group reset is not counted
(R416). -/
def Chip.enterSample (c : Chip) (ch : Nat) (s : InSample) : Chip :=
  let g := ch / 4
  if (c.grp g).resetAt = some c.now then c
  else
    let x := c.chan ch
    let boundary := (x.n + 1) % c.ratio g == 0
    let c1 := if boundary then c.swapAtBoundary g else c
    let samples := (s :: x.samples).take (c.settle ch + 2)
    let delayed : StageVal := match samples[c.dget (inKey ch 8)]? with
      | some d => ⟨d.value, d.sat⟩
      | none => ⟨0, false⟩
    let stages := c1.pushStage g x.n delayed 14 1 x.stages
    let x1 := { x with samples, stages, since := x.since + 1 }
    let x2 := if boundary then { x1 with emerging := x1.emerging ++ [c1.formOutput ch x1] } else x1
    let c2 := c1.setChan ch { x2 with n := x2.n + 1 }
    c2.setGrp g { c2.grp g with n := Nat.max (c2.grp g).n (x2.n + 1) }

/-! ### Rings (R431 to R433) -/

/-- The channel's or encoder's ring tensor. -/
def ringTensor (enc : Bool) (k : Nat) : Nat := 0xFF1000 + (if enc then 0x10 else 0) + k

/-- Table 8.8: the header of a fresh ring. -/
def ringHeader (enc : Bool) (k depth : Nat) : List Byte :=
  leBytes 4 0x474E4952 ++ leBytes 1 (b2n enc) ++ leBytes 1 k ++ leBytes 2 32 ++ leBytes 4 depth ++ leBytes 4 0 ++
  List.replicate 0x30 0

/-- R431: the ring of a channel or encoder is made under its BILL_VOICE. -/
def Chip.makeRing (c : Chip) (enc : Bool) (k depth bill : Nat) : Option Chip :=
  match c.makeEngineTensor (ringTensor enc k) bill 1 (0x40 + 32 * depth) 0 with
  | some c1 => match c1.tensor? (ringTensor enc k) with
    | some x => some (c1.setTierMem 1 ((c1.tierMem 1).writeBytes x.homeAddr (ringHeader enc k depth)))
    | none => some c1
  | none => none

/-- R432: record w is written and WRITE_COUNT set, as one write of the block. The second value says whether it was
made (R632). -/
def Chip.ringWrite (c : Chip) (enc : Bool) (k depth w : Nat) (rec : List Byte) (block : Nat) : Chip × Bool :=
  let t := ringTensor enc k
  let r := c.engineWrite t (0x40 + 32 * (w % depth)) rec block k
  if r.2 then (r.1.poke t 0x0C (leBytes 4 ((w + 1) % m32)), true) else r

/-! ### Emergence -/

/-- Table 8.8: the inertial record. -/
def InOut.bytes (o : InOut) (first : Bool) (emerged : Nat) : List Byte :=
  let flags := b2n o.satOut + 2 * b2n o.satInternal + 4 * b2n o.held + 8 * b2n o.stopped + 16 * o.bank + 32 * b2n first
  leBytes 8 o.stamp ++ leBytes 4 (ofSigned 32 o.value) ++ leBytes 4 o.period ++ leBytes 4 o.seq ++ leBytes 2 flags ++
  leBytes 2 0 ++ leBytes 8 emerged

/-- R404, R419, R432, R433: the oldest output that emerged is written, or suppressed. The second value is the
released output. -/
def Chip.emerge (c : Chip) (ch : Nat) : Chip × Option InOut :=
  let x := c.chan ch
  match x.emerging with
  | [] => (c, none)
  | o :: r =>
    let c0 := c.setChan ch { x with emerging := r }
    if !c.chanOn ch then (c0, none)
    else if !o.settled then (c0.dinc (inKey ch 42), none)
    else
      let first := x.last.isNone
      let rec_ := o.bytes first c.posNat
      let w := c0.ringWrite false ch (c.dget (inKey ch 10)) x.written rec_ 0x0011
      let c1 := w.1.setChan ch { x with emerging := r, last := some (o.value, o.stamp),
                                        written := if w.2 then (x.written + 1) % m32 else x.written }
      let c2 := (c1.dinc (inKey ch 41)).dset (inKey ch 37) o.stamp
      let c3 := if o.satOut then c2.dinc (inKey ch 43) else c2
      let c4 := if o.satInternal then c3.dinc (inKey ch 44) else c3
      (c4.rawRecord ch rec_, some o)

/-! ### Restarts and group resets (R415 to R417) -/

/-- R417: a channel restart. -/
def Chip.restart (c : Chip) (ch : Nat) : Chip :=
  let x := c.chan ch
  (c.setChan ch { x with samples := [], since := 0, stages := [], last := none }).dinc (inKey ch 46)

/-- R416: a group reset; of several in one update, one takes place. -/
def Chip.groupReset (c : Chip) (g : Nat) : Chip :=
  if (c.grp g).resetAt = some c.now then c
  else
  let c1 := c.setGrp g { c.grp g with resetAt := some c.now, n := 0 }
  c1.each (rangeFrom (4 * g) 4) (fun c ch =>
    let c2 := c.restart ch
    c2.setChan ch { c2.chan ch with comb := [], n := 0, emerging := [] })

/-- R415: all four groups are reset. -/
def Chip.resetGroups (c : Chip) : Chip := c.each (List.range 4) Chip.groupReset

/-! ### SPI masters (R389 to R397) -/

/-- The channels that take words from master m. -/
def Chip.channelsOfMaster (c : Chip) (m : Nat) : List Nat :=
  (List.range 16).filter (fun ch => c.chanOn ch && c.dget (inKey ch 2) == 1 && c.dget (inKey ch 5) == m)

/-- R389: a burst starts: MOSI carries the first TX_LEN bytes of TX_DATA, and RX_LEN bytes are to be received. -/
def Chip.startBurst (c : Chip) (m : Nat) (x : SpiMaster) (cap : Capture) : Chip :=
  c.setMaster m { x with running := some cap, rxLen := c.dget (spiKey m 55)
                         mosi := leBytes (c.dget (spiKey m 53)) (c.dget (spiKey m 54)) }

/-- R390, R394: a trigger starts a burst, or becomes pending; the trigger it supersedes is kept for R395. -/
def Chip.spiTrigger (c : Chip) (m : Nat) : Chip :=
  let x := c.master m
  if c.isRetired (.spiMaster m) || c.gated then c
  else match x.running, x.waiting with
    | none, _ => c.startBurst m x c.capture
    | some _, none => c.setMaster m { x with waiting := some c.capture }
    | some _, some old =>
      (c.setMaster m { x with waiting := some c.capture, skipped := x.skipped ++ [old] }).dinc (spiKey m 57)

/-- R395: one held sample on each channel of the master. -/
def Chip.heldSample (c : Chip) (m : Nat) (cap : Capture) : Chip :=
  c.each (c.channelsOfMaster m) (fun c ch =>
    let v := (((c.chan ch).samples[0]?).map (·.value)).getD 0
    (c.enterSample ch { value := v, sat := false, held := true, cap }).dinc (inKey ch 45))

/-- R392: the word of a channel in Q1.23, and whether its rounding saturated. Bytes that the burst did not receive
are a free value (log entry 7). -/
def wordOf (format off free : Nat) (rx : List Byte) : Int × Bool :=
  let n := 2 + Nat.min 2 (format % 4)
  let raw := (rx.drop off).take n
  let bs := raw ++ (leBytes (n - raw.length) free)
  let w := leNat (if bit format 2 then bs.reverse else bs)
  if n = 2 then (toSigned 16 w * 256, false)
  else if n = 3 then (toSigned 24 w, false)
  else toQ23 (toSigned 32 w)

/-- R391, R392, R394, R395: the running burst ends with the bytes received; held samples follow in the order of their
triggers, and a pending trigger starts the next burst. -/
def Chip.spiEnd (c : Chip) (m : Nat) (rx : List Byte) : Chip :=
  let x := c.master m
  match x.running with
  | none => c
  | some cap =>
    let c0 := c.dinc (spiKey m 56)
    let idle : SpiMaster := {}
    let c1 := match x.waiting with
      | some next => c0.startBurst m idle next
      | none => c0.setMaster m idle
    let rx := rx.take x.rxLen
    if c1.gated || c1.isRetired (.spiMaster m) then c1
    else
      let c2 := c1.each (c1.channelsOfMaster m) (fun c ch =>
        let f := c.fresh .burst
        let w := wordOf (c.dget (inKey ch 7)) (c.dget (inKey ch 6)) f.2 rx
        let short := decide (rx.length < c.dget (inKey ch 6) + 2 + Nat.min 2 (c.dget (inKey ch 7) % 4))
        (if short then f.1 else c).enterSample ch { value := w.1, sat := w.2, held := false, cap })
      c2.each x.skipped (fun c k => c.heldSample m k)

/-- R390: the internal periodic cue of a master with TRIGGER 0, at its BURST_ANCHOR and BURST_PERIOD. -/
def Chip.spiCue (c : Chip) (m : Nat) : Chip :=
  let c1 := c.freeUse (.spi m)
  let a := c1.dget (spiKey m 52)
  let p := c1.dget (spiKey m 51)
  if c1.dget (spiKey m 50) ≠ 0 || c1.isRetired (.spiMaster m) || p == 0 || c1.badTimes 0x0B a p m then c1
  else match c1.armEngine 0x0B a p m (.spi m) with
    | some (c2, _) => c2
    | none => c1

/-! ### Virtual samples (R398, R399) -/

/-- R399: the samples of an injected tensor. -/
def injectedSamples (bs : List Byte) : List VirtualSample :=
  (List.range (fieldAt bs 4 4)).map (fun i =>
    let off := 16 + 16 * i
    ⟨fieldAt bs off 8, fieldAt bs (off + 8) 4, fieldAt bs (off + 12) 4⟩)

/-- R399: a tensor with another header is inconsistent with the channel. -/
def Chip.injectCheck (c : Chip) (t : Nat) : Nat :=
  match c.tensor? t with
  | none => 0x0A030003
  | some x =>
    let h := c.tensorRead x 0 16
    if x.lost then 0x0A070001
    else if fieldAt h 0 4 ≠ 0x4E495356 ∨ fieldAt h 8 8 ≠ 0 ∨ x.size ≠ 16 + 16 * fieldAt h 4 4 then 0x0A030003 else 0

/-- R398: the first virtual sample enters once its capture position is reached. A value outside Q1.23 enters as a free
value (log entry 7). -/
def Chip.virtualEntry (c : Chip) (ch : Nat) : Chip :=
  let x := c.chan ch
  match x.virt with
  | [] => c
  | s :: r =>
    if !c.chanOn ch || c.dget (inKey ch 2) != 2 || c.gated || !reached c.posNat s.pos then c
    else
      let v := toSigned 32 s.value
      let c1 := c.setChan ch { x with virt := r }
      let cap : Capture := ⟨s.pos, s.period, c.epochNotRunning⟩
      if -0x800000 ≤ v ∧ v ≤ 0x7FFFFF then c1.enterSample ch { value := v, sat := false, held := false, cap }
      else
        let f := c1.fresh .sample
        f.1.enterSample ch { value := toSigned 24 f.2, sat := false, held := false, cap }

/-! ### Coefficient loads and swaps (R411 to R414) -/

/-- R411: the checks of a coefficient tensor. -/
def Chip.coefCheck (c : Chip) (g t : Nat) : Nat :=
  match c.tensor? t with
  | none => 0x0A030003
  | some x =>
    let k := c.stagesOf g
    let bs := c.tensorRead x 0 x.size
    let count := c.overStages g (fun i => halfCount (c.hbTaps g i)) + (c.resTaps g + 1) / 2
    let taps := (rangeFrom 1 12).map (fun i => if i ≤ k then c.hbTaps g i else 0)
    let vals := (List.range count).map (fun i => fieldAt bs (0x20 + 4 * i) 4)
    if x.lost then 0x0A070001
    else if fieldAt bs 0 4 ≠ 0x46454F43 ∨ fieldAt bs 4 1 ≠ k ∨ fieldAt bs 5 3 ≠ 0 ∨
        (List.range 12).map (fun i => fieldAt bs (8 + i) 1) ≠ taps ∨ fieldAt bs 0x14 2 ≠ c.resTaps g ∨
        fieldAt bs 0x16 2 ≠ c.ratio g / 2 ^ k ∨ fieldAt bs 0x1C 4 ≠ 0 ∨ x.size ≠ 0x20 + 4 * count ∨
        vals.any (fun v => v / 0x1000000 != (if bit v 23 then 0xFF else 0)) then 0x0A030003
    else if fieldAt bs 0x18 4 ≠ crc32 (bs.drop 0x20) then 0x0A0A0001 else 0

/-- R411: the values of a coefficient tensor. -/
def coefValues (bs : List Byte) : List Int :=
  (List.range ((bs.length - 0x20) / 4)).map (fun i => toSigned 32 (fieldAt bs (0x20 + 4 * i) 4))

/-- R411: the copy into the inactive bank ends. -/
def Chip.coefDone (c : Chip) (g : Nat) : Chip :=
  let x := c.grp g
  match x.loading with
  | none => c
  | some vs =>
    if x.active = 0 then c.setGrp g { x with bank1 := some vs, loading := none }
    else c.setGrp g { x with bank0 := some vs, loading := none }

/-! ### Entries -/

/-- R400, R403: a chain structure is refused. -/
def badStructure (ratio hb taps : Nat) : Bool :=
  let k := if hb = 0xFF then trailingZeros ratio else hb
  let m := ratio / 2 ^ k
  ratio % 2 ^ k != 0 || m == 0 || decide (4096 < m) || decide (64 < (taps + m - 1) / m) || decide (16384 < taps)

/-- The clock of a channel's samples (R381). -/
def Chip.clockOf (c : Chip) (ch : Nat) : Nat × Nat :=
  match c.dget (inKey ch 2) with
  | 0 => (0, ch / 4)
  | 1 => (1, c.dget (inKey ch 5))
  | _ => (2, 0)

/-- R381: another enabled channel of the group is on another clock. -/
def Chip.clockClash (c : Chip) (ch : Nat) (clock : Nat × Nat) : Bool :=
  (rangeFrom (ch / 4 * 4) 4).any (fun k => k != ch && c.dbool (inKey k 1) && c.clockOf k != clock)

/-- INJECT outside bench mode or by another voice than the channel's, and COEF_LOAD and SWAP while the group loads or waits to
swap (R413). -/
def Chip.inFixed (c : Chip) (v ch sub : Nat) : Bool :=
  let x := c.grp (ch / 4)
  match sub with
  | 12 => c.straps.mode != .bench || v != c.dget (inKey ch 11)
  | 30 | 31 => x.swap.isSome || x.loading.isSome
  | _ => false

/-- What a write to an entry of Table 8.9 checks beyond type, range and state (R380, R381, R386, R400, R403, R411,
R413, R431). -/
def Chip.inCheck (c : Chip) (ch sub value : Nat) : Nat :=
  let g := ch / 4
  match sub with
  | 1 =>
    if value = 0 then 0
    else if c.clockClash ch (c.clockOf ch) then 0x0A030003
    else if !c.dbool (inKey ch 1) && (c.makeRing false ch (c.dget (inKey ch 10)) (c.dget (inKey ch 11))).isNone then 0x0A050001 else 0
  | 2 =>
    if value = 2 ∧ c.straps.mode = .field then 0x0A030001
    else if c.dbool (inKey ch 1) && c.clockClash ch (if value = 0 then (0, g) else if value = 1 then
        (1, c.dget (inKey ch 5)) else (2, 0)) then 0x0A030003 else 0
  | 3 => if value / 4 = g then 0 else 0x0A030001
  | 5 => if c.dbool (inKey ch 1) && c.dget (inKey ch 2) == 1 && c.clockClash ch (1, value) then 0x0A030003 else 0
  | 9 => if value ≠ 0 ∧ c.dget (ent 0x1018 2) < 2 then 0x0A090001 else 0
  | 12 => firstCode [if c.dget (inKey ch 2) ≠ 2 then 0x0A030003 else 0, c.injectCheck value]
  | 13 => if badStructure value (c.dget (grpKey g 14)) (c.resTaps g) then 0x0A030003 else 0
  | 14 => if badStructure (c.ratio g) value (c.resTaps g) then 0x0A030003 else 0
  | 15 => if badStructure (c.ratio g) (c.dget (grpKey g 14)) value then 0x0A030003 else 0
  | 30 => c.coefCheck g value
  | 31 => if value ≠ 1 then 0x0A030001 else 0
  | 33 => if value = 1 ∨ value = 2 then 0 else 0x0A030001
  | 51 => if c.badTimes 0x0B c.posNat value 0 then 0x0A030001 else 0
  | _ => if 16 ≤ sub ∧ sub ≤ 27 ∧ (value % 4 ≠ 3 ∨ value < 7 ∨ 63 < value) then 0x0A030001 else 0

/-- A channel is switched on or off (R417, R431). It counts on where its group stands (R404). -/
def Chip.inEnable (c : Chip) (ch : Nat) (on : Bool) : Chip :=
  if on then
    match c.makeRing false ch (c.dget (inKey ch 10)) (c.dget (inKey ch 11)) with
    | some c1 => (c1.setChan ch { c1.chan ch with written := 0, n := (c1.grp (ch / 4)).n }).restart ch
    | none => c
  else
    (c.freeTensor (ringTensor false ch)).setChan ch {}

/-- The effect of a committed write to an entry of Table 8.9 beside its stored value. -/
def Chip.inCommit (c : Chip) (ch sub old value : Nat) : Chip :=
  let g := ch / 4
  let x := c.grp g
  match sub with
  | 1 => if old = value then c else c.inEnable ch (value == 1)
  | 2 | 5 =>
    if old = value then c else c.setChan ch { c.chan ch with samples := [], since := 0, stages := [], comb := [] }
  | 8 | 9 => c.restart ch
  | 12 => c.setChan ch { c.chan ch with virt := injectedSamples (c.contents value) }
  | 30 => c.setGrp g { x with loading := some (coefValues (c.contents value)) }
  | 31 => c.setGrp g { x with swap := some c.now }
  | 33 => if value = 2 then c.resetGroups else c.groupReset g
  | 50 | 51 | 52 => if ch % 4 = 0 then c.spiCue (ch / 4) else c
  | _ =>
    if 13 ≤ sub ∧ sub ≤ 27 ∧ old ≠ value then
      c.each (rangeFrom (4 * g) 4) (fun c k => c.setChan k { c.chan k with samples := [], since := 0, stages := [] })
        |>.setGrp g { x with bank0 := none, bank1 := none }
    else c

/-- R384: the filter load in MAC per second of one channel, as numerator and denominator. -/
def Chip.filterLoad (c : Chip) (ch : Nat) : Nat × Nat :=
  let g := ch / 4
  let k := c.stagesOf g
  let f : Nat × Nat := if c.dget (inKey ch 2) = 0 then
      (if c.dbool (grpKey g 29) then (384000, 1) else (250000000, 16 * c.dget (grpKey g 28)))
    else (64000, 1)
  let q := if c.phaseFrac ch = 0 then 1 else 2
  let r := c.ratio g
  -- the sum over the denominator 2^k · R
  let num := c.overStages g (fun i => ((c.hbTaps g i + 1) / 4 + 1) * 2 ^ (k - i) * r) +
    (c.resTaps g + 1) / 2 * q * 2 ^ k
  (f.1 * num, f.2 * (2 ^ k * r))

/-- R384: the load of all enabled channels exceeds 2,000,000,000 MAC per second. -/
def Chip.filterOverload (c : Chip) : Bool :=
  let total := ((List.range 16).filter (fun ch => c.chanOn ch)).foldl (fun (acc : Nat × Nat) ch =>
    let l := c.filterLoad ch
    (acc.1 * l.2 + l.1 * acc.2, acc.2 * l.2)) (0, 1)
  decide (2000000000 * total.2 < total.1)

/-- R393: a word of an enabled SPI channel extends beyond RX_LEN. -/
def Chip.wordBeyond (c : Chip) : Bool :=
  (List.range 16).any (fun ch => c.dbool (inKey ch 1) && c.dget (inKey ch 2) == 1 &&
    decide (c.dget (spiKey (c.dget (inKey ch 5)) 55) <
      c.dget (inKey ch 6) + 2 + Nat.min 2 (c.dget (inKey ch 7) % 4)))

/-- R425: the snapshot of an INERTIAL_CAPTURE cue. -/
def Chip.inertialCapture (c : Chip) (mask : Nat) : Chip :=
  c.each ((List.range 16).filter (bit mask ·)) (fun c ch =>
    let l := (c.chan ch).last.getD (0, 0)
    ((c.dset (inKey ch 38) (ofSigned 32 l.1)).dset (inKey ch 39) l.2).dset (inKey ch 40) c.posNat)

/-! ### Encoders (R426 to R430, R879) -/

/-- The encoder is in service. -/
def Chip.encAlive (c : Chip) (e : Nat) : Bool := !c.isRetired (.encoder e)

/-- R428: the encoder counts. -/
def Chip.encCounts (c : Chip) (e : Nat) : Bool :=
  c.encAlive e && (c.dbool (encKey e 1) || c.epoch.active == some (0x10 + e) || c.epoch.pendingSource == some (0x10 + e))

/-- The place of levels A and B in the quadrature cycle, A leading B upward (PRESUMED). -/
def quadrature (a b : Bool) : Nat := if a then (if b then 2 else 1) else (if b then 3 else 0)

/-- Table 8.8: an encoder record. -/
def encRecord (stamp pos index cause : Nat) (reverse : Bool) : List Byte :=
  leBytes 8 stamp ++ leBytes 4 pos ++ leBytes 4 index ++ leBytes 1 cause ++ leBytes 1 (b2n reverse) ++
  List.replicate 14 0

/-- R430, R432, R433: one encoder sample. -/
def Chip.encWrite (c : Chip) (e stamp pos index cause : Nat) : Chip :=
  if !(c.dbool (encKey e 1) && c.encAlive e) then c
  else
    let x := c.enc e
    let rec_ := encRecord stamp pos index cause x.reverse
    let w := c.ringWrite true e (c.dget (encKey e 5)) x.written rec_ 0x0012
    (w.1.setEnc e { x with written := if w.2 then (x.written + 1) % m32 else x.written }).rawRecord (0x10 + e) rec_

/-- The levels of the pins A and B of encoder e. -/
def Board.encLevels (b : Board) (e : Nat) : Bool × Bool := (bit b.encA e, bit b.encB e)

/-- The pins A and B of encoder e take new levels. -/
def Board.withEnc (x : Board) (e : Nat) (a b : Bool) : Board :=
  if e < 4 then { x with encA := withBit x.encA e a, encB := withBit x.encB e b } else x

/-- R426, R428: an encoder that works counts the change of its pins A and B to these levels. -/
def Chip.encEdge (c : Chip) (e : Nat) (a b : Bool) : Chip :=
  let x := c.enc e
  let old := c.board.encLevels e
  let d := (quadrature a b + 4 - quadrature old.1 old.2) % 4
  if d = 0 || !c.encCounts e then c
  else if d = 2 then c.dinc (encKey e 13)
  else
    let up := (d == 1) != c.dbool (encKey e 2)
    let p := c.dget (encKey e 8)
    (c.setEnc e { x with raw := if up then x.raw + 1 else x.raw - 1, reverse := !up }).dset (encKey e 8)
      (if up then (p + 1) % m32 else (p + 0xFFFFFFFF) % m32)

/-- R429, R430, R879: an index event. -/
def Chip.encIndex (c : Chip) (e : Nat) : Chip :=
  let x := c.enc e
  let mode := c.dget (encKey e 3)
  if !c.dbool (encKey e 1) || !c.encAlive e || mode == 0 || (c.dget (encKey e 4) == 1 && c.board.encLevels e != (true, true)) then c
  else
    let p := c.dget (encKey e 8)
    let c1 := (c.dset (encKey e 9) p).dinc (encKey e 12)
    let c2 := if mode = 2 then c1.dset (encKey e 8) 0 else c1
    if c.gov.p7 then c2
    else if c.gov.p6 then c2.setEnc e { x with late := x.late ++ [(c.posNat, p, p)] }
    else c2.encWrite e c.posNat p p 2

/-- R879: the records of index events in P6 are written at its exit. -/
def Chip.encLate (c : Chip) : Chip :=
  c.each (List.range 4) (fun c e =>
    let late := (c.enc e).late
    (c.setEnc e { c.enc e with late := [] }).each late (fun c r => c.encWrite e r.1 r.2.1 r.2.2 2))

/-- R430: the sample of an ENCODER_CAPTURE cue. -/
def Chip.encoderCapture (c : Chip) (mask : Nat) : Chip :=
  c.each ((List.range 4).filter (bit mask ·)) (fun c e =>
    if c.dbool (encKey e 1) && c.encAlive e then
      let p := c.dget (encKey e 8)
      ((c.dset (encKey e 10) p).dset (encKey e 11) c.posNat).encWrite e c.posNat p (c.dget (encKey e 9)) 1
    else c)

/-- R431: what a write to an entry of Table 8.10 checks beyond type, range and state. -/
def Chip.encCheck (c : Chip) (e sub value : Nat) : Nat :=
  if sub = 1 ∧ value = 1 ∧ !c.dbool (encKey e 1) ∧
      (c.makeRing true e (c.dget (encKey e 5)) (c.dget (encKey e 6))).isNone then 0x0A050001 else 0

/-- The effect of a committed write to an entry of Table 8.10 beside its stored value (R427). -/
def Chip.encCommit (c : Chip) (e sub old value : Nat) : Chip :=
  match sub with
  | 1 =>
    if old = value then c
    else if value = 1 then
      match c.makeRing true e (c.dget (encKey e 5)) (c.dget (encKey e 6)) with
      | some c1 => c1.setEnc e { c1.enc e with written := 0 }
      | none => c
    else c.freeTensor (ringTensor true e)
  | 7 => c.dset (encKey e 8) value
  | _ => c

end Sys2Proof.Machine
end

