-- ==== Sys2Proof/Machine/Instances.lean ====
section
/-! DEFINITION. Estimator instances: enabling and reservation, cues, states, published poses, the map's commands and
the entries of Tables 9.10 to 9.14 (R436 to R456, R469, R477, R478, R486 to R500). -/

namespace Sys2Proof.Machine

/-- Whether instance i is enabled. -/
def Chip.estOn (c : Chip) (i : Nat) : Bool := c.eget i 0x3000 2 == 1

/-! ### Enabling (R440, R441, R445, R837, R877) -/

/-- The six inertial channels of an instance (GYRO, ACCEL). -/
def Chip.estChannels (c : Chip) (i : Nat) : List Nat :=
  [7, 8].flatMap (fun s => (List.range 3).map (fun k => c.eget i 0x3000 s / 256 ^ k % 256))

/-- The keys of the calibration entries that an instance uses (Table 17.10). -/
def Chip.calibKeys (c : Chip) (i : Nat) : List Nat :=
  (c.estCams i).flatMap (fun k => (rangeFrom 1 11).map (ent (0x6010 + k))) ++ (rangeFrom 1 12).map (ent 0x6016) ++
  (rangeFrom 1 11).map (ent 0x6017)

/-- The instance reads its calibration (R450). -/
def Chip.readCalib (c : Chip) (i : Nat) : Chip :=
  c.setEst i { c.est i with calib := (c.calibKeys i).map c.dget }

/-- An entry of the calibration as the instance read it. -/
def Chip.calibAt (c : Chip) (i key : Nat) : Nat :=
  (((c.calibKeys i).zip (c.est i).calib).find? (fun q => q.1 == key)).map (·.2) |>.getD (c.dget key)

/-- R837: a quaternion whose norm is below 0.5. -/
def shortQuat (q : List Nat) : Bool :=
  let sq : Fl := q.foldl (fun (acc : Fl) x => acc.add ((Fmt.f32.decode x).mul (Fmt.f32.decode x))) (.fin false 0 0)
  sq.lt (.fin false 1 (-2))

/-- R445, R837: what an instance uses is not consistent. -/
def Chip.estInconsistent (c : Chip) (i : Nat) : Bool :=
  let chans := c.estChannels i
  let clock := fun k => (c.ratio (k / 4), c.clockOf k)
  (c.estCams i).any (fun k => !c.dbool (camKey k 1) || c.dget (camKey k 14) == 0 ||
    (List.range 8).any (fun j => j != i && c.estOn j && (c.estCams j).contains k)) ||
  chans.any (fun k => 16 ≤ k || !c.dbool (inKey k 1)) ||
  chans.any (fun k => decide (clock k ≠ clock (chans.headD 0))) ||
  (c.estCams i).any (fun k => shortQuat ((rangeFrom 8 4).map (fun s => c.dget (ent (0x6010 + k) s)))) ||
  shortQuat ((rangeFrom 9 4).map (fun s => c.dget (ent 0x6016 s)))

/-- R440: the tier 0 bytes that the models of an instance declare. -/
def Chip.activation (c : Chip) (i : Nat) : Nat :=
  let of := fun sub => match c.modelOf i sub 0 with
    | .passage t => (((Pass.ofBytes (c.contents t)).homes.map (·.bytes)).foldl (· + ·) 0)
    | .builtin => (((Pass.ofBytes (c.defaultModel sub)).homes.map (·.bytes)).foldl (· + ·) 0)
    | .plain => 0
  of 10 + of 11

/-- The reservation of instance i by tier in bytes (R440). -/
def Chip.estNeeds (c : Chip) (i : Nat) : List (Nat × Nat) :=
  [(0, c.activation i), (1, 0x100000 + 0x80000 * (c.estCams i).length), (2, c.eget i 0x3000 11 * 0x100000)]

/-- The number that marks an instance's reservations. -/
def estWho (i : Nat) : Nat := 0x20000000 + i

/-- The checks of a write of 1 to ENABLE (R440, R445, R837); 0 is good. -/
def Chip.estEnableCheck (c : Chip) (i : Nat) : Nat :=
  let v := c.estVoice i
  if c.estInconsistent i then 0x0A030003
  else if c.quota v 3 < 16 ∨ (c.estNeeds i).any (fun n => c.limitBytes v n.1 < c.usage v n.1 + charge n.1 n.2) then 0x0A050001
  else 0

/-! ### Cues (R448, R449) -/

/-- The next position at a line of a frame. -/
def Chip.nextAt (c : Chip) (line : Nat) : Nat :=
  let f := c.epoch.pos.frame
  let here := f * m32 + line * 0x10000
  if laterPos here c.posNat then here else (f + 1) % m32 * m32 + line * 0x10000

/-- A cue of an instance is armed in its slot with a ledger entry of its own; a slot in use is freed first. -/
def Chip.armEst (c : Chip) (i part action target arg : Nat) : Chip :=
  let slot := 16 * i + part
  let c1 := if (c.cue slot).armed then c.freeSlot slot else c
  (c1.armOwn slot 0xFF action target m32 arg (.estimator i part)).ledgerAdd
    { voice := c.estVoice i, source := .estimator i, tag := slot }

/-- The line at which a cue stands: the written one, or the last of the frame while it is clamped (R449). -/
def Chip.cueLine (c : Chip) (line : Nat) (clamped : Bool) : Nat := if clamped then c.epoch.frameLines - 1 else line

/-- The TRIG_PULSE cue. -/
def Chip.armTrigCue (c : Chip) (i : Nat) : Chip :=
  let mask := c.eget i 0x3000 12
  let line := c.cueLine (c.eget i 0x3000 13) (c.est i).clampTrig
  if mask = 0 then (if (c.cue (16 * i)).armed then c.freeSlot (16 * i) else c)
  else c.armEst i 0 0x01 (c.nextAt line) (mask + 0x100 + c.eget i 0x3000 14 % m32 * 0x10000)

/-- The FRONT_END_START cue. -/
def Chip.armFeCue (c : Chip) (i : Nat) : Chip :=
  let mask := ((c.estCams i).filter (fun k => c.dget (camKey k 14) == 2)).foldl (fun n k => n + 2 ^ k) 0
  let line := c.cueLine (c.eget i 0x3000 15) (c.est i).clampFe
  c.armEst i 1 0x02 (c.nextAt line) mask

/-- The POSE_PUBLISH cue, at the next P(f). -/
def Chip.armPoseCue (c : Chip) (i : Nat) : Chip :=
  let f := c.epoch.pos.frame
  let cands := (List.range 8).map (fun k => c.dueOf i (f + 0xFFFFFFFB + k))
  match cands.find? (fun p => laterPos p c.posNat) with
  | some p => c.armEst i 2 0x06 p i
  | none => c

/-- Every cue of an instance is cancelled. -/
def Chip.freeEstCues (c : Chip) (i : Nat) : Chip := c.each (rangeFrom (16 * i) 16) (fun c s =>
  if (c.cue s).armed then c.freeSlot s else c)

/-! ### States (R443, R451, Table 9.4) -/

/-- ENABLE has become 1: the reservation, the cues, IDLE (R440, R448, R481). -/
def Chip.estEnable (c : Chip) (i : Nat) : Chip :=
  let v := c.estVoice i
  let e := c.est i
  let rs := (c.estNeeds i).map (fun n => ({ who := estWho i, voice := v, tier := n.1, bytes := n.2 } : Reservation))
  let c1 := { c with reserved := c.reserved ++ rs }
  let empty := e.keys.isEmpty && e.points.isEmpty
  let c2 := c1.setEst i { keys := e.keys, points := e.points, edges := e.edges, st := .idle, mode := .idle,
                          nextKey := if empty then 1 else e.nextKey, nextPoint := if empty then 1 else e.nextPoint,
                          credit := 5000 * pointCredit }
  (((c2.readCalib i).armTrigCue i).armFeCue i).armPoseCue i

/-- The requests of an instance end, those of its closure too if asked. -/
def Chip.dropEstWork (c : Chip) (i : Nat) (closure : Bool) : Chip :=
  let mine := fun (r : SolveReq) => match r.est with
    | some (j, kind, _) => j == i && (closure || kind != .closure)
    | none => false
  let c1 := c.dropRequests (fun r => !mine r)
  let c2 := c1.dropRuns (fun r => (r.est.map (·.1)) != some i)
  let c3 := (c2.estClosed i false).ledgerDrop (c.estVoice i) (.estimator i) 0x4000
  if closure then c3.estClosed i true else c3

/-- ENABLE has become 0, or the bound voice is reset: everything the instance holds is released (R443, R875). -/
def Chip.estStop (c : Chip) (i : Nat) : Chip :=
  let c1 := (c.freeEstCues i).dropEstWork i true
  let c2 := (c1.evictTablature (estTab i false)).evictTablature (estTab i true)
  { (c2.setEst i {}) with reserved := c2.reserved.filter (fun r => r.who ≠ estWho i),
                          ledger := c2.ledger.filter (fun x => x.source != .estimator i) }

/-- The instance enters INIT or LOST as its map is empty or not, from the frame in progress on (Table 9.4). -/
def Chip.estBegin (c : Chip) (i : Nat) : Chip :=
  let e := c.est i
  let st := if e.keys.isEmpty then EstState.init else .lost
  let f := c.epoch.pos.frame
  (c.setEst i { e with st, mode := st, next := f, begun := f, cur := none, first := none, results := [], misses := 0,
                       weak := 0, source := none, since := false, window := [], landmarks := [], assoc := [], token := 0
                       views := e.views.filter (fun v => !laterMod m32 f v.frame) }).readCalib i

/-- The engine has entered RUN (Table 9.4). -/
def Chip.estEnterRun (c : Chip) : Chip :=
  c.each (List.range 8) (fun c i => if (c.est i).st = .idle then c.estBegin i else c)

/-- The engine has left RUN or entered HOLD: IDLE; the window is emptied and the map kept. -/
def Chip.estLeaveRun (c : Chip) : Chip :=
  c.each (List.range 8) (fun c i =>
    let e := c.est i
    if e.st = .init ∨ e.st = .tracking ∨ e.st = .lost then
      let c1 := c.dropEstWork i false
      let c2 := if (c1.cue (estSlot i false)).armed then c1.freeSlot (estSlot i false) else c1
      c2.setEst i { c2.est i with st := .idle, mode := .idle, cur := none, first := none, window := [], landmarks := [], assoc := [],
                                  token := 0, results := [] }
    else c)

/-- An inertial channel has retired: the instances that use it halt. -/
def Chip.estInertialRetired (c : Chip) (ch : Nat) : Chip :=
  c.each (List.range 8) (fun c i =>
    let e := c.est i
    if e.st ≠ .stopped ∧ e.st ≠ .halted ∧ (c.estChannels i).contains ch then
      let c1 := c.dropEstWork i false
      let f := if e.st = .idle then c.epoch.pos.frame else e.next
      c1.setEst i { c1.est i with st := .halted, mode := .halted, cur := none, first := none, results := [], next := f,
                                  begun := if e.st = .idle then f else e.begun }
    else c)

/-- R452: a camera has retired; `was` is the primary camera of each instance before. -/
def Chip.estCameraRetired (c : Chip) (ch : Nat) : Chip :=
  c.each (List.range 8) (fun c i =>
    let e := c.est i
    let before := ((c.estCams i).filter (fun k => k == ch || !c.isRetired (.camera k))).head?
    if before = some ch then c.setEst i { e with oldPrimary := some (ch, c.epoch.pos.frame) } else c)

/-- R588: the last array has retired. -/
def Chip.estArraysGone (c : Chip) : Chip :=
  if c.liveArrays.isEmpty then
    c.each (List.range 8) (fun c i => c.setEst i { c.est i with noArrays := some c.posNat })
  else c

/-- Steps at a frame start: instances enabled while in RUN begin, and changed cues are armed again (R448). -/
def Chip.estFrameStart (c : Chip) : Chip :=
  let c0 := if c.engine = .run then c.estEnterRun else c
  c0.each (List.range 8) (fun c i =>
    if !c.estOn i then c
    else
      let e := c.est i
      let c1 := c.setEst i { e with dirtyTrig := false, dirtyFe := false }
      let c2 := if e.dirtyTrig then c1.armTrigCue i else c1
      if e.dirtyFe then c2.armFeCue i else c2)

/-- R449: at a switch point to a shorter frame, cues at lines beyond it stand at its last line. -/
def Chip.estSwitchPoint (c : Chip) : Chip :=
  c.each (List.range 8) (fun c i =>
    if !c.estOn i then c
    else
      let lines := c.epoch.frameLines
      let trig := decide (lines ≤ c.eget i 0x3000 13)
      let fe := decide (lines ≤ c.eget i 0x3000 15)
      let c1 := c.setEst i { c.est i with clampTrig := trig || (c.est i).clampTrig, clampFe := fe || (c.est i).clampFe }
      let c2 := if trig then c1.armTrigCue i else c1
      if fe then c2.armFeCue i else c2)

/-! ### Poses (R486 to R496) -/

/-- A pose to publish: STATE, QUALITY, values, covariance. -/
structure PoseValues where
  state : Nat
  quality : Nat
  token : Nat
  vals : List Nat
  cov : List Nat
  deriving DecidableEq, Repr

/-- R490: the NO_ESTIMATE pose. -/
def noPose : PoseValues :=
  { state := 0, quality := 0, token := 0, vals := [0, 0, 0, 0x3F800000, 0, 0, 0, 0, 0, 0], cov := List.replicate 21 0 }

/-! R489: propagation in FP64. One step's advance and the growth of the covariance are open (log entry 11); the outputs that it
steps through, Δt, the rates, the normalisation and the rounding are stated. -/

/-- A sample of the six channels: stamp, LINE_PERIOD, and the six outputs as FP64 values of Q1.23. -/
structure ImuSample where
  stamp : Nat
  period : Nat
  vals : List Nat
  deriving DecidableEq, Repr

/-- The samples of an instance's channels in output order: the outputs of the first gyro channel with the five others' of the same
index, and where one has none, its latest before. -/
def imuSamples (chans : List Nat) (outs : List EstOut) : List ImuSample :=
  let f := Fmt.f64
  let mine := outs.filter (fun o => o.ch == chans.headD 0)
  mine.map (fun o => { stamp := o.stamp, period := o.period, vals := chans.map (fun ch =>
    let theirs := outs.filter (fun q => q.ch == ch)
    let v := match theirs.find? (fun q => q.seq == o.seq) with
      | some q => q.value
      | none => (((theirs.filter (fun q => !laterPos q.stamp o.stamp)).getLast?).map (·.value)).getD 0
    f.div (f.ofInt v) (f.ofInt 0x800000)) })

/-- Δt of a span: lines times the later output's LINE_PERIOD, divided by 256 × 10^9, rounded once. -/
def stepTime (lines s0 s1 period : Nat) : Nat :=
  Fmt.f64.ofRat false ((Pos.ofNat (subPos lines s1 s0)).units lines * period) (65536 * 256 * 1000000000)

/-- The six rates of a step: the mean of two outputs scaled by the calibration, less the biases. -/
def stepRates (scale bias a b : List Nat) : List Nat :=
  let f := Fmt.f64
  (List.range 6).map (fun k =>
    f.sub (f.mul (f.div (f.add (a.getD k 0) (b.getD k 0)) (f.ofInt 2)) (scale.getD k 0)) (bias.getD k 0))

/-- A quaternion normalised. -/
def unitQuat (q : List Nat) : List Nat :=
  let f := Fmt.f64
  let n := f.sqrt (q.foldl (fun acc x => f.add acc (f.mul x x)) 0)
  q.map (fun x => f.div x n)

/-- What a pose has come to on its way: position, quaternion, velocity (ten FP64 values), and the covariance. -/
structure PoseWalk where
  vals : List Nat
  cov : List Nat
  deriving DecidableEq, Repr

/-- 9.806_65 m/s² in FP64. -/
def gravity : Nat := Fmt.f64.ofRat false 980665 100000

/-- One step: the advance with gravity and the exact exponential map, the quaternion normalised after it. -/
def PoseWalk.advance (w : PoseWalk) (dt : Nat) (rates calib : List Nat) : PoseWalk :=
  let o := (outputs 3 (dt :: gravity :: w.vals ++ rates ++ calib) 10).map (· % m64)
  { vals := o.take 3 ++ unitQuat ((o.drop 3).take 4) ++ o.drop 7,
    cov := (outputs 14 (dt :: w.vals ++ rates ++ calib ++ w.cov) 21).map (· % m64) }

/-- The steps through samples from a stamp to another: the last output held up to it. -/
def PoseWalk.through (lines : Nat) (scale bias calib : List Nat) (s1 : Nat) :
    List ImuSample → Nat → ImuSample → PoseWalk → PoseWalk
  | [], at_, last, w =>
    if laterPos s1 at_ then w.advance (stepTime lines at_ s1 last.period) (stepRates scale bias last.vals last.vals) calib else w
  | x :: r, at_, last, w =>
    through lines scale bias calib s1 r x.stamp x
      (w.advance (stepTime lines at_ x.stamp x.period) (stepRates scale bias last.vals x.vals) calib)

/-- R489: a pose propagated from its stamp to another. -/
def Chip.propagate (c : Chip) (i : Nat) (p : EstPub) (s1 : Nat) : PoseValues :=
  let e := c.est i
  let all_ := imuSamples (c.estChannels i) e.outs
  let steps := all_.filter (fun x => laterPos x.stamp p.stamp && !laterPos x.stamp s1)
  let first := match (all_.filter (fun x => !laterPos x.stamp p.stamp)).getLast?, steps.head? with
    | some x, _ => x
    | none, some x => x
    | none, none => ⟨p.stamp, 0, []⟩
  let at_ := fun (keys : List Nat) => keys.map (fun k => to64 (c.calibAt i k))
  let scale := at_ ((rangeFrom 1 3).map (ent 0x6016) ++ (rangeFrom 1 3).map (ent 0x6017))
  let bias := (outputs 15 [p.token] 6).map (· % m64)
  let w := PoseWalk.through c.epoch.frameLines scale bias e.calib s1 steps p.stamp first
    { vals := p.vals.map to64, cov := p.cov.map to64 }
  { state := p.state, quality := p.quality, token := p.token, vals := w.vals.map to32, cov := w.cov.map to32 }

/-- R492: the sum of three elements of a covariance, accumulated in FP64 and rounded once. -/
def covTrace (cov : List Nat) (ks : List Nat) : Nat := to32 (sum64 (ks.map (fun k => to64 (cov.getD k 0))))

/-- A POSE completion (R496). -/
def Chip.poseCpl (c : Chip) (i : Nat) (fast : Bool) (seq state stamp : Nat) : Chip :=
  if c.eget i 0x3000 18 < (if fast then 2 else 1) then c
  else c.post (c.estVoice i) { kind := .pose, cookie := seq, info := i + 256 * b2n fast + 0x10000 * state, data := stamp }

/-- The entries of 0x3040 for one publication (R493). -/
def Chip.setPose (c : Chip) (i stamp : Nat) (p : PoseValues) (inliers flags extrap : Nat) : Chip :=
  let e := c.est i
  let k := fun s => entEst i 0x3040 s
  let c1 := (((c.dset (k 1) stamp).dset (k 2) p.state).dset (k 3) p.quality)
  let c2 := c1.each (List.range 7) (fun c j => c.dset (k (4 + j)) (p.vals.getD j 0))
  let c3 := c2.each (List.range 3) (fun c j => c.dset (k (13 + j)) (p.vals.getD (7 + j) 0))
  let c4 := (c3.dset (k 11) (covTrace p.cov [0, 6, 11])).dset (k 12) (covTrace p.cov [15, 18, 20])
  let c5 := (((c4.dset (k 17) flags).dset (k 18) extrap).dset (k 19) c.posNat).dinc (k 20)
  let latest := (e.allKeys.map (·.id)).foldl Nat.max 0
  ((c5.dset (k 21) latest).dset (k 22) (c.eget i 0x3030 17)).dset (k 23) inliers

/-- The pose of frame f: R455, R456, R463, R464, R469, R487, R488. -/
def Chip.publish (c : Chip) (i f : Nat) : Chip :=
  let e := c.est i
  let r := e.results.find? (fun r => r.frame == f)
  let missed := r.isNone && e.st != .halted
  let prim := (c.primaryOf i f).bind (fun cam => (c.viewOf i cam f).map (·.bytes))
  let stamp := match r, prim with
    | some r, _ => r.stamp
    | none, some b => listStamp b
    | none, none => (e.lastStamp + m32) % m64
  let misses := if missed then e.misses + 1 else 0
  let lose := missed && e.st == .tracking && decide (c.eget i 0x3000 17 ≤ misses)
  let enter := if lose then some EstState.lost else r.bind (·.enter)
  let st := enter.getD e.st
  let extrap := match e.source with
    | some p => Nat.min 255 ((f + m32 - p.frame) % m32)
    | none => 0
  let pose : PoseValues := match r with
    | some r => if r.solved then
        { state := 1, quality := r.quality, token := r.token, vals := r.vals, cov := r.cov }
      else noPose
    | none => match e.source with
      | some p => if missed && e.since && !lose then
          { c.propagate i p stamp with state := 2, quality := p.quality / 2 ^ extrap }
        else noPose
      | none => noPose
  let applied := e.loopFlag.any (fun t => decide (t < c.now))
  let flags := ((r.map (·.flags)).getD (8 * b2n prim.isNone)) + 2 * b2n applied + 128 * b2n (st == .init)
  let pub : EstPub := { state := pose.state, quality := pose.quality, stamp, published := c.posNat, frame := f,
                        token := pose.token, vals := pose.vals, cov := pose.cov }
  let fresh := decide (st ≠ e.st ∧ (st = .lost ∨ st = .init))
  let next := if laterMod m32 e.next f then e.next else (f + 1) % m32
  let done_ := match e.cur with
    | some fr => !laterMod m32 fr.frame f
    | none => false
  let needed := (e.source.map (·.stamp)).toList ++ (e.window.getLast?.map (·.stamp)).toList ++ (e.first.map (·.stamp)).toList
  let low := needed.foldl (fun a b => if laterPos a b then b else a) stamp
  let c0 := if done_ then (c.dropRuns (fun r => (r.est.map (·.1)) != some i)).ledgerDrop (c.estVoice i) (.estimator i) 0x4000 else c
  let c1 := (c0.estClosed i false).setEst i { e with
    st, next, lastStamp := stamp, misses, loopFlag := if applied then none else e.loopFlag
    views := e.views.filter (fun v => laterMod m32 v.frame f)
    poses := e.poses + 1
    mode := if lose then .lost else e.mode
    window := if lose then [] else e.window
    landmarks := if lose then [] else e.landmarks
    assoc := if lose then [] else e.assoc
    cur := if done_ then none else e.cur
    results := e.results.filter (fun r => laterMod m32 r.frame f)
    source := if pose.state = 1 then some pub else e.source
    since := if fresh then false else e.since || pose.state == 1
    pubs := (pub :: e.pubs).take 4
    outs := e.outs.filter (fun o => laterPos o.stamp low ||
      !e.outs.any (fun q => q.ch == o.ch && laterPos q.stamp o.stamp && !laterPos q.stamp low)) }
  let c2 := c1.dinc (entEst i 0x3000 20)
  let c3 := if missed then c2.dinc (entEst i 0x3000 21) else c2
  let inl := match r with
    | some r => if pose.state = 1 then r.inliers else 0
    | none => 0
  let c4 := c3.setPose i stamp pose inl flags (if pose.state = 2 then extrap else 0)
  c4.poseCpl i false (c4.eget i 0x3040 20) pose.state stamp

/-- A POSE_PUBLISH cue fires; its target names the frame (R448, R453). Frames before the entry to RUN have no pose. -/
def Chip.posePublish (c : Chip) (i target : Nat) : Chip :=
  let e := c.est i
  let f := (Pos.ofNat (subPos c.epoch.frameLines target (c.eget i 0x3000 16))).frame
  if e.st = .stopped ∨ e.st = .idle ∨ laterMod m32 e.begun f then c else (c.takeInjected i).publish i f

/-- R494: the fast pose of a released output. -/
def Chip.fastPose (c : Chip) (i : Nat) (o : EstOut) : Chip :=
  let e := c.est i
  if e.st = .stopped ∨ e.st = .idle ∨ o.ch ≠ c.eget i 0x3000 7 % 256 ∨ c.eget i 0x3048 17 ≠ 1 ∨
      o.seq % c.eget i 0x3048 16 ≠ 0 then c
  else
    let src := e.pubs.find? (fun p => laterPos o.emerged p.published)
    let pose := match src with
      | some p => if p.state = 0 then noPose else c.propagate i p o.stamp
      | none => noPose
    let k := fun s => entEst i 0x3048 s
    let c1 := ((c.dset (k 1) o.stamp).dset (k 2) pose.state).dset (k 3) pose.quality
    let c2 := c1.each (List.range 10) (fun c j => c.dset (k (4 + j)) (pose.vals.getD j 0))
    let c3 := ((c2.dset (k 14) ((src.map (·.stamp)).getD 0)).dinc (k 15)).setEst i { e with fasts := e.fasts + 1 }
    c3.poseCpl i true (c3.eget i 0x3048 15) pose.state o.stamp

/-- A released output reaches the instances that use its channel (R450, R489, R494). -/
def Chip.estOutput (c : Chip) (o : EstOut) : Chip :=
  c.each (List.range 8) (fun c i =>
    let e := c.est i
    if e.st = .stopped || c.eget i 0x3000 9 == 1 || !(c.estChannels i).contains o.ch then c
    else (c.setEst i { e with outs := e.outs ++ [o] }).fastPose i o)

/-- The injected records that are due enter, with their fast poses (R450, R494). -/
def Chip.estInjectedDue (c : Chip) : Chip :=
  c.each (List.range 8) (fun c i =>
    let due := (c.est i).records.filter (fun o => reached c.posNat o.stamp)
    (c.takeInjected i).each due (fun c o => c.fastPose i o))

/-! ### Closures, the map, export, import, injection -/

/-- R477, R478: a closure's due epoch. -/
def Chip.closureDue (c : Chip) (i : Nat) : Chip :=
  let e := c.est i
  match e.closure with
  | none => c
  | some q =>
    if !reached c.posNat q.due then c
    else
      let c1 := c.estClosed i true
      match q.solved with
      | some tok => (c1.setEst i { e with closure := none, apply := some (tok, q), loopFlag := some c.now }).dinc
          (entEst i 0x3030 17)
      | none => (c1.setEst i { e with closure := none, edges := e.edges.filter (fun x =>
          !(x.loop && x.first == q.first && x.second == q.second)) }).dinc (entEst i 0x3030 15)

/-- CLEAR: an empty map, identifiers from 1; TRACKING and LOST go to INIT (R481, Table 9.4). -/
def Chip.estClear (c : Chip) (i : Nat) : Chip :=
  let e := c.est i
  let c1 := c.dropEstWork i true
  let c2 := if (c1.cue (estSlot i true)).armed then c1.freeSlot (estSlot i true) else c1
  let active := e.st == .tracking || e.st == .lost || e.st == .init
  c2.setEst i { c2.est i with
    keys := [], points := [], edges := [], window := [], landmarks := [], assoc := [], nextKey := 1, nextPoint := 1, closure := none
    loopDue := none, loopFlag := none, apply := none, first := none, cur := none, results := [], token := 0, weak := 0, misses := 0, mapFull := false
    exhausted := false, credit := 5000 * pointCredit
    since := if active then false else e.since
    st := if active then .init else e.st
    mode := if active then .init else e.mode }

/-- The tensor of instance i's export (R497). -/
def exportTensor (i : Nat) : Nat := 0xFF2000 + i

/-- R473: a model's identity. -/
def Chip.modelId (c : Chip) (i sub : Nat) : Nat :=
  match c.modelOf i sub c.posNat with
  | .plain => 0
  | .builtin => crc32 (c.defaultModel sub)
  | .passage t => crc32 (c.contents t)

/-- Everything an export now would hold. -/
def Chip.exportNow (c : Chip) (i : Nat) : List Byte :=
  let plain := fun sub => b2n (c.modelOf i sub c.posNat == .plain)
  (c.est i).exportBytes c.level (plain 10 + 2 * plain 11) (c.modelId i 10) (c.modelId i 11) c.posNat

/-- The engine with room for an export of n bytes, if the bound voice's quota holds it. -/
def Chip.exportRoom (c : Chip) (i n : Nat) : Option Chip :=
  (c.freeTensor (exportTensor i)).makeEngineTensor (exportTensor i) (c.estVoice i) 2 n 0

/-- R497: EXPORT commits: the snapshot is taken and BUSY set. -/
def Chip.estExport (c : Chip) (i : Nat) : Chip :=
  let bytes := c.exportNow i
  match c.exportRoom i bytes.length with
  | none => c
  | some c1 => ((c1.setEst i { c1.est i with snapshot := some bytes }).dset (entEst i 0x3020 6) 1).dset
      (entEst i 0x3020 7) bytes.length

/-- EXPORT_COMPLETE: the tensor is written (R498). -/
def Chip.exportDone (c : Chip) (i : Nat) : Chip :=
  match (c.est i).snapshot with
  | none => c
  | some bytes =>
    let c1 := (c.engineWrite (exportTensor i) 0 bytes 0x0020 i).1
    (c1.setEst i { c1.est i with snapshot := none }).dset (entEst i 0x3020 6) 2

/-- R499: the checks of an import of bytes. -/
def Chip.importCheck (c : Chip) (i : Nat) (bs : List Byte) : Nat :=
  let e := c.est i
  if e.st ≠ .stopped ∧ e.st ≠ .idle then 0x0A040001
  else
    let good := goodImport bs
    let codes := [if good then 0 else 0x0A030003,
      if good && fieldAt bs 6 1 != c.level then 0x0A090001 else 0,
      if good && (fieldAt bs 0x28 4 != c.modelId i 10 || fieldAt bs 0x2C 4 != c.modelId i 11) then 0x0A030003 else 0,
      if good && decide (c.eget i 0x3000 11 * 0x100000 + 64 < fieldAt bs 0x30 8) then 0x0A050001 else 0,
      if good && !goodImportCrc bs then 0x0A0A0001 else 0]
    firstCode codes

/-- R500: an accepted import replaces the map. -/
def Chip.estImport (c : Chip) (i : Nat) (bs : List Byte) : Chip := c.setEst i ((c.est i).importMap bs)

/-- An inertial record of Table 8.8 as an instance takes it. -/
def recordOut (ch : Nat) (bs : List Byte) : EstOut :=
  { ch, stamp := fieldAt bs 0 8, value := toSigned 32 (fieldAt bs 8 4), period := fieldAt bs 0x0C 4,
    seq := fieldAt bs 0x10 4, held := bit (fieldAt bs 0x14 2) 2, stopped := bit (fieldAt bs 0x14 2) 3,
    emerged := fieldAt bs 0x18 8 }

/-- Records at the start of a byte string, in 32-byte steps. -/
def recordsOf (ch : Nat) (bs : List Byte) : Nat → List EstOut
  | 0 => []
  | n + 1 => recordOut ch (bs.take 32) :: recordsOf ch (bs.drop 32) n

/-- R450: injected content is a feature list or an inertial ring. -/
def goodInject (bs : List Byte) : Bool :=
  (fieldAt bs 0 4 == 0x46544C53 && 64 + 64 * fieldAt bs 0x24 2 ≤ bs.length) ||
  (fieldAt bs 0 4 == 0x474E4952 && fieldAt bs 4 1 == 0 && fieldAt bs 6 2 == 32 && 0x40 + 32 * fieldAt bs 8 4 ≤ bs.length)

/-- R450: a list, or the records of a ring oldest first, join the injected input. -/
def Chip.estInject (c : Chip) (i : Nat) (bs : List Byte) : Chip :=
  let e := c.est i
  if fieldAt bs 0 4 = 0x46544C53 then c.setEst i { e with lists := (e.lists ++ [bs]) }
  else
    let depth := fieldAt bs 8 4
    let n := Nat.min depth (fieldAt bs 0x0C 4)
    let first := fieldAt bs 0x0C 4 - n
    let rs := (List.range n).map (fun k => recordOut (fieldAt bs 5 1) ((bs.drop (0x40 + 32 * ((first + k) % depth))).take 32))
    c.setEst i { e with records := e.records ++ rs }

/-! ### Dictionary entries (Tables 9.10 to 9.14) -/

/-- R470: the model interface that a passage must declare. -/
def Chip.badModel (c : Chip) (sub t : Nat) : Bool :=
  t != 0 && t != 0xFFFFFFFF && (match c.loaded? t with
    | some p => !bit (Pass.ofBytes p.image).flags (if sub = 10 then 1 else 2)
    | none => true)

/-- The entries that can be written only while ENABLE is 0 (R442). -/
def estStoppedOnly (idx sub : Nat) : Bool :=
  (idx == 0x3000 && (sub == 3 || sub == 5 || sub == 7 || sub == 8 || sub == 9 || sub == 11)) ||
  (idx == 0x3010 && (sub == 9 || sub == 10)) || (idx == 0x3030 && (sub == 10 || sub == 11))

/-- Injection outside bench mode or with INJECT_ENABLE 0, an export in progress, and an import of a running instance. -/
def Chip.estFixed (c : Chip) (i idx sub : Nat) : Bool :=
  match idx, sub with
  | 0x3000, 10 => c.straps.mode != .bench || c.eget i 0x3000 9 != 1
  | 0x3020, 5 => (c.est i).snapshot.isSome
  | 0x3020, 8 => (c.est i).st != .stopped && (c.est i).st != .idle
  | _, _ => false

/-- The checks of a write by voice v to an entry of its selected instance beside type, range and access (R438, R442 and
the entries' own rules); 0 is good. -/
def Chip.estCheck (c : Chip) (v i idx sub value : Nat) : Nat :=
  let lines := c.epoch.frameLines
  match idx, sub with
    | 0x3000, 2 => if value = 1 then
        (if c.estInconsistent i then 0x0A030003 else if c.estOn i then 0 else c.estEnableCheck i) else 0
    | 0x3000, 9 => if value = 1 ∧ c.straps.mode = .field then 0x0A030001 else 0
    | 0x3000, 10 => match c.tensor? value with
        | none => 0x0A030001
        | some x => if x.lost then 0x0A070001 else if goodInject (c.contents value) then 0 else 0x0A030003
    | 0x3000, 13 | 0x3000, 15 => if lines ≤ value then 0x0A030001 else 0
    | 0x3000, 14 => if value = 0 ∨ m32 ≤ value ∨ lines ≤ (Pos.ofNat value).line then 0x0A030001 else 0
    | 0x3000, 16 => if lines ≤ (Pos.ofNat value).line then 0x0A030001 else 0
    | 0x3020, 5 => if (c.exportRoom i (c.exportNow i).length).isNone then 0x0A050001 else 0
    | 0x3020, 8 => firstCode [c.readCheck v value, if (c.tensor? value).isSome then c.importCheck i (c.contents value) else 0]
    | 0x3030, 8 => if lines ≤ (Pos.ofNat value).line then 0x0A030001 else 0
    | 0x3030, 10 | 0x3030, 11 => if c.badModel sub value then 0x0A030003 else 0
    | _, _ => 0

/-- The effect of a committed write beside its stored value (R440, R448, R460). -/
def Chip.estCommit (c : Chip) (i idx sub old value : Nat) : Chip :=
  let e := c.est i
  let c1 := if 0x3010 ≤ idx ∧ idx ≤ 0x3030 then
      c.setEst i { e with olds := e.olds ++ [(c.posNat, entEst i idx sub, old)] } else c
  match idx, sub with
  | 0x3000, 2 => if value = 1 ∧ old = 0 then c1.estEnable i else if value = 0 ∧ old = 1 then c1.estStop i else c1
  | 0x3000, 10 => c1.estInject i (c1.contents value)
  | 0x3000, 12 | 0x3000, 14 => if c1.estOn i then c1.setEst i { e with dirtyTrig := true } else c1
  | 0x3000, 13 => if c1.estOn i then c1.setEst i { e with dirtyTrig := true, clampTrig := false } else c1
  | 0x3000, 15 => if c1.estOn i then c1.setEst i { e with dirtyFe := true, clampFe := false } else c1
  | 0x3000, 16 => if c1.estOn i then c1.armPoseCue i else c1
  | 0x3020, 4 => c1.estClear i
  | 0x3020, 5 => c1.estExport i
  | 0x3020, 8 => c1.estImport i (c1.contents value)
  | _, _ => c1

/-- R441: at the entry to READY from CONFIG, the instances loaded as enabled are checked and enabled. -/
def Chip.estReady (c : Chip) : Chip :=
  c.each (List.range 8) (fun c i =>
    if c.estOn i && (c.est i).st == .stopped then
      let code := c.estEnableCheck i
      if code = 0 then c.estEnable i else (c.dset (entEst i 0x3000 2) 0).log 0x0801 0x0020 i code 0
    else c)

/-- R443: the bound voice is reset. -/
def Chip.estVoiceReset (c : Chip) (v : Nat) : Chip :=
  c.each (List.range 8) (fun c i =>
    if c.estVoice i = v then (c.dset (entEst i 0x3000 2) 0).estStop i else c)

/-- FLAGS of 0x3000 (Table 9.10); the two PLAIN flags follow the selection in STOPPED too (R471). -/
def Chip.estFlags (c : Chip) (i : Nat) : Nat :=
  let e := c.est i
  let works := e.st != .stopped
  b2n e.mapFull + 2 * b2n e.exhausted + 4 * b2n (works && decide ((c.estActive i).length < (c.estCams i).length)) +
    8 * b2n (c.modelOf i 10 c.posNat == .plain) + 16 * b2n (c.modelOf i 11 c.posNat == .plain) +
    32 * b2n (works && (e.clampTrig || e.clampFe))

/-- The code of an instance state (Table 9.3). -/
def EstState.code : EstState → Nat
  | .stopped => 0 | .idle => 1 | .init => 2 | .tracking => 3 | .lost => 4 | .halted => 5

end Sys2Proof.Machine
end

