-- ==== Sys2Proof/Machine/Tiers.lean ====
section
/-! DEFINITION. The tier controller's commands: moving, pinning, creating, releasing and refreshing tensors,
relocation, and what a retirement does to tensors and limits (R591 to R632, R878, R882). -/

namespace Sys2Proof.Machine

/-! ### MOVE_TENSOR and PIN_TENSOR (R605, R606, R613) -/

/-- Something beside the tensor's waiting MOVE_TENSOR commands names it (R606). The moves of one tensor follow each other in
their order: each waiting for the others would hold all of them for ever (log 55, DEDUCED). -/
def Chip.namedBeside (c : Chip) (t : Nat) : Bool :=
  let own := c.moves.filterMap (fun m => if m.tensor = t then m.cpl.map (fun k => (m.voice, k.tag)) else none)
  ({ c with ledger := c.ledger.filter (fun e => !(e.source == LedgerSource.ring && own.contains (e.voice, e.tag))) }).inFlight t

/-- What a MOVE_TENSOR of a tensor does (Table 12.7); none: the command does not fit any row. -/
def Tensor.moveKind (x : Tensor) (dst array host : Nat) : Option MoveKind :=
  if dst = 3 ∧ host ≠ 0 then some (.toHost host)
  else if dst < x.home then some (.toWork dst (if dst = 0 then array else 0xFF))
  else if dst = x.home ∧ host = 0 then some .toHome
  else none

/-- The move would move or release the pinned working copy. -/
def Tensor.pinBlocks (x : Tensor) (k : MoveKind) : Bool :=
  x.workPinned && (match k with
    | .toWork tier array => !(tier == x.work && (tier != 0 || array == 0xFF || array == x.array))
    | .toHome => true
    | .toHost _ => false)

/-- The checks of a MOVE_TENSOR at admission; 0 is good. -/
def Chip.moveCheck (c : Chip) (v t dst array host born : Nat) : Nat :=
  match c.tensor? t with
  | none => 0x0A030001
  | some x => match x.moveKind dst array host with
    | none => firstCode [c.writeCheck v t, 0x0A030001]
    | some (.toHost _) => firstCode [c.readSince v t born, if v = 15 then 0x0A030001 else 0]
    | some k =>
      let arr := if dst = 0 then
          (if 16 ≤ array ∧ array ≠ 0xFF then 0x0A030001
           else if (if array = 0xFF then c.liveArrays.isEmpty else c.isRetired (.array array)) then 0x0A070001 else 0)
        else 0
      let pin := if x.pinBlocks k then 0x0A040001 else 0
      let room := if k = .toHome ∨ x.work = dst then 0 else if c.refuses x.bill dst x.size then 0x0A050001 else 0
      firstCode [c.writeCheck v t, if v = 15 ∧ x.home = 3 then 0x0A030001 else 0, arr, pin, room]

/-- MOVE_TENSOR at admission: the move waits for its turn, or the command completes at once. -/
def Chip.moveTensor (c : Chip) (v : Nat) : Chip :=
  match c.admittedAs v 4 with
  | none => c
  | some a =>
    let t := a.arg 8 4
    let dst := a.arg 0x0C 1
    let array := a.arg 0x0D 1
    let host := a.arg 0x10 8
    let code := c.moveCheck v t dst array host a.born
    match code, (c.tensor? t).bind (fun x => x.moveKind dst array host) with
    | 0, some kind =>
      let k : Completion := { kind := .command, tag := a.tag, opcode := 4, cookie := a.cookie, irq := a.irq, holds := true }
      let c1 := (c.takeUp v).ledgerName v .ring a.tag [t]
      { c1 with moves := c1.moves ++ [{ tensor := t, kind, voice := v, cpl := some k }] }
    | code, _ => c.finish v a code 0 0

/-- The move is done: its completion is posted and it leaves the list. -/
def Chip.moveEnds (c : Chip) (m : Move) (status : Nat) : Chip :=
  let c1 := { c with moves := c.moves.erase m }
  match m.cpl with
  | some k => c1.post m.voice { k with status }
  | none => c1

/-- TENSOR_MOVE_COMPLETE: the first MOVE_TENSOR of a tensor ends, once nothing else names the tensor and room exists
(R605, R606, R615 to R617). -/
def Chip.moveDone (c : Chip) (t : Nat) : Chip :=
  match c.moves.find? (fun m => m.tensor == t && m.cpl.isSome), c.tensor? t with
  | some m, none => c.moveEnds m 0x0A030001
  | some m, some x =>
    if c.namedBeside t then c
    else if x.lost then c.moveEnds m 0x0A070001
    else match m.kind with
      | .toHost addr =>
        let c1 := c.copyBytes x.currentAt.1 x.currentAt.2 3 addr x.size
        ((((c1.setTensor t { x with moves := (x.moves + 1) % m32, lastUse := c.posNat }).dinc (ent 0x4100 14)).dadd64
          (ent 0x4100 20) x.size)).moveEnds m 0
      | .toHome =>
        let c1 := c.writeBack t
        match c1.tensor? t with
        | some y => (c1.setTensor t { y.dropWork with lastUse := c.posNat }).moveEnds m 0
        | none => c1.moveEnds m 0
      | .toWork tier array =>
        if x.work = tier ∧ (tier ≠ 0 ∨ array = 0xFF ∨ array = x.array) then c.moveEnds m 0
        else if tier = 0 ∧ (if array = 0xFF then c.liveArrays.isEmpty else c.isRetired (.array array)) then
          c.moveEnds m 0x0A070001
        else
          let need := if x.work = tier then 0 else charge tier x.size
          let c1 := c.evictFor x.bill tier need
          if c1.limitBytes x.bill tier < c1.usage x.bill tier + need then c1
          else
            let arr := if tier = 0 then (if array = 0xFF then (c1.roomiestArray []).getD 0 else array) else 0xFF
            match c1.place tier arr x.size [] with
            | none => c1
            | some addr => (c1.makeWork t tier arr addr).moveEnds m 0
  | none, _ => c

/-- WRITE_BACK_COMPLETE: an evicted dirty copy is home, and is released (R611, R616). -/
def Chip.writeBackDone (c : Chip) (t : Nat) : Chip :=
  match c.moves.find? (fun m => m.tensor == t && m.cpl.isNone && m.kind == .toHome) with
  | none => c
  | some m =>
    let c1 := { c with moves := c.moves.erase m }.writeBack t
    match c1.tensor? t with
    | some x => c1.setTensor t x.dropWork
    | none => c1

/-- R613, R335: a tensor after a pin or unpin of its copy in a tier; a held lookup stays pinned. -/
def Tensor.pinned (x : Tensor) (tier : Nat) (pin held : Bool) : Tensor :=
  if pin then { x with pinTier := tier, voicePin := true }
  else if x.pinTier = tier then { x with pinTier := if held then tier else 0xFF, voicePin := false }
  else x

/-- PIN_TENSOR (R613). -/
def Chip.pinTensor (c : Chip) (v : Nat) : Chip :=
  match c.admittedAs v 5 with
  | none => c
  | some a =>
    let t := a.arg 8 4
    let tier := a.arg 0x0C 1
    let pin := a.arg 0x0D 1
    match c.tensor? t with
    | none => c.finish v a 0x0A030001 0 0
    | some x =>
      let has := x.home == tier || x.work == tier
      let other := x.pinTier != 0xFF && x.pinTier != tier
      let code := firstCode [c.writeCheck v t, if 2 < tier ∨ 1 < pin then 0x0A030001
        else if pin = 1 ∧ (!has ∨ other) then 0x0A040001 else 0]
      if code ≠ 0 then c.finish v a code 0 0
      else
        (c.setTensor t (x.pinned tier (pin == 1) (c.lutHeld t))).finish v a 0 0 0

/-! ### CREATE, RELEASE, REFRESH (R598 to R603, R878) -/

/-- R595: the form of a tier 3 home address. -/
def goodHostHome (a : Nat) : Bool := a % 64 == 0 && a / 2 ^ 60 ≤ 1

/-- R598: the fields of a CREATE descriptor are in their ranges and the others zero. -/
def goodCreate (v : Nat) (d : List Byte) : Bool :=
  let f := fieldAt d
  let home := f 0x0D 1
  f 0 4 != 0 && f 0 4 < 0xFF0000 && f 4 2 == 0 && f 6 2 == 0 && 1 ≤ f 8 4 && f 8 4 ≤ 8388608 && f 0x0C 1 ≤ 6 &&
  1 ≤ home && home ≤ 3 && f 0x0E 2 == 0 && f 0x12 2 == 0 && f 0x14 4 == 0 &&
  (if home = 3 then goodHostHome (f 0x18 8) && v < 13 else f 0x18 8 == 0) && (d.drop 0x20).all (· == 0)

/-- The checks of a write to CREATE; 0 is good. -/
def Chip.createCheck (c : Chip) (v : Nat) (d : List Byte) : Nat :=
  let size := fieldAt d 8 4
  let home := fieldAt d 0x0D 1
  if !goodCreate v d then 0x0A030001
  else if (c.tensor? (fieldAt d 0 4)).isSome then 0x0A030003
  else if 4096 ≤ c.tensorCount v then 0x0A050001
  else if home = 3 then 0
  else if c.limitBytes v home < c.usage v home + charge home size ∨ (c.place home 0xFF size []).isNone then 0x0A050001
  else 0

/-- R599: the tensor is made, its home zero-filled in tier 1 or 2. -/
def Chip.createTensor (c : Chip) (v : Nat) (d : List Byte) : Chip :=
  let t := fieldAt d 0 4
  let size := fieldAt d 8 4
  let home := fieldAt d 0x0D 1
  let addr := if home = 3 then fieldAt d 0x18 8 else (c.place home 0xFF size []).getD 0
  let c1 := if home = 3 then c else c.setTierMem home ((c.tierMem home).clear addr (charge home size))
  c1.setTensor t { owner := v, bill := v, size, format := fieldAt d 0x0C 1, home, homeAddr := addr,
                   share := fieldAt d 0x10 2, lastWrite := c.posNat }

/-- R878: the checks of a write to RELEASE or REFRESH, in their own order. -/
def Chip.ownedCheck (c : Chip) (v t : Nat) : Nat :=
  match c.tensor? t with
  | none => 0x0A030001
  | some x =>
    if x.doom.isSome then 0x0A030001
    else if x.owner ≠ v ∨ isEngineTensor t then 0x0A020003
    else if c.inFlight t then 0x0A040001 else 0

/-- R601, R516, R570: the tensor is freed; a tablature or passage of it goes with it. -/
def Chip.releaseTensor (c : Chip) (t : Nat) : Chip := ((c.freeTensor t).evictTablature t).unloadPassage t

/-- R869, R308: tensors that a voice reset released are freed once no entry names them, and tablatures of the voice leave the
store once no request uses them. -/
def Chip.sweepDoomed (c : Chip) : Chip :=
  let c1 := (c.tablatures.filter (fun p => p.2.leaving && !c.tablatureBusy p.1)).foldl (fun c p => c.evictTablature p.1) c
  (c1.tensors.filter (fun p => p.2.doom.isSome && !c1.inFlight p.1)).foldl (fun c p => c.releaseTensor p.1) c1

/-- R603: the working copy is discarded and the home's bytes become current. -/
def Chip.refreshTensor (c : Chip) (t : Nat) : Chip :=
  match c.tensor? t with
  | some x => { c with moves := c.moves.filter (fun m => m.tensor ≠ t ∨ m.cpl.isSome) }.setTensor t
      (x.dropWork.nextGen c.posNat)
  | none => c

/-! ### Relocation (R592) -/

/-- The ranges of a tier that a copy of a tensor at an address may not take when it is relocated. -/
def Chip.freeFor (c : Chip) (tier target size : Nat) (own : Nat × Nat) : Bool :=
  ((c.blocked tier 0xFF []).erase own).all (fun b => b.1 + b.2 ≤ target || target + charge tier size ≤ b.1) &&
  target % granule tier == 0 && target + charge tier size ≤ c.tierTop tier

/-- One copy of a tensor in tier 1 or 2 takes another address; contents, generation and DIRTY stay. -/
def Chip.relocate (c : Chip) (t tier target : Nat) : Chip :=
  match c.tensor? t with
  | none => c
  | some x =>
    if x.work = tier then
      (c.copyBytes tier x.workAddr tier target x.size).setTensor t { x with workAddr := target }
    else if x.home = tier ∧ !x.lost then
      (c.copyBytes tier x.homeAddr tier target x.size).setTensor t { x with homeAddr := target }
    else c

/-- RELOCATION: a copy that is neither pinned nor in flight moves to a free range of its tier. -/
def Chip.relocation (c : Chip) (t tier target : Nat) : Chip :=
  match c.tensor? t with
  | none => c
  | some x =>
    let own := if x.work = tier then (x.workAddr, charge tier x.size) else (x.homeAddr, charge tier x.size)
    let there := x.work == tier || (x.home == tier && !x.lost)
    if !(tier == 1 || tier == 2) || !there || x.pinTier == tier || c.inFlight t || !c.freeFor tier target x.size own then c
    else (c.relocate t tier target).dinc (ent 0x4100 17)

/-! ### Retirement and re-sharing (R628 to R630, R632) -/

/-- R628: the LIMITs of V1 to V15 in a tier after a retirement. -/
def Chip.reshare (c : Chip) (tier : Nat) : Chip :=
  let cap := c.capacity tier
  let q := fun w => c.dget (ent (vIdx w 1) (tier + 1))
  let s := ((rangeFrom 1 15).map q).foldl (· + ·) 0
  let unit := if tier = 1 then 4 else 1
  c.each (rangeFrom 1 15) (fun c w =>
    let l := if s ≤ cap then q w else q w * cap / s / unit * unit
    c.dset (ent (vIdx w 2) (tier + 6)) l)

/-- The tensor's contents are gone (R629, R631). -/
def Chip.loseTensor (c : Chip) (t : Nat) : Chip :=
  match c.tensor? t with
  | some x => (c.setTensor t { x.dropWork with lost := true, pinTier := 0xFF, voicePin := false }).unloadPassage t
  | none => c

/-- R629: a copy of a tensor lies on a retired unit; `hit` tells for tier, array and address whether it does. -/
def Chip.hitTensor (c : Chip) (t : Nat) (hit : Nat → Nat → Nat → Nat → Bool) : Chip :=
  match c.tensor? t with
  | none => c
  | some x =>
    let work := x.work != 0xFF && hit x.work x.array x.workAddr x.size
    let home := x.home < 3 && !x.lost && hit x.home 0xFF x.homeAddr x.size
    if !work && !home then c
    else if work && x.dirty then c.loseTensor t
    else if work && !home then c.setTensor t x.dropWork
    else if x.work = 0xFF ∨ work then c.loseTensor t
    else
      -- the home is gone and the working copy survives: a new home in the same tier
      let c1 := c.setTensor t { x with lost := true }
      if c1.limitBytes x.bill x.home < c1.usage x.bill x.home + charge x.home x.size then c.loseTensor t
      else match c1.place x.home 0xFF x.size [] with
        | none => c.loseTensor t
        | some a => (c1.copyBytes x.workAt.1 x.workAt.2 x.home a x.size).setTensor t
            { x with homeAddr := a, dirty := false }

/-- R629 over every tensor. -/
def Chip.hitTensors (c : Chip) (hit : Nat → Nat → Nat → Nat → Bool) : Chip :=
  (c.tensors.map (·.1)).foldl (fun c t => c.hitTensor t hit) c

/-- Whether a copy overlaps a MiB of a tier. -/
def overMiB (tier k : Nat) (t' : Nat) (addr size : Nat) : Bool :=
  t' == tier && decide (addr < (k + 1) * 0x100000 ∧ k * 0x100000 < addr + size)

/-- Array a has retired: the copies in its tier 0 and the limits. -/
def Chip.tier0Retired (c : Chip) (a : Nat) : Chip :=
  (c.hitTensors (fun tier array _ _ => tier == 0 && array == a)).reshare 0

/-- Tier 1 bank b has retired. -/
def Chip.tier1Retired (c : Chip) (b : Nat) : Chip := (c.hitTensors (fun tier _ addr size => overMiB 1 b tier addr size)).reshare 1

/-- R630: the readable copies on frame f move to other frames; `bad` is the address of an uncorrected error. -/
def Chip.moveOffFrame (c : Chip) (f : Nat) (bad : Option Nat) : Chip :=
  let holds := fun (addr size : Nat) => match bad with
    | some b => decide (addr ≤ b ∧ b < addr + size)
    | none => false
  (c.tensors.map (·.1)).foldl (fun c t => match c.tensor? t with
    | none => c
    | some x =>
      let addr := if x.work = 2 then x.workAddr else x.homeAddr
      if (x.work = 2 ∨ (x.home = 2 ∧ !x.lost)) ∧ overMiB 2 f 2 addr x.size ∧ !holds addr x.size then
        match c.place 2 0xFF x.size [] with
        | some a => c.relocate t 2 a
        | none => c
      else c) c

/-- Tier 2 frame f has retired (R628 to R630); an ECC event is counted (Table 12.10, R633). -/
def Chip.tier2Retired (c : Chip) (f check : Nat) (bad : Option Nat) : Chip :=
  let c0 := if check = 1 then c.dinc (ent 0x4100 18) else if check = 2 then c.dinc (ent 0x4100 19) else c
  (((c0.dset (ent 0x4100 7) (c0.dget (ent 0x4100 7) + 1)).moveOffFrame f bad).hitTensors
    (fun tier _ addr size => overMiB 2 f tier addr size)).reshare 2

/-- BLOCK and INSTANCE of the block that an engine tensor belongs to (Tables 3.5 and 7.9, 8.9, 9.10, 14.15). -/
def engineBlock (t : Nat) : Nat × Nat :=
  if t < 0xFF1000 then (0x0010, (t - 0xFF0000) / 0x100)
  else if t < 0xFF1010 then (0x0011, t - 0xFF1000)
  else if t < 0xFF1020 then (0x0012, t - 0xFF1010)
  else if 0xFF2000 ≤ t ∧ t < 0xFF2008 then (0x0020, t - 0xFF2000)
  else (0x0060, 0)

/-- ENGINE_TENSOR_RECREATE (R632). -/
def Chip.recreateEngine (c : Chip) (t : Nat) : Chip :=
  match c.tensor? t with
  | none => c
  | some x =>
    if !isEngineTensor t || !x.lost then c
    else match c.recreate t with
      | some c1 => c1.patchTensor t 0 []
      | none => c.log 0x0802 (engineBlock t).1 (engineBlock t).2 0 0

end Sys2Proof.Machine
end

