-- ==== Sys2Proof/Machine/View.lean ====
section
/-! DEFINITION. What the dictionary entries read: the fretboard mirror, the error register, the retirement map and every
other value that is computed from the state (Tables 3.2 to 3.7, 4.9, 4.12, 16.9 to 16.11 and the chapters' RO entries). -/

namespace Sys2Proof.Machine

/-! ### The fretboard (chapter 3) -/

/-- Table 3.5: TYPE, COUNT, FLAGS, BASE, STRIDE, DICT_BASE, DICT_STRIDE and CAPS; every VERSION is 1.0. -/
def fretboardRows (g : Grade) : List (List Nat) :=
  [[0x0001, 1, 2, 0x0, 0x10000, 0x1F00, 0, 0],
   [0x0002, 1, 0, 0x10000, 0x1000, 0x1000, 0, 0],
   [0x0010, 6, 0, 0x100000, 0x4000, 0x2000, 1, 0xF],
   [0x0011, 16, 0, 0x120000, 0x400, 0x2100, 1, 0x7],
   [0x0012, 4, 0, 0x128000, 0x400, 0x2180, 1, 0x1],
   [0x0013, 1, 0, 0x140000, 0x1000, 0x2800, 0, 0x3],
   [0x0014, 1024, 1, 0, 0, 0x2C00, 1, 0],
   [0x0020, 8, 1, 0, 0, 0x3000, 0, 0x7]] ++
  [[0x0030, 16, 0, 0x200000, 0x10000, 0x4000, 1, 0x1F],
   [0x0031, 4, 0, 0x300000, 0x10000, 0x3810, 1, 0x7],
   [0x0032, 1, 1, 0, 0, 0x3800, 0, 0],
   [0x0040, 1, 0, 0x400000, 0x100000, 0x4100, 0, 0x3],
   [0x0041, 1, 1, 0, 0, 0x4200, 0, 0],
   [0x0050, 6, 0, 0x500000, 0x10000, 0x4800, 1, if g = .mc then 0x3 else 0x1],
   [0x0051, 1, 1, 0, 0, 0x4810, 0, 0],
   [0x0060, 1, 0, 0x600000, 0x10000, 0x1820, 0, 0x1]] ++
  [[0x0061, 2, 0, 0x610000, 0x1000, 0x1800, 1, 0x3],
   [0x0062, 1, 0, 0x620000, 0x10000, 0x1810, 0, 0x1],
   [0x0070, 1, 0, 0x700000, 0x100000, 0x5000, 0, 0],
   [0x0080, 1, 0, 0x800000, 0x800000, 0x5800, 0, 0],
   [0x0090, 16, 2, 0x1000000, 0x10000, 0x8000, 0x40, 0x1],
   [0x00A0, 1, 1, 0, 0, 0x6000, 0, 0],
   [0x00A1, 1, 1, 0, 0, 0x7000, 0, 0]]

/-- A field of fretboard entry k: 1 TYPE, 2 VERSION, 3 COUNT and so on in the order of Table 3.7. -/
def fretboardField (g : Grade) (k f : Nat) : Nat :=
  if f = 2 then 0x0100 else ((fretboardRows g).getD k []).getD (if f = 1 then 0 else f - 2) 0

/-- Table 3.3: the 32 bytes of an entry. -/
def fretboardEntry (r : List Nat) : List Byte :=
  let f := fun (i : Nat) => r.getD i 0
  leBytes 2 (f 0) ++ leBytes 2 0x0100 ++ leBytes 2 (f 1) ++ leBytes 2 (f 2) ++ leBytes 8 (f 3) ++ leBytes 4 (f 4) ++
  leBytes 2 (f 5) ++ leBytes 2 (f 6) ++ leBytes 8 (f 7)

/-- The bytes from offset 0x0C on that the CRC covers (R103). -/
def fretboardTail (g : Grade) : List Byte :=
  leBytes 2 32 ++ leBytes 2 32 ++ List.replicate 16 0 ++ (fretboardRows g).flatMap fretboardEntry

/-- CRC of the fretboard. -/
def fretboardCrc (g : Grade) : Nat := crc32 (fretboardTail g)

/-- The fretboard's bytes from offset 0 on; the rest of its window reads zero. -/
def fretboardBytes (g : Grade) : List Byte :=
  leBytes 4 0x46524554 ++ leBytes 2 0x0100 ++ leBytes 2 23 ++ leBytes 4 (fretboardCrc g) ++ fretboardTail g

/-- R104: MAGIC, TABLE_VERSION and CRC of a fretboard are right. -/
def fretboardGood (bs : List Byte) : Bool :=
  fieldAt bs 0 4 == 0x46524554 && fieldAt bs 4 2 == 0x0100 &&
  fieldAt bs 8 4 == crc32 ((bs.drop 12).take (fieldAt bs 12 2 + fieldAt bs 6 2 * fieldAt bs 14 2 - 12))

/-! ### Masks -/

/-- The mask of the first n numbers with a property. -/
def maskOf (n : Nat) (f : Nat → Bool) : Nat := ((List.range n).filter f).foldl (fun m k => m + 2 ^ k) 0

/-- Table 16.9: the bit of SUMMARY that a unit sets. -/
def summaryBit : UnitName → Nat
  | .core _ => 0 | .array _ => 1 | .lane _ => 2 | .storeBank _ => 3 | .tier1Bank _ => 4 | .tier2Frame _ => 5
  | .lineBank _ => 6 | .camera _ => 7 | .inertial _ => 8 | .groupBank _ => 8 | .spiMaster _ => 9 | .encoder _ => 10
  | .canPort _ => 11 | .usb => 12 | .pcie => 13 | .stringLane _ _ => 14 | .string _ => 14 | .meshRouter => 14
  | .breeze => 15 | .sensor _ => 16 | .essential _ => 31

/-- SUMMARY. -/
def Chip.summary (c : Chip) : Nat := maskOf 17 (fun b => c.faults.retired.any (fun u => summaryBit u == b))

/-- Table 16.10: the retirement map. -/
def Chip.retirementMap (c : Chip) (sub : Nat) : Nat :=
  let r := c.isRetired
  match sub with
  | 1 => maskOf 4 (fun k => r (.core k))
  | 2 => maskOf 16 (fun k => r (.array k))
  | 3 => maskOf 4 (fun k => r (.lane k))
  | 4 => maskOf 16 (fun k => r (.storeBank k))
  | 5 => maskOf 48 (fun k => r (.tier1Bank k))
  | 6 => c.dget (ent 0x4100 7)
  | 7 => maskOf 8 (fun k => r (.lineBank k))
  | 8 => maskOf 6 (fun k => r (.camera k))
  | 9 => maskOf 16 (fun k => r (.inertial k))
  | 10 => maskOf 4 (fun k => r (.spiMaster k))
  | 11 => maskOf 4 (fun k => r (.encoder k))
  | 12 => b2n (r (.canPort 0)) + 2 * b2n (r (.canPort 1)) + 4 * b2n (r .usb) + 8 * b2n (r .pcie) + 16 * b2n (r .breeze)
  | 13 => maskOf 6 (fun k => r (.string k))
  | 14 => maskOf 24 (fun k => r (.stringLane (k / 4) (k % 4)))
  | 15 => maskOf 8 (fun k => r (.sensor k))
  | _ => 0

/-- Bits 31 to 1 of the error register (Table 4.12). -/
def Chip.errorBits (c : Chip) : Nat :=
  let bus := fun (n : Nat) => c.dget (canKey 0 13) == n || c.dget (canKey 1 13) == n
  2 ^ 31 * b2n (c.engine == .faulted) + 2 ^ 14 * b2n (c.dget (ent 0x5820 4) != 0) + 2 ^ 13 * b2n (c.bzState == 1 || c.bzState == 3) +
  2 ^ 12 * b2n (bus 3) + 2 ^ 11 * b2n (bus 2) + 2 ^ 10 * b2n c.stringDown +
  2 ^ 9 * b2n (c.straps.mode == .mesh && !c.board.rclkIn) + 2 ^ 8 * b2n c.currentOverride +
  2 ^ 7 * b2n c.thermalOverride + 2 ^ 6 * b2n c.flash.fallback + 2 ^ 5 * b2n (!c.models) +
  2 ^ 4 * b2n c.flash.calAbandoned + 2 ^ 3 * b2n c.flash.calDefault + 2 ^ 2 * b2n c.epoch.stoppedCond +
  2 * b2n (!c.faults.retired.isEmpty)

/-- 0x1002:1. -/
def Chip.errorRegister (c : Chip) : Nat := c.errorBits + b2n (c.errorBits != 0)

/-! ### Values computed by block -/

/-- BANK_STATE, STATE, DELAY and SETTLE of an inertial channel (Table 8.9); the last two read their default 0 while the
channel is off (log 53, DEDUCED). -/
def Chip.inView (c : Chip) (ch sub : Nat) : Option Nat :=
  let x := c.grp (ch / 4)
  match sub with
  | 32 => some (x.active + 2 * b2n x.swap.isSome + 4 * b2n x.loading.isSome)
  | 34 => some (if c.isRetired (.inertial ch) then 3 else if !c.dbool (inKey ch 1) then 0
      else if (c.chan ch).since < c.settle ch + 1 then 1 else 2)
  | 35 => some (if c.dbool (inKey ch 1) then c.delay64 ch else 0)
  | 36 => some (if c.dbool (inKey ch 1) then c.settle ch else 0)
  | _ => none

/-- The cue slot entries (Table 2.12). -/
def Chip.cueView (c : Chip) (s sub : Nat) : Option Nat :=
  let q := c.cue s
  match sub with
  | 1 => some (b2n q.armed) | 2 => some q.action | 3 => some q.target | 4 => some q.period | 5 => some q.remaining
  | 6 => some q.arg | 7 => some q.armedBy | 8 => some q.lastFired | 9 => some q.flags
  | _ => none

/-- RUNNING_VOICE of a request (Table 10.11). -/
def requestVoice (r : SolveReq) : Nat := r.voice + 128 * b2n r.est.isSome

/-- The lane entries (Table 10.11). -/
def Chip.laneView (c : Chip) (l sub : Nat) : Option Nat :=
  let x := c.lane l
  match sub with
  | 1 => some (if c.isRetired (.lane l) then 2 else b2n x.running.isSome)
  | 2 => some ((x.running.map (·.tab)).getD 0)
  | 3 => some ((x.running.map requestVoice).getD 0xFF)
  | 4 => some ((x.running.map (·.due)).getD 0)
  | 5 => some ((x.waiting.map (·.tab)).getD 0)
  | 6 => some (c.laneSlots l)
  | _ => none

/-- The array entries (Table 11.11). -/
def Chip.arrayView (c : Chip) (a sub : Nat) : Option Nat :=
  match sub with
  | 1 => some (if c.isRetired (.array a) then 2 else b2n (c.busyQuads a != 0))
  | 2 => some (c.busyQuads a)
  | 3 => some (((c.blocked 0 a []).map (·.2)).foldl (· + ·) 0)
  | 4 => some (c.homeList.countP (fun h => h.1 == a))
  | _ => none

/-- The tier and ledger entries (Tables 12.10, 12.11). -/
def Chip.tierView (c : Chip) (v sub : Nat) : Option Nat :=
  match sub with
  | 1 => some (c.capacity 0) | 2 => some (c.capacity 1) | 3 => some (c.capacity 2)
  | 4 => some (maskOf 48 (fun b => !c.isRetired (.tier1Bank b)))
  | 5 => some c.lp5x
  | 9 => some (c.tensorCount v)
  | _ => none

/-- Quota units in use, rounded to nearest, ties to even (R31, R614, log entry 43). -/
def Chip.usedUnits (c : Chip) (w tier : Nat) : Nat := divRne (c.usage w tier) (quotaUnit tier)

/-- The entries of a voice's range (Table 6.20). -/
def Chip.voiceView (c : Chip) (w k sub : Nat) : Option Nat :=
  let x := c.voice w
  match k, sub with
  | 0, 1 => some (c.keep w).binding
  | 0, 2 => some (match x.state with | .idle => 0 | .active => 1 | .draining => 2 | .stopped => 3)
  | 0, 3 => some x.stopCause
  | 1, s => if w = 0 then some (c.quota 0 (s - 1)) else none
  | 2, 4 => some (c.ledgerUsed w)
  | 2, 5 => some (c.cuesUsed w)
  | 2, s => if s ≤ 3 then some (c.usedUnits w (s - 1)) else if w = 0 then some (c.limit 0 (s - 6)) else none
  | _, _ => none

/-- Table 5.10: the fixed maps of broadcast channels 0 and 1. -/
def fixedMap (ch : Nat) : List Nat :=
  if ch = 0 then [0x30400108, 0x30400201, 0x30400301, 0x30400404, 0x30400504, 0x30400604, 0x30400704, 0x30400804,
                  0x30400904, 0x30400A04, 0x30400B04, 0x30400C04]
  else [0x10010101, 0x10020104, 0x28010301, 0x10180201]

/-- R232: IDENTIFIER of broadcast channels 0 and 1. -/
def Chip.fixedIdentifier (c : Chip) (ch : Nat) : Nat :=
  let t := c.dget (ent (0x7000 + ch) 2)
  if t = 2 then 0 else (c.canId t (if ch = 0 then 0x1A0 else 0x2A0)).2

/-- The calibration control entries (Table 17.11). -/
def Chip.calView (c : Chip) (sub : Nat) : Option Nat :=
  let f := c.flash
  match sub with
  | 3 => some (f.slotState 0) | 4 => some (f.slotState 1)
  | 5 => some ((f.erases 0).getD 0) | 6 => some ((f.erases 1).getD 0)
  | 10 => some ((f.imageA.map (·.version)).getD 0) | 11 => some ((f.imageB.map (·.version)).getD 0)
  | 16 => some f.devices
  | _ => none

/-- The estimator's computed entries for instance i (Tables 9.10 to 9.15). -/
def Chip.estView (c : Chip) (i idx sub : Nat) : Option Nat :=
  let e := c.est i
  match idx, sub with
  | 0x3000, 4 => some e.st.code
  | 0x3000, 6 => some (if (c.est i).st = .stopped then 0 else maskOf 6 (fun k => (c.estActive i).contains k))
  | 0x3000, 19 => some (c.estFlags i)
  | 0x3020, 9 => some e.keys.length
  | 0x3020, 10 => some e.points.length
  | 0x3020, 11 => some e.mapBytes
  | 0x3020, 12 => some e.nextKey
  | 0x3020, 13 => some e.nextPoint
  | _, _ => none

/-- Entries of other single blocks. -/
def Chip.blockView (c : Chip) (v idx sub : Nat) : Option Nat :=
  match idx, sub with
  | 0x1001, 1 => some c.engine.code
  | 0x1002, 1 => some c.errorRegister
  | 0x100A, 1 => some ((c.runningImage.map (·.version)).getD 0)
  | 0x1010, 1 => some (Config.serial % 2 ^ 128)
  | 0x1012, 1 => some (if c.faults.signing then 1 else if c.faults.signature.isEmpty then 0 else 2)
  | 0x1020, 1 => c.flash.binding
  | 0x1020, 3 => some (b2n c.flash.binding.isSome)
  | 0x1820, 15 => some c.breeze.queue.length
  | 0x1830, 1 => some (c.keep v).journalSeq
  | 0x1F00, 4 => some (fretboardCrc c.grade)
  | 0x2801, 1 => some c.posNat
  | 0x2801, 2 => some c.epoch.estimate
  | 0x2801, 3 => some c.epoch.st.code
  | 0x2801, 4 => some (c.epoch.active.getD 0xFF)
  | 0x2801, 5 => some (c.epoch.pendingSource.getD 0xFF)
  | 0x3800, 2 => some ((c.tablatures.map (fun (p : Nat × Tablature) => p.2.slots)).foldl (· + ·) 0)
  | 0x3800, 3 => some (c.share 0)
  | 0x3800, 19 => some (c.share v)
  | 0x3800, 20 => some (c.slotsUsed v)
  | 0x3800, 22 => some c.tablatures.length
  | 0x4200, 3 => some c.ledger.length
  | 0x4810, 3 => some c.addressActive
  | 0x4810, 5 => some c.rt
  | 0x4810, 8 => some c.meshFaults
  | 0x4820, 4 => some (tabGet 0 c.mesh.detours (c.dget (routeKey 3)))
  | 0x4830, 3 => some c.mesh.lulls.length
  | 0x5000, 1 => some c.levelNow
  | 0x5010, 10 => some (maskOf 8 (fun k => !c.isRetired (.sensor k)))
  | 0x5800, 1 => some c.summary
  | 0x5800, 2 => some c.faults.cause
  | 0x5800, 4 => some c.meshFaults
  | 0x5820, 1 => some c.faults.latest
  | 0x5820, 6 => some c.faults.persist.length
  | _, _ => none

/-- The dictionary key of an entry as voice v reaches it with estimator instance i selected (R437, Tables 8.9, 12.10,
16.11). -/
def keyOf (v i idx sub : Nat) : Nat :=
  if (idx = 0x3000 ∧ sub = 1) ∨ (idx = 0x4100 ∧ sub = 8) ∨ (idx = 0x5820 ∧ sub = 2) then entVoice v idx sub
  else if 0x3000 ≤ idx ∧ idx ≤ 0x3048 then entEst i idx sub
  else if 0x2100 ≤ idx ∧ idx ≤ 0x210F ∧ 13 ≤ sub ∧ sub ≤ 32 then grpKey ((idx - 0x2100) / 4) sub
  else ent idx sub

/-- A fixed-size value as voice v reads it, with instance i selected. -/
def Chip.viewNat (c : Chip) (v i idx sub : Nat) : Nat :=
  let own :=
    if 0x1F01 ≤ idx ∧ idx ≤ 0x1F17 then some (fretboardField c.grade (idx - 0x1F01) sub)
    else if 0x1800 ≤ idx ∧ idx ≤ 0x1801 ∧ sub = 3 then some (c.node (idx - 0x1800))
    else if 0x2000 ≤ idx ∧ idx ≤ 0x2005 ∧ sub = 13 then some (c.rectReach (idx - 0x2000))
    else if 0x2100 ≤ idx ∧ idx ≤ 0x210F then c.inView (idx - 0x2100) sub
    else if 0x2180 ≤ idx ∧ idx ≤ 0x2183 ∧ sub = 14 then
      some (if c.isRetired (.encoder (idx - 0x2180)) then 3 else c.dget (encKey (idx - 0x2180) 1))
    else if 0x2C00 ≤ idx ∧ idx ≤ 0x2FFF then c.cueView (idx - 0x2C00) sub
    else if 0x3000 ≤ idx ∧ idx ≤ 0x3048 then c.estView i idx sub
    else if 0x3810 ≤ idx ∧ idx ≤ 0x3813 then c.laneView (idx - 0x3810) sub
    else if 0x4000 ≤ idx ∧ idx ≤ 0x400F then c.arrayView (idx - 0x4000) sub
    else if idx = 0x4100 then c.tierView v sub
    else if idx = 0x5810 then some (c.retirementMap sub)
    else if idx = 0x6000 then c.calView sub
    else if (idx = 0x7000 ∨ idx = 0x7001) ∧ sub = 3 then some (c.fixedIdentifier (idx - 0x7000))
    else if idx = 0x7020 ∨ idx = 0x7021 then
      let m := fixedMap (idx - 0x7020)
      some (if sub = 1 then m.length else m.getD (sub - 2) 0)
    else if 0x8000 ≤ idx ∧ idx ≤ 0x83FF then c.voiceView ((idx - 0x8000) / 0x40) (idx % 0x40) sub
    else c.blockView v idx sub
  match own with
  | some n => n
  | none => c.dget (keyOf v i idx sub)

/-- Table 6.14: the serial number string of the USB device, 32 uppercase hexadecimal digits of the identity serial. -/
def serialString : List Byte :=
  (List.range 32).map (fun i =>
    let d := Config.serial / 16 ^ (31 - i) % 16
    BitVec.ofNat 8 (if d < 10 then 0x30 + d else 0x37 + d))

/-- ASCII of a string. -/
def asciiBytes (s : String) : List Byte := s.toList.map (fun ch => BitVec.ofNat 8 ch.toNat)

/-- A STR or BLOB value as voice v reads it. -/
def Chip.viewBlob (c : Chip) (v i idx sub : Nat) : List Byte :=
  match idx, sub with
  | 0x1008, _ => asciiBytes "Keacen SLE-480"
  | 0x1010, 2 => padTo 64 Config.publicKey
  | 0x1010, _ => Config.certificate.take 1024
  | 0x1012, 2 => padTo 64 c.faults.signature
  | 0x1012, _ => padTo 32 c.faults.nonce
  | 0x1830, s => leBytes 32 ((c.keep v).journal.getD (s - 2) 0)
  | 0x3040, _ => ((c.est i).pubs.head?.map (fun p => (padTo 84 (p.cov.flatMap (leBytes 4))))).getD (List.replicate 84 0)
  | 0x4100, _ =>
    let t := c.dget (entVoice v 0x4100 8)
    (match c.tensor? t with
      | some x => c.descriptor t x
      | none => List.replicate 64 0)
  | 0x5820, 3 =>
    let s := c.dget (entVoice v 0x5820 2)
    (match c.eventAt s with
      | some e => e.bytes s
      | none => List.replicate 32 0)
  | 0x5820, _ =>
    (match c.faults.persist[c.dget (ent 0x5820 7)]? with
      | some p => p.2.bytes p.1
      | none => List.replicate 32 0)
  | _, _ => leBytes 16 (c.dget (ent idx sub))

end Sys2Proof.Machine
end

