-- ==== Sys2Proof/Machine/Faults.lean ====
section
/-! DEFINITION. Retirement with its consequences in the unit's own block, FAULTED, and the identity service (R165 to R167,
R434, R579 to R588, R773 to R797, R880, R881). -/

namespace Sys2Proof.Machine

/-! ### What stops with the boot flash's work (R167, R823, R832) -/

/-- A store stops before its commit word; how far it had come is open (free values, log entry 7). -/
def Chip.haltStore (c : Chip) : Chip :=
  match c.flash.storing with
  | none => c
  | some x =>
    let (c1, v) := c.fresh .storeStop
    let (c2, w) := c1.fresh .storeStop
    { c2 with flash := c2.flash.stoppedStore x v w }

/-- The store in progress ends as ABANDONED (R167). -/
def Chip.abandonStore (c : Chip) : Chip :=
  if c.flash.storing.isNone then c
  else
    let c1 := c.haltStore
    ({ c1 with flash := { c1.flash with calAbandoned := true } }.dset (ent 0x1100 2) 3).log 0x0601 0x00A0 0xFFFF 0 0

/-- The install in progress ends as ABANDONED; its location holds no image (R823). -/
def Chip.abandonInstall (c : Chip) : Chip :=
  if c.flash.installing.isNone then c
  else ({ c with flash := { c.flash with installing := none } }).dset (ent 0x6000 13) 3

/-! ### FAULTED (R779 to R783, R880) -/

/-- R780, step 3: all running and pending work ends without results or completions. -/
def Chip.endAllWork (c : Chip) : Chip :=
  let c1 := ((c.dropRequests (fun _ => false)).dropRuns (fun _ => false)).abandonStore.abandonInstall
  { c1 with
    moves := []
    armQueue := []
    cams := c1.cams.map (fun (p : Nat × Camera) =>
      (p.1, { p.2 with current := none, asked := none, run := none, waiting := none }))
    ests := c1.ests.map (fun (p : Nat × Estimator) => (p.1, { p.2 with cur := none, first := none, results := [], closure := none }))
    voices := c1.voices.map (fun (p : Nat × Voice) =>
      (p.1, { p.2 with admitted := none, fence := none, cpl := [], waiting := [] }))
    keeps := c1.keeps.map (fun (p : Nat × VoiceKeep) => (p.1, { p.2 with deferred := [] }))
    usb := { c1.usb with pendingWrite := none }
    mesh := { c1.mesh with waits := [], dma := [] } }

/-- R780: the entry to FAULTED. -/
def Chip.enterFaulted (c : Chip) (cause : Nat) : Chip :=
  if c.engine = .faulted then c
  else
    let c1 := c.endAllWork
    let f := c1.faults
    let c2 := { c1 with
      engine := .faulted
      request := none
      faults := { f with cause := cause % 16, faultN := true, signing := false,
                         signature := if f.signing then [] else f.signature } }
    ((c2.releasePins).dset (ent 0x5800 3) c.posNat).log 0x0201 0 0xFFFF cause 0

/-! ### Consequences by block -/

/-- Table 2.7: the epoch's source channel has retired. -/
def Chip.sourceRetired (c : Chip) (src : Nat) : Chip := if c.epoch.active = some src then c.stopEpoch else c

/-- R252: a voice's binding ends. -/
def Chip.unbind (c : Chip) (v : Nat) : Chip := c.setKeep v { c.keep v with binding := 0xFF }

/-- A camera channel has retired: its frame and runs end without a list. -/
def Chip.camRetired (c : Chip) (ch : Nat) : Chip :=
  ((c.setCam ch { c.cam ch with current := none, asked := none, run := none, waiting := none }).sourceRetired ch).estCameraRetired ch

/-- R230, R248: a CAN port has retired. -/
def Chip.canRetired (c : Chip) (p : Nat) : Chip :=
  let c1 := c.attemptStops p
  (c1.setPort p (c1.port p).forget).unbind (13 + p)

/-- The USB port has retired: V15 loses its transport. -/
def Chip.usbRetired (c : Chip) : Chip :=
  ((({ c with usb := { c.usb with attached := false, configured := false, pendingWrite := none } }).dset (ent 0x1810 2) 0).dset (ent 0x1810 3) 0).unbind 15

/-- The PCI Express endpoint has retired: V0 and the VFs lose their transport. -/
def Chip.pcieRetired (c : Chip) : Chip :=
  c.each (List.range 13) (fun c v => if c.onPcie v then c.unbind v else c)

/-- A string lane has retired by an error: its string trains again without it. -/
def Chip.laneGone (c : Chip) (p l : Nat) : Chip :=
  if (c.healthy p).isEmpty then c.setStrState p 9
  else if c.strState p = 6 ∧ (c.str p).active.contains l then c.enterLocking p else c

/-- What a unit's retirement does in its own block. -/
def Chip.blockRetired (c : Chip) (u : UnitName) (check address : Nat) : Chip :=
  match u with
  | .core _ => if (List.range 4).all (fun k => c.isRetired (.core k)) then c.enterFaulted 3 else c
  | .array a => ((c.arrayRetired a).1.tier0Retired a).estArraysGone
  | .lane l => (c.laneRetired l).2.foldl Chip.estUnsolved (c.laneRetired l).1
  | .storeBank b => c.storeBankRetired b
  | .tier1Bank b => c.tier1Retired b
  | .tier2Frame f => c.tier2Retired f check (if check = 2 then some address else none)
  | .lineBank _ => c
  | .camera ch => c.camRetired ch
  | .inertial ch => c.estInertialRetired ch
  | .groupBank _ => c
  | .spiMaster _ => c
  | .encoder e => c.sourceRetired (0x10 + e)
  | .canPort p => c.canRetired p
  | .usb => c.usbRetired
  | .pcie => c.pcieRetired
  | .stringLane p l => c.laneGone p l
  | .string p => c.setStrState p 9
  | .meshRouter => c
  | .breeze => c.bzRetired
  | .sensor _ => if (List.range 8).all (fun k => c.isRetired (.sensor k)) then c.enterFaulted 4 else c
  | .essential cause => c.enterFaulted cause

/-- Table 16.2, R434: the units that retire with a unit: the channel that a line buffer bank serves, the channels of a
group, the strings of the router. -/
def Chip.alsoRetires (c : Chip) (u : UnitName) : List UnitName :=
  match u with
  | .lineBank k =>
    if k < 6 then [.camera k]
    else ((List.range 6).filter (fun ch => c.dget (camKey ch 35) == k)).map UnitName.camera
  | .groupBank g => (List.range 4).map (fun k => UnitName.inertial (4 * g + k))
  | .meshRouter => (List.range 6).map UnitName.string
  | _ => []

/-- R785: DETAIL2 of a retirement event: the address of the failing word for an ECC check of an addressed unit. -/
def detailAddress (check address : Nat) : Nat := if check = 1 ∨ check = 2 then address else 0

/-- One unit retires (R776); an essential block has no unit of its own and only raises its cause. -/
def Chip.retireOne (c : Chip) (u : UnitName) (check address : Nat) : Chip :=
  match u with
  | .essential cause => c.enterFaulted cause
  | _ => if c.isRetired u then c else (c.noteRetired u check (detailAddress check address)).blockRetired u check address

/-- R882: a tier 2 frame beyond the addresses of the installed capacity. -/
def Chip.noFrame (c : Chip) (u : UnitName) : Bool :=
  match u with
  | .tier2Frame k => decide (c.lp5x * 31 / 32 ≤ k)
  | _ => false

/-- R773, R777: an error has been detected in a unit. In RESET no check runs. -/
def Chip.retireUnit (c : Chip) (u : UnitName) (check address : Nat) : Chip :=
  if c.engine = .reset ∨ c.isRetired u ∨ c.noFrame u then c
  else (c.each (u :: c.alsoRetires u) (fun c u => c.retireOne u check address)).callWake

/-! ### The event pins and log (R784, R787, R791) -/

/-- R784: a write of 1 to ATTN_ACK; an event of this update with its class in ATTN_MASK asserts the pin again. -/
def Chip.attnAcked (c : Chip) : Chip :=
  let again := c.faults.ring.any (fun e => e.tick == c.now && bit (c.dget (ent 0x5800 6)) (e.code / 256))
  { c with faults := { c.faults with attnN := again } }

/-- R787: OVERFLOWS returns to zero. -/
def Chip.overflowCleared (c : Chip) : Chip := c.dset (ent 0x5820 4) 0

/-- R791: the persistent log is erased. -/
def Chip.persistCleared (c : Chip) : Chip := { c with faults := { c.faults with persist := [] } }

/-! ### Identity (R792 to R797) -/

/-- R794: the 73 bytes that are signed. -/
def Chip.challenge (c : Chip) : List Byte :=
  asciiBytes "KEACEN-ID" ++ leBytes 16 Config.serial ++ leBytes 16 (c.flash.binding.getD 0) ++ padTo 32 c.faults.nonce

/-- R794, R796: a nonce starts a signature, and stops the one before. -/
def Chip.takeNonce (c : Chip) (data : List Byte) : Chip :=
  { c with faults := { c.faults with signing := true, nonce := data, signature := [] } }

/-- SIGNATURE_COMPLETE (R795). -/
def Chip.signed (c : Chip) : Chip :=
  if c.faults.signing then
    { c with faults := { c.faults with signing := false, signature := padTo 64 (Config.signature c.challenge) } }
  else c

/-- R797: the binding is programmed. -/
def Chip.lockBinding (c : Chip) : Chip := { c with flash := { c.flash with binding := some (c.dget (ent 0x1020 1)) } }

end Sys2Proof.Machine
end

