-- ==== Sys2Proof/Machine/Power.lean ====
section
/-! DEFINITION. The engine's own states after SELFTEST, and the entries to and exits from P6 and HOLD (R172 to R174, R383,
R696, R761 to R768, R879). -/

namespace Sys2Proof.Machine

/-! ### Engine states (Table 4.10) -/

/-- R35, R173, R384, R393: a consistency check of a request to READY fails. -/
def Chip.notReady (c : Chip) : Bool :=
  c.filterOverload || c.wordBeyond || (c.straps.mode == .mesh && !c.board.rclkIn)

/-- READY is entered from CONFIG (R415, R441, R750). -/
def Chip.enterReady (c : Chip) : Chip := ((({ c with engine := .ready, request := none }).estReady).startDemand).resetGroups

/-- CONFIG is entered from READY. -/
def Chip.enterConfig (c : Chip) : Chip := { c with engine := .config, request := none }

/-- RUN is entered from READY, or READY from RUN. -/
def Chip.takeRequest (c : Chip) (target : EngineState) : Chip :=
  match target with
  | .run => ({ c with engine := .run, request := none }).estEnterRun
  | _ => ({ c with engine := .ready, request := none }).estLeaveRun

/-- R174: a request that waits for a frame start, or takes effect at once while the epoch is STOPPED. -/
def Chip.askState (c : Chip) (target : EngineState) : Chip :=
  if c.epoch.st = .stopped then c.takeRequest target else { c with request := some target }

/-- R174: the pending request takes effect. -/
def Chip.applyRequest (c : Chip) : Chip :=
  match c.request with
  | some target => c.takeRequest target
  | none => c

/-- R763, R765: HOLD is entered, with HOLD_CAUSE. -/
def Chip.goHold (c : Chip) (cause : Nat) : Chip :=
  (({ c with engine := .hold, request := none }).dset (govKey 10) cause).estLeaveRun

/-! ### HOLD and trips -/

/-- R327: the frames in progress at the entry to P6 or P7 end under R323. -/
def Chip.endFrames (c : Chip) : Chip :=
  c.each (List.range 6) (fun (c : Chip) ch => if (c.cam ch).current.isSome then c.endFrame ch else c)

/-- HOLD_ENTRY_COMPLETE (R327, R763): P7, in which the epoch is STOPPED (Table 2.7). -/
def Chip.holdComplete (c : Chip) : Chip :=
  if c.gov.p7 then c else if c.holdEntered.gov.p7 then (c.endFrames.holdEntered).stopEpoch else c

/-- HOLD_EXIT_COMPLETE (R383, R696, R767). -/
def Chip.holdExited (c : Chip) : Chip :=
  if c.engine = .hold ∧ c.holdExitDue then
    (((({ c.clockFromHold with engine := .ready }).boundsChanged c).startDemand).resetGroups).bzWake
  else c

/-- A sample that carries Tj alone (R752). -/
def Chip.noteTj (c : Chip) (tj : Int) : Chip :=
  let c1 := c.dset (thermalKey 1) (tempBits tj)
  (if c1.temp (thermalKey 19) < tj then c1.dset (thermalKey 19) (tempBits tj) else c1).noteCool

/-- THERMAL_TRIP (R764, R765): a sample, which trips the engine if it and the sample before it are at least 115 °C
(920 eighths). A trip already in force is not counted again. -/
def Chip.trip (c : Chip) (tj : Int) : Chip :=
  let c1 := c.noteTj tj
  if tj < 920 ∨ c.temp (thermalKey 1) < 920 then c1
  else
    match c.engine with
    | .config | .ready | .run => (c1.noteTrip).goHold 2
    | .boot | .selftest => if c.gov.bootHot then c1 else { c1.noteTrip with gov := { c1.noteTrip.gov with bootHot := true } }
    | .hold => if c.dget (govKey 10) = 2 then c1 else (c1.noteTrip).dset (govKey 10) 2
    | .reset | .faulted => c1

/-! ### P6 (R761, R762) -/

/-- A ledger entry that an armed cue holds. -/
def LedgerEntry.ofCue (e : LedgerEntry) : Bool :=
  match e.source with
  | .cues | .reserve => true
  | .estimator _ => decide (e.tag < 0x8000)
  | .ring => false

/-- A core-clocked block has work under way. -/
def Chip.working (c : Chip) : Bool :=
  !c.moves.isEmpty || c.lanes.any (fun (p : Nat × Lane) => p.2.running.isSome) ||
  c.passages.any (fun (p : Nat × Passage) => p.2.running.isSome) ||
  c.cams.any (fun (p : Nat × Camera) => p.2.asked.isSome || p.2.run.isSome || p.2.waiting.isSome) ||
  c.voices.any (fun (p : Nat × Voice) => p.2.admitted.isSome || !p.2.cpl.isEmpty) ||
  c.ests.any (fun (p : Nat × Estimator) => p.2.cur.isSome)

/-- IDLE_GATE_ENTRY (R327, R761): IDLE_DELAY is in µs of 250 updates. -/
def Chip.idleGate (c : Chip) : Chip :=
  if c.engine = .ready ∧ c.dbool (govKey 8) ∧ !c.gov.p6 ∧ c.ledger.all LedgerEntry.ofCue ∧ !c.working ∧
      c.gov.workAt + 250 * c.dget (govKey 9) ≤ c.now then
    { c.endFrames.dinc (govKey 11) with gov := { c.gov with p6 := true, wake := false } }
  else c

/-- IDLE_GATE_EXIT (R383, R762, R879). -/
def Chip.idleGateExit (c : Chip) : Chip :=
  if c.gov.p6 ∧ c.gov.wake then
    let c1 := c.dinc (govKey 11)
    (({ c1 with gov := { c1.gov with p6 := false, wake := false, workAt := c1.now } }).resetGroups).encLate
  else c

/-- Work in a core-clocked block between two states restarts IDLE_DELAY (R761); new work in P6 calls for its exit. -/
def Chip.noteWork (c old : Chip) : Chip :=
  let changed := decide (c.cams ≠ old.cams) || decide (c.inertial ≠ old.inertial) || decide (c.lanes ≠ old.lanes) ||
    decide (c.passages ≠ old.passages) || decide (c.moves ≠ old.moves) || decide (c.tensors ≠ old.tensors) ||
    decide (c.ests ≠ old.ests)
  if changed || c.working then
    let c1 : Chip := { c with gov := { c.gov with workAt := c.now } }
    if old.gov.p6 then c1.callWake else c1
  else c

/-! ### Faults of the rail link (R770) -/

/-- RAIL_LINK_FAILURE. -/
def Chip.railTrouble (c : Chip) (outputFault : Bool) : Chip :=
  if (c.railFailed outputFault).2 then (c.railFailed outputFault).1.enterFaulted 5 else (c.railFailed outputFault).1

/-- VR_ALERT_N: the rail link has read STATUS_WORD. -/
def Chip.vrAlert (c : Chip) (w : Nat) : Chip :=
  let c1 := { c with gov := { c.gov with rail := some .statusWord } }
  if statusShowsOutputFault w then c1.enterFaulted 5 else c1

/-- THERMAL_TICK (R752, R754, R755): sensors that read outside −55 to +150 °C retire first. -/
def Chip.thermalSample (c : Chip) (ts : List Int) : Chip :=
  let bad := (List.range 8).filter (fun k => !c.isRetired (.sensor k) && (ts.getD k 0 < -440 || 1200 < ts.getD k 0))
  (bad.foldl (fun (c : Chip) k => c.retireUnit (.sensor k) 8 0) c).thermalTick ts

end Sys2Proof.Machine
end

