-- ==== Sys2Proof/Machine/CueFire.lean ====
section
/-! DEFINITION. What a fired cue does, TRIG_OUT pulses, and the messages of broadcast channels (R74 to R84, R184 to R186,
R199, R232, R233). -/

namespace Sys2Proof.Machine

/-! ### Broadcast channels -/

/-- The keys of broadcast channel k: its row s and its map row s (Table 4.16). -/
def bcKey (k s : Nat) : Nat := ent (0x7000 + k) s
def mapKey (k s : Nat) : Nat := ent (0x7020 + k) s

/-- COUNT and MAP_j of channel k; those of channels 0 and 1 are fixed (R232). -/
def Chip.mapCount (c : Chip) (k : Nat) : Nat := if k < 2 then (fixedMap k).length else c.dget (mapKey k 1)
def Chip.mapEntry (c : Chip) (k j : Nat) : Nat := if k < 2 then (fixedMap k).getD j 0 else c.dget (mapKey k (j + 2))

/-- R140, R185: the values of the mapped entries in map order, as V0 reads them with the channel's INSTANCE selected. -/
def Chip.broadcastBytes (c : Chip) (k : Nat) : List Byte :=
  (List.range (c.mapCount k)).flatMap (fun j =>
    let m := c.mapEntry k j
    let sub := m / 256 % 256
    leBytes (m % 256) (if sub = 0 then highestSub (m / 0x10000) else c.viewNat 0 (c.dget (bcKey k 5)) (m / 0x10000) sub))

/-- The mailbox of channel k on port p (Table 5.6, R199). -/
def Chip.channelMailbox (c : Chip) (p k : Nat) : Option Nat :=
  if k < 2 then some (k + 1) else (rangeFrom 5 27).find? (fun m => ((c.port p).mb m).channel == some k)

/-- The identifier of channel k on port p, and whether it is extended: the port's format, or one too large for 11 bits. -/
def Chip.channelId (c : Chip) (p k : Nat) : Bool × Nat :=
  if k < 2 then c.canId p (if k = 0 then 0x1A0 else 0x2A0)
  else
    let n := c.dget (bcKey k 3) % 2 ^ 29
    (c.dbool (canKey p 4) || decide (0x7FF < n), n)

/-- The message leaves: queued in its mailbox, or on USB endpoint 2 IN. -/
def Chip.sendBroadcast (c : Chip) (k : Nat) : Chip :=
  let data := c.broadcastBytes k
  let t := c.dget (bcKey k 2)
  if t = 2 then
    let msg := BitVec.ofNat 8 (0x10 + k) :: data
    if c.usb.configured && !c.isRetired .usb then
      ({ c with usb := { c.usb with ep2 := c.usb.ep2 ++ [msg] } }).dinc (bcKey k 8)
    else
      let c1 := if (tabGet? c.unsent k).isSome then c.dinc (bcKey k 9) else c
      { c1 with unsent := tabSet c1.unsent k msg }
  else if !c.canAlive t then c
  else match c.channelMailbox t k with
    | none => c
    | some m =>
      let i := c.channelId t k
      let long := decide (8 < data.length)
      let f : CanFrame :=
        { ide := i.1, ident := i.2, fdf := long, brs := long && c.dbool (canKey t 6), esi := false, rtr := false,
          data := if long then padTo (fdLength data.length) data else data }
      let r := (c.port t).queue m f
      let c1 := c.setPort t r.1
      if r.2 then c1.dinc (bcKey k 9) else c1

/-- The messages that waited for USB endpoint 2 leave once the device is configured. -/
def Chip.sendUnsent (c : Chip) : Chip :=
  (c.unsent.foldl (fun (c : Chip) (p : Nat × List Byte) =>
    ({ c with usb := { c.usb with ep2 := c.usb.ep2 ++ [p.2] } }).dinc (bcKey p.1 8)) { c with unsent := [] })

/-- R184: the channels triggered by a pose of instance i fire; `kind` is 1 for an optimised pose and 2 for a fast one. -/
def Chip.poseBroadcasts (c : Chip) (i kind : Nat) : Chip :=
  c.each ((List.range 32).filter (fun k => c.dbool (bcKey k 1) && c.dget (bcKey k 4) == kind && c.dget (bcKey k 5) == i))
    Chip.sendBroadcast

/-- The poses that instances have published between two states. -/
def Chip.announcePoses (c old : Chip) : Chip :=
  c.each (List.range 8) (fun (c : Chip) i =>
    let c1 := if (old.est i).poses < (c.est i).poses then c.poseBroadcasts i 1 else c
    if (old.est i).fasts < (c.est i).fasts then c1.poseBroadcasts i 2 else c1)

/-! ### TRIG_OUT (R84, R330, R331) -/

/-- R84: the pin that takes a pulse in update `now` with the position at `pos`. An asserted pin stays asserted as one pulse
of the first polarity, which ends at the later of the two positions. -/
def TrigPin.drive (p : TrigPin) (now pos : Nat) (high : Bool) (endPos : Nat) : TrigPin :=
  if p.asserted then
    let last := if laterPos endPos p.endPos then endPos else p.endPos
    { p with endPos := last, atOnce := reached pos last }
  else { p with asserted := true, activeHigh := high, endPos, atOnce := reached pos endPos, at_ := now }

/-- One pin takes a pulse that ends at a position. -/
def Chip.drivePin (c : Chip) (pin : Nat) (high : Bool) (endPos : Nat) : Chip :=
  (c.setPin pin ((c.pin pin).drive c.now c.posNat high endPos)).triggered pin

/-- A TRIG_PULSE fires for a target. -/
def Chip.trigPulse (c : Chip) (arg target : Nat) : Chip :=
  let endPos := addPos c.epoch.frameLines target (trigWidth arg)
  c.each ((List.range 6).filter (bit arg ·)) (fun (c : Chip) pin =>
    if c.guarded pin then c.suppressed pin else c.drivePin pin (bit arg 8) endPos)

/-- R84: the pulse ends in this update: the position has reached target + width, or had when the pin was last driven. Every
pulse lasts an update. -/
def Chip.pulseOver (c : Chip) (pin : Nat) : Bool :=
  let p := c.pin pin
  p.asserted && decide (p.at_ < c.now) && (p.atOnce || (reached c.posNat p.endPos && c.epoch.st != .stopped))

/-- TRIG_PULSE_END. -/
def Chip.pulseEnd (c : Chip) (pin : Nat) : Chip := if c.pulseOver pin then c.setPin pin (c.pin pin).release else c

/-! ### Actions (Table 2.8) -/

/-- The action of slot `s`, whose cue was `q` before it fired. -/
def Chip.cueAction (c : Chip) (s : Nat) (q : Cue) : Chip :=
  match q.use with
  | .broadcast k => c.sendBroadcast k
  | _ =>
    match q.action with
    | 0x01 => c.trigPulse q.arg q.target
    | 0x02 => c.each ((List.range 6).filter (bit q.arg ·)) Chip.frontEndCue
    | 0x03 => c.inertialCapture (q.arg % 0x10000)
    | 0x04 => c.encoderCapture (q.arg % 16)
    | 0x05 => match c.abandon (q.arg % 4) s with
      | (c1, some r) => c1.estUnsolved r
      | (c1, none) => c1
    | 0x06 => c.posePublish (q.arg % 8) q.target
    | 0x07 => c.releaseMessages
    | 0x08 => c.post q.armedBy { kind := .cueSignal, cookie := q.arg % m32, info := s, data := (c.cue s).flags }
    | 0x09 => c.cuePassage q.armedBy (q.arg % 0x1000000)
    | 0x0A => c.cueTablature q.armedBy (q.arg % 0x1000000)
    | 0x0B => c.spiTrigger (q.arg % 16)
    | _ => c

/-- One slot fires, if it is due; none does in FAULTED (R780). -/
def Chip.fireDue (c : Chip) (s : Nat) : Chip :=
  if c.slotDue s && c.engine != .faulted then (c.fireSlot s).cueAction s (c.cue s) else c

/-- CUE_FIRE: one update's comparison. Every due cue fires, in ascending slot order (R74 to R79). -/
def Chip.fireCues (c : Chip) : Chip := c.each c.dueSlots Chip.fireDue

/-- R80, R81: what a cancel reports and does. `none` when the canceller is not the armer. A cue that is due in this update
fires first. -/
def Chip.cancelSlot (c : Chip) (v slot : Nat) : Option (Chip × Bool) :=
  let q := c.cue slot
  if !q.armed then some (c, true)
  else if q.armedBy ≠ v ∨ q.use.isSolve then none
  else
    let c1 := c.fireDue slot
    some (if (c1.cue slot).armed then c1.freeSlot slot else c1, (c1.cue slot).fired)

end Sys2Proof.Machine
end

