-- ==== Sys2Proof/Machine/EpochCommands.lean ====
section
/-! DEFINITION. The events of the epoch sources and the passing of time, with what the rest of the engine does at a frame
start (R42 to R69, R174, R235, R415, R449, R870). -/

namespace Sys2Proof.Machine

/-! ### Frame starts -/

/-- A switch point: a pending source or frame length has taken effect (R51, R52). -/
def Chip.switchedSince (c old : Chip) : Bool :=
  (old.epoch.pendingSource.isSome && c.epoch.pendingSource.isNone) ||
  (old.epoch.pendingLines.isSome && c.epoch.pendingLines.isNone)

/-- A frame start of source `src`, with the pending engine state (R174), the estimator's steps (R448, R449), the group
resets of a switch point (R415) and the CAN epoch markers (R235). -/
def Chip.startEpochFrame (c : Chip) (src : Nat) : Chip :=
  if !c.takesFrameStart src then c
  else
    let c1 := c.frameStartOf src
    let c2 := if c1.switchedSince c then (c1.estSwitchPoint).resetGroups else c1
    (((c2.applyRequest).estFrameStart).marker 0).marker 1

/-- FRAME_START: the frame starts of camera and encoder sources come as events of their own (Table 2.3). -/
def Chip.frameStartEvent (c : Chip) (src : Nat) : Chip :=
  if isCameraSource src || isEncoderSource src then c.startEpochFrame src else c

/-! ### Line edges -/

/-- One forward count of an encoder source: the raw count of the revolution and its highest value (R48). -/
def Chip.countForward (c : Chip) (m : Nat) : Chip :=
  let e := c.epoch
  let raw := e.encRaw + 1
  let top := if e.encMax < raw then raw else e.encMax
  let c1 := { c with epoch := { e with encRaw := raw, encMax := top } }
  let c2 := { c1 with epoch := { c1.epoch with rawLines := (raw - 1).toNat } }
  if e.st = .held ∧ e.why = .reverse then (if e.encMax < raw then c2.realLine m else c1) else c2.realLine m

/-- A real line edge while the epoch waits at the end of the frame (R49): it is measured, and restarts the count of R63. -/
def Chip.heldLine (c : Chip) (m : Nat) : Chip :=
  let c1 := if c.epoch.measurable then c.measure m else c
  { c1 with epoch := { c1.epoch with rawLines := c1.epoch.rawLines + 1, elapsed := 0, freewheelCount := 0, measurable := true } }

/-- The first line header after a camera's frame start: the line field stays (R44). Lines synthesised in the BLANKING of a
frame that has had no other header are counted from it: it is read as the last real line edge of R47 (DESIGN CHOICE, log 66). -/
def Chip.firstHeader (c : Chip) : Chip :=
  { c with epoch := { c.epoch with headerSeen := true, elapsed := 0, measurable := true } }

/-- An edge of an EPOCH_IN or SYNTHETIC source that starts a frame while it is active: in STOPPED, in HELD, or where
the line field would reach FRAME_LINES (R870). -/
def Chip.edgeStartsFrame (c : Chip) (src : Nat) : Bool :=
  c.epoch.pendingSource == some src ||
  (c.epoch.st == .stopped || c.epoch.st == .held || decide (c.epoch.frameLines ≤ c.epoch.pos.line + 1))

/-- The frame start of EPOCH_IN by a line edge, which is measured as a line edge when the source keeps running. -/
def Chip.edgeFrame (c : Chip) (src m : Nat) : Chip :=
  let e := c.epoch
  let keeps := e.pendingSource != some src && e.active == some src && (e.st == .running || e.st == .held) && e.measurable
  let c1 := (if keeps then c.measure m else c).startEpochFrame src
  { c1 with epoch := { c1.epoch with measurable := true } }

/-- A line edge that R46 does not ignore, of a source with line edges of its own (Table 2.3). -/
def Chip.takeLine (c : Chip) (src m : Nat) : Chip :=
  let e := c.epoch
  if src = 0x20 then (if c.edgeStartsFrame src then c.edgeFrame src m else c.realLine m)
  else if e.active ≠ some src then c
  else if isEncoderSource src then
    match e.st, e.why with
    | .stopped, _ => c
    | .held, .endOfFrame => ({ c with epoch := { e with encRaw := e.encRaw + 1 } }).heldLine m
    | _, _ => c.countForward m
  else if isCameraSource src then
    match e.st with
    | .stopped | .blanking => c
    | .held => c.heldLine m
    | _ => if e.headerSeen then c.realLine m else c.firstHeader
  else c

/-- R46: an edge that comes too soon after the one before it: of the active source, or of EPOCH_IN while it is pending
(R870). A camera's first header is no line edge (R44). -/
def Chip.glitchEdge (c : Chip) (src m : Nat) : Bool :=
  (c.epoch.active == some src || src == 0x20) && isGlitch src m c.epoch.estimate && (!isCameraSource src || c.epoch.headerSeen)

/-- R46, R48: an ignored edge is counted. An encoder's raw count takes an ignored forward count all the same, and leaves HELD
where that passes its highest value; the ignored edge adds no line (DESIGN CHOICE, log 66). -/
def Chip.ignoreEdge (c : Chip) (src : Nat) : Chip :=
  let c1 := c.dinc (ent 0x2801 7)
  let e := c1.epoch
  if !isEncoderSource src || e.st == .stopped then c1
  else
    let raw := e.encRaw + 1
    { c1 with epoch := { e with encRaw := raw, encMax := if e.encMax < raw then raw else e.encMax,
                                st := if e.st = .held ∧ e.why = .reverse ∧ e.encMax < raw then .running else e.st } }

/-- LINE_EDGE (R44, R46): `m` after the edge before it. -/
def Chip.lineEdge (c : Chip) (src m : Nat) : Chip :=
  if !c.takesFrameStart src || (src == 0x31) || (src == 0x30) then c
  else if c.glitchEdge src m then c.ignoreEdge src
  else c.takeLine src m

/-- REVERSE_COUNT (R48). -/
def Chip.reverseCount (c : Chip) (src : Nat) : Chip :=
  let e := c.epoch
  if !isEncoderSource src || e.active ≠ some src || e.st == .stopped then c
  else
    let moved := { e with encRaw := e.encRaw - 1 }
    match e.st with
    | .running | .freewheel => { c with epoch := { moved with st := .held, why := .reverse } }
    | _ => { c with epoch := moved }

/-- EPOCH_FRAME_END (R47): the next synthesised line falls due at the next whole interval after the last real edge. -/
def Chip.frameEnd (c : Chip) (src : Nat) : Chip :=
  let e := c.epoch
  if isCameraSource src && e.active == some src && (e.st == .running || e.st == .freewheel) then
    { c with epoch := { e with st := .blanking, measurable := false,
                               synthAt := if e.estimate = 0 then 0 else (e.elapsed / e.estimate + 1) * e.estimate } }
  else c

/-! ### Synthesised lines -/

/-- BLANKING_LINE (R47). Where it ends the frame, the intervals of HELD begin at its due time (R49, R63). -/
def Chip.blankingLine (c : Chip) : Chip :=
  let e := c.epoch
  if e.st = .blanking ∧ e.estimate ≠ 0 ∧ e.synthAt ≤ e.elapsed then
    (if e.frameLines ≤ e.pos.line + 1 then { c with epoch := { e with elapsed := e.elapsed - e.synthAt } }
     else { c with epoch := { e with synthAt := e.synthAt + e.estimate } }).synthLine
  else c

/-- One freewheel line (R63), or HELD where it would end the frame (R49). -/
def Chip.freewheelOne (c : Chip) : Chip :=
  let e := c.epoch
  if e.frameLines ≤ e.pos.line + 1 then c.holdEpoch
  else (({ c with epoch := { e with pos := { e.pos with line := e.pos.line + 1, frac := 0 } } }).dinc (ent 0x2801 6)).countFreewheel

/-- Whether the source's line edges are missing: R63, R44 and the line of Table 2.7. -/
def Chip.linesMissing (c : Chip) : Bool :=
  let e := c.epoch
  e.st == .running && e.estimate != 0 && decide (2 * e.estimate ≤ e.elapsed) &&
  (match e.active with
    | some src => !isCameraSource src || e.headerSeen
    | none => false)

/-- FREEWHEEL_ENTRY (R63, R64). -/
def Chip.enterFreewheel (c : Chip) : Chip :=
  if !c.linesMissing then c
  else if c.dget (ent 0x2800 4) = 0 then c.stopEpoch
  else
    let e := c.epoch
    let c1 := { c with epoch := { e with elapsed := e.elapsed - 2 * e.estimate, measurable := false } }
    if e.frameLines ≤ e.pos.line + 1 then c1.holdEpoch
    else ((({ c1 with epoch := { c1.epoch with st := .freewheel, pos := { e.pos with line := e.pos.line + 1, frac := 0 } } }).dinc
      (ent 0x2801 6)).log 0x0501 0x0013 0xFFFF 0 0).countFreewheel

/-- FREEWHEEL_LINE (R63): a further interval of the estimate has passed. -/
def Chip.freewheelLine (c : Chip) : Chip :=
  let e := c.epoch
  if e.st = .freewheel ∧ e.estimate ≠ 0 ∧ e.estimate ≤ e.elapsed then
    ({ c with epoch := { e with elapsed := e.elapsed - e.estimate } }).freewheelOne
  else c

/-- HOLD_INTERVAL (R63): an interval of the estimate has passed in HELD at the end of a frame. With FREEWHEEL_LIMIT 0 no
interval counts. -/
def Chip.holdInterval (c : Chip) : Chip :=
  let e := c.epoch
  if e.st = .held ∧ e.why = .endOfFrame ∧ e.estimate ≠ 0 ∧ e.estimate ≤ e.elapsed then
    let c1 := { c with epoch := { e with elapsed := e.elapsed - e.estimate } }
    if c.dget (ent 0x2800 4) = 0 then c1 else c1.countFreewheel
  else c

/-! ### Synthetic and virtual epochs -/

/-- R69: the generator's interval is over. -/
def Chip.synthDue (c : Chip) : Bool :=
  c.epoch.synthOn && c.takesFrameStart 0x31 && decide (c.epoch.synthPeriod ≤ c.epoch.synthElapsed)

/-- R69: what a generated edge leaves of the interval before it, and the period of the interval that begins at it. -/
def Chip.synthBegins (c : Chip) (rest period : Nat) : Chip :=
  { c with epoch := { c.epoch with estimate := period, synthPeriod := period, synthElapsed := rest, fresh := false,
                                   measurable := false, elapsed := rest } }

/-- SYNTHETIC_EDGE (R69, R870): at the end of the interval; the interval that begins at the edge has the period committed
last. -/
def Chip.syntheticEdge (c : Chip) : Chip :=
  if !c.synthDue then c
  else
    let period := c.dget (ent 0x2800 6)
    let c1 := if c.edgeStartsFrame 0x31 then c.startEpochFrame 0x31 else c.realLine period
    c1.synthBegins (c.epoch.synthElapsed - c.epoch.synthPeriod) period

/-- The record's last step is done. -/
def Chip.recordDone (c : Chip) (target : Nat) : Chip :=
  if reached c.posNat target then { c with epoch := { c.epoch with virtual := none } } else c

/-- VIRTUAL_RECORD_STEP (R67): one line toward the target; a step that carries is a frame start (Table 2.3). While the
source is pending or the epoch STOPPED the position does not step, so the record's first carrying step is the next. -/
def Chip.recordStep (c : Chip) : Chip :=
  match c.epoch.virtual with
  | none => c
  | some (target, period) =>
    if !c.takesFrameStart 0x30 then c
    else
      let e := c.epoch
      let waits := e.pendingSource == some 0x30 || e.st == .stopped
      let carries := if waits then decide ((Pos.ofNat target).frame ≠ e.pos.frame) else decide (e.frameLines ≤ e.pos.line + 1)
      let c1 := { c with epoch := { e with estimate := period, fresh := false } }
      let c2 :=
        if carries then c1.startEpochFrame 0x30
        else if waits then { c with epoch := { e with virtual := none } }
        else { c1 with epoch := { c1.epoch with
          st := .running, pos := { e.pos with line := e.pos.line + 1, frac := 0 }, elapsed := 0, freewheelCount := 0 } }
      let c3 := if carries then { c2 with epoch := { c2.epoch with estimate := period, fresh := false } } else c2
      c3.recordDone target

/-! ### Time -/

/-- The quadrants of array `a` whose operators stall (R577). -/
def Chip.stalledQuads (c : Chip) (a : Nat) : Nat :=
  (c.passages.flatMap (fun (p : Nat × Passage) => match p.2.running with
    | none => []
    | some r =>
      let q := Pass.ofBytes r.image
      r.active.map (fun x => match q.ops[x.op]? with
        | some o => if x.array = a ∧ !c.opFed p.1 r q o then popcount 4 x.quads else 0
        | none => 0))).foldl (· + ·) 0

/-- The cycle counters of array `a` over some CCLK cycles (Table 11.11). -/
def Chip.arrayTime (c : Chip) (cycles a : Nat) : Chip :=
  if c.isRetired (.array a) then c
  else (c.dadd64 (arrayKey a 12) cycles).dadd64 (arrayKey a 11) (cycles * c.stalledQuads a)

/-- The fraction after the elapsed time (R44, R45); HELD and STOPPED keep theirs, and it stays 0 until a camera frame's first
header. -/
def Chip.interpolate (c : Chip) : Chip :=
  let e := c.epoch
  let waits := match e.active with
    | some src => isCameraSource src && !e.headerSeen
    | none => true
  let virtual := e.virtual.isSome && e.active == some 0x30
  let base := if e.st = .blanking ∧ e.estimate ≠ 0 ∧ e.estimate ≤ e.synthAt then e.elapsed - (e.synthAt - e.estimate) else e.elapsed
  if (e.st = .running ∨ e.st = .blanking ∨ e.st = .freewheel) ∧ !waits ∧ !virtual then
    { c with epoch := { e with pos := { e.pos with frac := fractionAt base e.estimate } } }
  else c

/-- R69: time passes for the synthetic generator, from the end of BOOT on. -/
def Chip.synthTime (c : Chip) (n : Nat) : Nat :=
  if c.engine = .reset ∨ c.engine = .boot then 0 else c.epoch.synthElapsed + n * etickUnits

/-- FRACTION_UPDATE: n updates of 4 ns pass (R45). -/
def Chip.passTime (c : Chip) (n : Nat) : Chip :=
  let (c1, cycles) := c.govTime n
  let c2 := c1.each (List.range 16) (fun c a => c.arrayTime cycles a)
  ({ c2 with now := c2.now + n, epoch := { c2.epoch with elapsed := c2.epoch.elapsed + n * etickUnits,
                                                          synthElapsed := c2.synthTime n } }).interpolate

end Sys2Proof.Machine
end

