-- ==== Sys2Proof/Machine/Checks.lean ====
section
/-! DEFINITION. Values of dictionary entries: encoding, ranges, defaults by mode and grade, and the answer of DESCRIBE
(Tables 4.2 and 4.3, R135 to R140, R876). -/

namespace Sys2Proof.Machine

/-! ### Access bytes (Table 0.5) -/

def Entry.readable (e : Entry) : Bool := bit e.access 0
def Entry.writable (e : Entry) : Bool := bit e.access 1
def Entry.persists (e : Entry) : Bool := bit e.access 2
def Entry.owned (e : Entry) : Bool := bit e.access 3
def Entry.constant (e : Entry) : Bool := bit e.access 4

/-! ### Ranges -/

/-- An FP32 pattern in the order of the numbers. -/
def f32Order (n : Nat) : Int := if n < 0x80000000 then (n : Int) else - ((n : Int) - 0x80000000)

/-- Neither a NaN nor an infinity. -/
def f32Finite (n : Nat) : Bool := bits n 30 23 != 255

/-- The integer that a value of an entry's type spells. -/
def Entry.value (e : Entry) (n : Nat) : Int := if e.ty.signed then toSigned (8 * e.ty.size) n else (n : Int)

/-- R137, R138: a value of a fixed-size type is legal (check 9 of Table 4.7). -/
def Entry.inRange (e : Entry) (n : Nat) : Bool :=
  match e.range with
  | .whole => (match e.ty with
    | .bool => decide (n ≤ 1)
    | .f32 => f32Finite n
    | _ => true)
  | .ints ivs => ivs.any (fun (p : Int × Int) => decide (p.1 ≤ e.value n) && decide (e.value n ≤ p.2))
  | .float lo hi => f32Finite n && decide (f32Order lo ≤ f32Order n) && decide (f32Order n ≤ f32Order hi)
  | .len _ _ => true

/-- R136: a length that a write may carry (check 5 of Table 4.7). -/
def Entry.goodLength (e : Entry) (n : Nat) : Bool :=
  match e.ty, e.range with
  | .str, .len lo hi | .blob, .len lo hi => decide (lo ≤ n) && decide (n ≤ hi)
  | .str, _ => decide (n ≤ 255)
  | .blob, _ => decide (n ≤ 4096)
  | t, _ => n == t.size

/-- R136: MAX_LENGTH. -/
def Entry.maxLength (e : Entry) : Nat :=
  match e.ty, e.range with
  | .str, .len _ hi | .blob, .len _ hi => hi
  | .str, _ => 255
  | .blob, _ => 4096
  | t, _ => t.size

/-- The lowest and highest legal values as patterns; those of the type where no range is given (Table 4.3). -/
def Entry.bounds (e : Entry) : Nat × Nat :=
  let w := 8 * e.ty.size
  match e.range with
  | .ints ((lo, hi) :: r) =>
    let least := r.foldl (fun m (p : Int × Int) => if p.1 < m then p.1 else m) lo
    let most := r.foldl (fun m (p : Int × Int) => if m < p.2 then p.2 else m) hi
    (ofSigned w least, ofSigned w most)
  | .float lo hi => (lo, hi)
  | _ =>
    if e.ty = .f32 then (0xFF7FFFFF, 0x7F7FFFFF)
    else if e.ty = .bool then (0, 1)
    else if e.ty.signed then (2 ^ (w - 1), 2 ^ (w - 1) - 1) else (0, 2 ^ w - 1)

/-! ### Defaults -/

/-- The defaults that depend on the mode or the grade: SOURCE, ROLE, RATE, THROTTLE and the ENABLE of estimator instance
0 (Tables 2.12, 13.14, 15.7, R439). -/
def modeKeys : List Nat :=
  [ent 0x2800 1, ent 0x5010 11, entEst 0 0x3000 2] ++
  (rangeFrom 0x4800 6).map (fun i => ent i 1) ++ (rangeFrom 0x4800 6).map (fun i => ent i 2)

/-- The default of a stored entry in this engine's mode and grade. -/
def Chip.modeDefault (c : Chip) (key : Nat) : Nat :=
  let mesh := c.straps.mode == .mesh
  if key = ent 0x2800 1 then (if mesh then 0x30 else 0)
  else if key = ent 0x5010 11 then (if c.grade = .mc then 720 else 800)
  else if key = entEst 0 0x3000 2 then b2n (!mesh)
  else if ent 0x4800 0 ≤ key ∧ key ≤ ent 0x4805 255 ∧ key % 256 = 1 then b2n mesh
  else if ent 0x4800 0 ≤ key ∧ key ≤ ent 0x4805 255 ∧ key % 256 = 2 then (if c.grade = .mc then 32 else 16)
  else dfltOf key

/-- A value that the straps or the grade put outside an entry's range, which a write of it would abort with 0x0A03_0001
(R2, R34, R49, R254, R373, R380, R635, R753, Tables 0.7, 1.6): SOURCE, ROLE, RATE, THROTTLE, TUNNEL, PDM_PIN, and the
virtual inputs of a camera, an inertial channel and an estimator instance. -/
def Chip.outOfPlace (c : Chip) (idx sub value : Nat) : Bool :=
  let mesh := c.straps.mode == .mesh
  let field := c.straps.mode == .field
  if idx = 0x2800 ∧ sub = 1 then !c.hasSource value
  else if 0x4800 ≤ idx ∧ idx ≤ 0x4805 ∧ sub = 1 then value != 0 && !mesh
  else if 0x4800 ≤ idx ∧ idx ≤ 0x4805 ∧ sub = 2 then c.grade == .fi && decide (16 < value)
  else if idx = 0x5010 ∧ sub = 11 then c.grade == .mc && decide (720 < value)
  else if 0x8000 ≤ idx ∧ idx ≤ 0x83FF ∧ idx % 0x40 = 0 ∧ sub = 5 then
    value != 0 && (!mesh || idx == 0x8000 || decide (0x8300 < idx))
  else if 0x2000 ≤ idx ∧ idx ≤ 0x2005 ∧ sub = 34 then value == 1 && field
  else if 0x2100 ≤ idx ∧ idx ≤ 0x210F ∧ sub = 2 then value == 2 && field
  else if 0x2100 ≤ idx ∧ idx ≤ 0x210F ∧ sub = 3 then value / 4 != (idx - 0x2100) / 4
  else if 0x2100 ≤ idx ∧ idx ≤ 0x210F ∧ sub = 15 then decide (16384 < value)
  else if idx = 0x3000 ∧ sub = 9 then value == 1 && field
  else false

/-- Every entry whose default depends on the mode takes it. -/
def Chip.loadModeDefaults (c : Chip) : Chip := c.each modeKeys (fun (c : Chip) k => c.dset k (c.modeDefault k))

/-- Whether a key of the store belongs to an entry of class RWP. -/
def persistentKey (key : Nat) : Bool :=
  match entryRow (key / 256 % 0x10000) (key % 256) with
  | some e => e.persists
  | none => false

/-! ### DESCRIBE -/

/-- R876: the ASCII form of one character of a unit. -/
def unitChar (ch : Char) : List Byte :=
  if 0x20 ≤ ch.toNat ∧ ch.toNat ≤ 0x7E then [BitVec.ofNat 8 ch.toNat]
  else if ch = 'µ' ∨ ch.toNat = 0x3BC then asciiBytes "u"
  else if ch = '°' then asciiBytes "deg"
  else if ch = '²' then asciiBytes "2"
  else if ch = '³' then asciiBytes "3"
  else if ch = '√' then asciiBytes "sqrt"
  else if ch = 'Ω' ∨ ch.toNat = 0x2126 then asciiBytes "Ohm"
  else []

/-- R876: the 12 bytes of UNIT. -/
def unitBytes (u : String) : List Byte := padTo 12 (u.toList.flatMap unitChar)

/-- The DEFAULT that DESCRIBE reports: a constant's and a fused or image value is the value itself. -/
def Chip.defaultOf (c : Chip) (v i idx sub : Nat) (e : Entry) : Nat :=
  if e.constant || (idx == 0x100A && sub == 1) || (idx == 0x1020 && sub == 3) || (idx == 0x6000 && sub == 16) then
    c.viewNat v i idx sub
  else if 0x1800 ≤ idx ∧ idx ≤ 0x1801 ∧ sub = 3 then c.straps.ident
  else if 0x2100 ≤ idx ∧ idx ≤ 0x210F then dfltOf (ent idx sub)
  else c.modeDefault (keyOf v i idx sub)

/-- The access byte as it stands: BINDING is CONST once it is locked, and the map and identifier of broadcast channels 0
and 1 are read-only (R797, Table 4.16). -/
def Chip.accessOf (c : Chip) (idx sub : Nat) (e : Entry) : Nat :=
  if idx = 0x1020 ∧ sub = 1 ∧ c.flash.binding.isSome then 0x11 else e.access

/-- R136: MAX_LENGTH as it stands: TX takes bodies up to L_MAX − 3 of the longest frame that the node may send (R703,
Table 14.14). -/
def Chip.maxLengthOf (c : Chip) (idx sub : Nat) (e : Entry) : Nat :=
  if idx = 0x1820 ∧ sub = 16 then c.messageRoom 0xFF - 3 else e.maxLength

/-- MIN and MAX, with the ranges that a channel or a table gives: PDM_PIN is one of the four pins of its group (Table
8.9), ACTION a code of Table 2.8, which only an arm checks (R91), RES_TAPS above 16,384 has R403's own code, and DETOUR_ENTRY has reserved bits (Table 13.16). -/
def describedBounds (idx sub : Nat) (e : Entry) : Nat × Nat :=
  if 0x2100 ≤ idx ∧ idx ≤ 0x210F ∧ sub = 3 then ((idx - 0x2100) / 4 * 4, (idx - 0x2100) / 4 * 4 + 3)
  else if 0x2C00 ≤ idx ∧ idx ≤ 0x2FFF ∧ sub = 2 then (0x01, 0x0B)
  else if 0x2100 ≤ idx ∧ idx ≤ 0x210F ∧ sub = 15 then (1, 16384)
  else if idx = 0x4820 ∧ sub = 4 then (0, 0xC5)
  else e.bounds

/-- Table 4.3. -/
def Chip.describeBytes (c : Chip) (v i idx sub : Nat) (e : Entry) : List Byte :=
  let head := leBytes 1 e.ty.code ++ leBytes 1 (c.accessOf idx sub e) ++ leBytes 2 (c.maxLengthOf idx sub e) ++ unitBytes e.unit
  let s := e.ty.size
  if s = 0 then head
  else
    let b := describedBounds idx sub e
    head ++ leBytes s (c.defaultOf v i idx sub e) ++ leBytes s b.1 ++ leBytes s b.2

/-- R140: the entry at subindex 0 of an allocated index. -/
def subZero : Entry := ⟨0, 0, "HIGHEST_SUBINDEX", .u8, 0x11, 0, .whole, "", .any⟩

end Sys2Proof.Machine
end

