-- ==== Sys2Proof/Machine/Boot.lean ====
section
/-! DEFINITION. Reset, boot, self-test, the entry to CONFIG, the calibration store, firmware installation, power failure
and the test access port (R163 to R171, R804 to R838, R856, R859, Tables 17.2 to 17.11). -/

namespace Sys2Proof.Machine

/-! ### The calibration slots -/

/-- The key of the entry that a record names. -/
def CalRecord.key (r : CalRecord) : Nat :=
  if 0x3000 ≤ r.idx ∧ r.idx ≤ 0x3048 then entEst r.inst r.idx r.sub else keyOf 0 0 r.idx r.sub

/-- R830: a record that names an entry of class RWP, with its type, a length of it and a value of its range. -/
def CalRecord.good (r : CalRecord) : Bool :=
  match entryRow r.idx r.sub with
  | some e => e.persists && r.ty == e.ty.code && e.goodLength r.value.length && (e.ty.size == 0 || e.inRange (leNat r.value))
  | none => false

/-- R830: a record that this engine applies, in its mode and grade. -/
def Chip.applies (c : Chip) (r : CalRecord) : Bool := r.good && !c.outOfPlace r.idx r.sub (leNat r.value)

/-- R830: the records are applied in order, and the skipped ones counted. -/
def Chip.loadRecords (c : Chip) (rs : List CalRecord) : Chip :=
  let c1 := c.each (rs.filter c.applies) (fun (c : Chip) r => c.dset r.key (leNat r.value))
  c1.dset (ent 0x6000 8) (rs.countP (fun r => !c.applies r))

/-- The record of a key of the store; a BLOB's is as long as the entry (R136). -/
def Chip.recordOf (c : Chip) (key : Nat) : CalRecord :=
  let idx := key / 256 % 0x10000
  let sub := key % 256
  let row := entryRow idx sub
  { idx, sub, ty := (row.map (fun e => e.ty.code)).getD 0, value := leBytes ((row.map Entry.maxLength).getD 0) (c.dget key)
    inst := key / 0x1000000 - 1 }

/-- R164: the snapshot of the RWP entries. An entry at its default needs no record, since boot gives it that default
(R830), but for those whose default the mode sets. -/
def Chip.snapshot (c : Chip) : List CalRecord :=
  let listed := (c.dict.map (fun (p : Nat × Nat) => p.1)).filter (fun k => persistentKey k && !modeKeys.contains k)
  (listed ++ modeKeys).map c.recordOf

/-! ### Boot (R814 to R830) -/

/-- R817: the image locations in the order in which boot tries them; of two with equal SEQUENCE, A first. -/
def Flash.order (f : Flash) : List Nat :=
  match f.imageA, f.imageB with
  | some a, some b => if laterMod m32 b.seq a.seq then [1, 0] else [0, 1]
  | some _, none => [0]
  | none, some _ => [1]
  | none, none => []

/-- R816: the image verifies for a behaviour level. -/
def FwImage.verifies (i : FwImage) (level : Nat) : Bool := i.sound && bit i.levels (level - 1)

/-- The behaviour level that boot activates after a cold reset (R162). -/
def Flash.storedLevel (f : Flash) : Nat :=
  match f.chooseSlot with
  | none => 2
  | some k => match ((f.slot k).records.filter (fun r => r.good && r.key == ent 0x1018 3)).getLast? with
    | some r => leNat r.value
    | none => 2

/-- The calibration slot is loaded (R163, R828 to R830), the level activated, and the epoch's source requested (R50). -/
def Chip.loadCalibration (c : Chip) (level : Nat) : Chip :=
  let f := c.flash.readHeaders
  let pick := f.chooseSlot
  let c1 := (c.loadModeDefaults).loadRecords ((pick.map (fun k => (f.slot k).records)).getD [])
  let c2 := { c1 with flash := { f with calDefault := pick.isNone, calAbandoned := (f.slot 0).incomplete || (f.slot 1).incomplete } }
  let c3 := (((c2.dset (ent 0x6000 1) (pick.getD 0xFF)).dset (ent 0x6000 2) ((pick.map (fun k => (f.slot k).seq)).getD 0)).dset
    (ent 0x1018 2) level).dset (ent 0x1018 3) level
  let c4 := c3.requestSource (c3.dget (ent 0x2800 1))
  { c4 with epoch := { c4.epoch with frameLines := c4.dget (ent 0x2800 2) } }

/-- BOOT: the firmware image is chosen (R817 to R820), the fretboard checked (R104) and the calibration loaded. -/
def Chip.boot (c : Chip) (level : Nat) : Chip :=
  let tries := c.flash.order
  let good := tries.filter (fun k => match c.flash.image k with | some i => i.verifies level | none => false)
  let c0 := { c with engine := .boot }
  match good with
  | [] => c0.enterFaulted 10
  | k :: _ =>
    let second := decide (tries.head? ≠ some k)
    let c1 := { c0.dset (ent 0x6000 9) k with
      models := ((c.flash.image k).map FwImage.models).getD false
      flash := { c0.flash with fallback := second } }
    let c2 := if second then c1.log 0x0602 0 0xFFFF 0 0 else c1
    if fretboardGood (fretboardBytes c.grade) then c2.loadCalibration level else c2.enterFaulted 6

/-! ### Resets (Table 17.2) -/

/-- The straps that MODE[1:0] and ID[5:0] give (Table 0.7); MODE 3 is not described (R20). -/
def strapsOf (mode ident : Nat) : Straps :=
  ⟨if mode % 4 = 0 then .field else if mode % 4 = 1 then .mesh else .bench, ident % 64⟩

/-- The engine held in RESET by PORST_N or by the monitor of REFCLK_25: nothing that a cold reset clears is left. -/
def Chip.held (c0 : Chip) : Chip :=
  let c := c0.haltStore
  { now := c.now, frees := c.frees, straps := c.straps, grade := c.grade, lp5x := c.lp5x, board := c.board, hostMem := c.hostMem
    tap := c.tap
    faults := { persist := c.faults.persist }
    flash := { c.flash with storing := none, installing := none, lastStore := none, storeAt := (0, 0), cold := true, fallback := false
                            calDefault := false, calAbandoned := false } }

/-- R859: with PORST_N high the instructions that take the pins act as BYPASS. -/
def Tap.released (t : Tap) : Tap :=
  match t.acting with
  | .extest | .clamp | .highz => { acting := .bypass, captured := some 0 }
  | _ => t

/-- The cold reset takes effect (R804, R805). -/
def Chip.coldReset (c : Chip) (mode ident : Nat) : Chip :=
  let c1 := { c.held with straps := strapsOf mode ident, tap := c.tap.released }
  ((c1.dset (ent 0x6000 14) 1).boot c1.flash.storedLevel).untilColdReset c1

/-- Counters and states that a warm reset keeps (R803, R774, Tables 11.11, 13.14, 15.7, 15.8): their keys. -/
def warmKept (key : Nat) : Bool :=
  let idx := key / 256 % 0x10000
  let sub := key % 256
  (idx == 0x5800 && sub == 5) || (idx == 0x5820 && (sub == 4 || sub == 9)) || (idx == 0x5010 && sub == 19) ||
  (idx == 0x5020 && sub == 3) || (idx == 0x6000 && sub == 15) || (idx == 0x4100 && sub == 7) ||
  (0x4000 ≤ idx && idx ≤ 0x400F && 10 ≤ sub) || (0x4800 ≤ idx && idx ≤ 0x4805 && 4 ≤ sub && sub ≤ 12)

/-- R806, Table 17.2: one warm reset, whose cause LAST_RESET shows. -/
def Chip.warmReset (c0 : Chip) (cause : Nat) : Chip :=
  if c0.board.porstLow || !c0.board.refclk || c0.engine == .reset || c0.engine == .faulted then c0
  else
    let c := c0.haltStore
    let level := c.dget (ent 0x1018 3)
    let kept : Chip :=
      { now := c.now, frees := c.frees, straps := c.straps, grade := c.grade, lp5x := c.lp5x, board := c.board, hostMem := c.hostMem
        tap := c.tap, msixSent := c.msixSent, pcie := c.pcie, usb := { warmAt := some c.now }
        dict := c.dict.filter (fun (p : Nat × Nat) => warmKept p.1)
        faults := { ring := c.faults.ring, latest := c.faults.latest, persist := c.faults.persist, retired := c.faults.retired
                    attnN := c.faults.attnN }
        ctl := { scratch := c.ctl.scratch, err := c.ctl.err }
        keeps := c.keeps.filterMap (fun (p : Nat × VoiceKeep) => if p.2.d3 then some (p.1, { d3 := true }) else none)
        mesh := { strings := c.mesh.strings.map (fun x => (x.1, { x.2 with pointer := 0 })), learned := c.mesh.learned, announcedAt := c.mesh.announcedAt, implied := c.mesh.implied
                  rtBase := c.mesh.rtBase, rtAt := c.mesh.rtAt, conflict := c.mesh.conflict, sent := c.mesh.sent }
        flash := { c.flash with storing := none, installing := none, storeAt := (0, 0), cold := false, fallback := false } }
    (((kept.dinc (ent 0x6000 15)).dset (ent 0x6000 14) cause).boot level).untilColdReset c

/-- REFCLK_25_LOSS (R856). -/
def Chip.refclkLost (c : Chip) : Chip := { c.held with board := { c.board with refclk := false } }

/-! ### Self-test and CONFIG -/

/-- The port may attach: VBUS is present, ENABLE is 1, the port is in service, and the 10 ms (2,500,000 updates) of a detachment by a
warm reset have passed (Table 17.2). -/
def Chip.usbAttaches (c : Chip) : Bool :=
  c.board.vbus && c.dbool (ent 0x1810 1) && !c.isRetired .usb && c.usb.warmAt.all (fun t => t + 2500000 ≤ c.now)

/-- SELFTEST (R813, R824, R825): units fail only after a cold reset, with DETAIL 6. -/
def Chip.selfTest (c : Chip) (failed : List UnitName) : Chip :=
  if c.engine ≠ .boot ∨ c.gov.bootHot then c
  else
    let c1 := { c with engine := .selftest }
    if c.flash.cold then c1.each failed (fun (c : Chip) u => c.retireUnit u 6 0) else c1

/-- The binding of voice v (Table 6.2), with that of V0 as the entry to CONFIG decides it. -/
def Chip.bindingNow (c : Chip) (v : Nat) : Nat :=
  let mesh := c.straps.mode == .mesh
  if v = 0 then (if mesh && !c.pcie.trained then 5 else 0)
  else if v ≤ 12 then
    if c.dbool (ent (vIdx v 0) 5) then (if mesh then 5 else 0xFF)
    else if c.pcie.vfEnable && decide (v ≤ c.pcie.numVfs) && !c.isRetired .pcie then 1 else 0xFF
  else if v = 13 then (if c.canAlive 0 && c.node 0 != 0 then 2 else 0xFF)
  else if v = 14 then (if c.canAlive 1 && c.node 1 != 0 then 3 else 0xFF)
  else if c.usb.configured && !c.isRetired .usb then 4 else 0xFF

/-- A voice takes the binding that Table 6.2 gives it. -/
def Chip.rebind (c : Chip) (v : Nat) : Chip := c.setKeep v { c.keep v with binding := c.bindingNow v }

/-- SELFTEST_COMPLETE (R190, R234, R251, R812, Table 13.5): CONFIG. -/
def Chip.enterFirstConfig (c : Chip) : Chip :=
  if c.engine ≠ .selftest ∨ c.gov.bootHot then c
  else
    let c1 := { c with engine := .config, usb := { c.usb with attached := c.usbAttaches } }
    let c2 := (c1.joinBus 0).joinBus 1
    let c3 := c2.each (List.range 16) Chip.rebind
    let c4 := c3.each (List.range 6) Chip.stringLocks
    (c4.beat 0).beat 1

/-! ### The calibration store (R164 to R167, R831 to R836) -/

/-- R831: the slot that a store writes. -/
def Chip.storeTarget (c : Chip) : Nat := if c.dget (ent 0x6000 1) = 0 then 1 else 0

/-- R165, R166, R835: the checks of a STORE write at check 13 of Table 4.7; the key itself is checked at check 9. -/
def Chip.storeCheck (c : Chip) : Nat :=
  let f := c.flash
  let soon := match f.lastStore with
    | some t => decide (c.now < t + 2500000000)
    | none => false
  if f.storing.isSome || f.installing.isSome || soon || decide (100000 < f.nextErases c.storeTarget) then 0x0A080001
  else if c.board.pfail then 0x0A080002
  else 0

/-- R164, R831: the snapshot is taken and the store starts. -/
def Chip.storeCommit (c : Chip) : Chip :=
  let f := c.flash
  let target := c.storeTarget
  let seq := if c.dget (ent 0x6000 1) = 0xFF then 1 else (c.dget (ent 0x6000 2) + 1) % m32
  let c1 := { c with flash := { f with storing := some { target, seq, erases := f.nextErases target, records := c.snapshot }
                                       storeAt := (c.now, c.posNat) } }
  c1.dset (ent 0x1100 2) 1

/-- R164: the snapshot is of the update in which the store commits, so the later commits of that update are in it. -/
def Chip.snapshotFollows (c : Chip) : Chip :=
  match c.flash.storing with
  | some x =>
    if c.flash.storeAt.1 = c.now then { c with flash := { c.flash with storing := some { x with records := c.snapshot } } } else c
  | none => c

/-- STORE_COMPLETE (R167, R833): COMMIT is written. -/
def Chip.storeDone (c : Chip) : Chip :=
  match c.flash.storing with
  | none => c
  | some x =>
    let f := c.flash.setSlot x.target x.bytes
    let c1 := { c with flash := { f with storing := none, lastStore := some f.storeAt.1, calDefault := false, calAbandoned := false } }
    (((c1.dset (ent 0x1100 2) 2).dset (ent 0x1100 3) f.storeAt.2).dset (ent 0x6000 1) x.target).dset (ent 0x6000 2) x.seq

/-! ### Firmware installation (R821 to R823) -/

/-- What a tensor spells as an image (Table 17.6): LENGTH, LEVELS and VERSION; none where MAGIC, FORMAT, LENGTH or a zero
field is malformed. -/
def imageHeader (bs : List Byte) : Option (Nat × Nat × Nat) :=
  let length := fieldAt bs 0x0C 4
  let good := fieldAt bs 0 4 == 0x4B46574D && fieldAt bs 4 2 == 0x0100 && fieldAt bs 7 1 == 0 && decide (0x140 ≤ length) &&
    decide (length ≤ 16773120) && decide (length ≤ bs.length) && (bs.drop 0x28).take 0x18 == List.replicate 0x18 (0 : Byte) &&
    (bs.drop 0x80).take 0x80 == List.replicate 0x80 (0 : Byte)
  if good then some (length, fieldAt bs 6 1, fieldAt bs 8 4) else none

/-- R821: the checks of FW_INSTALL in the order of Table 4.7. -/
def Chip.installCheck (c : Chip) (v t : Nat) : Nat :=
  let bs := c.contents t
  let level := bit (fieldAt bs 6 1) (c.dget (ent 0x1018 2) - 1)
  let image := match imageHeader bs with
    | none => [0x0A030003]
    | some (len, _, _) => if Config.imageSigned (bs.take len) then [] else [0x0A0A0001]
  let r := c.readCheck v t
  firstCode ([r, if r = 0 && !level then 0x0A090001 else 0, if c.flash.storing.isSome || c.flash.installing.isSome then 0x0A080001 else 0,
              if c.board.pfail then 0x0A080002 else 0] ++ (if r = 0 then image else []))

/-- Table 17.6: the passage of a default model: its part of the image without the 64-byte signature at its end. -/
def imageModel (bs : List Byte) (off : Nat) : List Byte :=
  (bs.drop (fieldAt bs off 4)).take (fieldAt bs (off + 4) 4 - 64)

/-- R820: both default models are there and their signatures hold. -/
def imageModels (bs : List Byte) : Bool :=
  fieldAt bs 0x1C 4 != 0 && fieldAt bs 0x24 4 != 0 && Config.modelsSigned bs

/-- R822: the location that does not run is erased, and the install starts. -/
def Chip.installCommit (c : Chip) (t : Nat) : Chip :=
  let bs := c.contents t
  match imageHeader bs with
  | none => c
  | some (len, levels, version) =>
    let run := c.dget (ent 0x6000 9)
    let seq := (((c.flash.image run).map (·.seq)).getD 0 + 1) % m32
    let new : FwImage := { seq, version, levels, sound := true, models := imageModels (bs.take len)
                           desc := some (imageModel bs 0x18), place := some (imageModel bs 0x20) }
    let f := c.flash
    let c1 := { c with flash := { f with installing := some ⟨new, t, bs.take len⟩, imageA := if run = 0 then f.imageA else none
                                         imageB := if run = 0 then none else f.imageB } }
    c1.dset (ent 0x6000 13) 1

/-- FW_INSTALL_COMPLETE (R822): the location reads back as the tensor, and the trailer is written; else the install stops before
it (R823). -/
def Chip.installDone (c : Chip) : Chip :=
  match c.flash.installing with
  | none => c
  | some x =>
    let f := c.flash
    let run := c.dget (ent 0x6000 9)
    if (c.contents x.tensor).take x.bytes.length ≠ x.bytes then c.abandonInstall
    else
      let c1 := { c with flash := { f with installing := none, imageA := if run = 0 then f.imageA else some x.image
                                           imageB := if run = 0 then some x.image else f.imageB } }
      c1.dset (ent 0x6000 13) 2

/-! ### Power failure (R166, R809) -/

/-- PFAIL_N_ASSERT: the engine starts no further erase or program operation, so a store and an install end. -/
def Chip.powerFails (c : Chip) : Chip :=
  if c.board.pfail then c else (({ c with board := { c.board with pfail := true } }).abandonStore).abandonInstall

/-- PFAIL_N_RELEASE. -/
def Chip.powerBack (c : Chip) : Chip := { c with board := { c.board with pfail := false } }

/-! ### The test access port (R859) -/

/-- R859: the instruction that acts: EXTEST, CLAMP and HIGHZ act as BYPASS unless PORST_N is low. -/
def tapActing (ir : TapInstruction) (porstLow : Bool) : TapInstruction :=
  match ir with
  | .extest | .clamp | .highz => if porstLow then ir else .bypass
  | .bypass | .idcode | .samplePreload => ir

/-- R860: what the data register of an instruction captures: the identification word, the bypass bit, or the pins. -/
def tapCapture (ir : TapInstruction) : Option Nat :=
  match ir with
  | .idcode => some tapIdcode
  | .bypass | .clamp | .highz => some 0
  | .samplePreload | .extest => none

/-- An instruction is loaded into the test access port. -/
def Tap.load (ir : TapInstruction) (porstLow : Bool) : Tap :=
  { acting := tapActing ir porstLow, captured := tapCapture (tapActing ir porstLow) }

end Sys2Proof.Machine
end

