-- ==== Sys2Proof/Machine/Resets.lean ====
section
/-! DEFINITION. Ring enable and drain, voice resets, and the PCI Express endpoint's own events (R250 to R252, R259, R266,
R267, R305 to R314, R847, R869). -/

namespace Sys2Proof.Machine

/-! ### RING_ENABLE (R266, R267) -/

/-- R266: whether a write of 1 to RING_ENABLE is accepted. -/
def Voice.mayEnable (x : Voice) : Bool :=
  x.state == .idle && decide (4 ≤ x.cmdLog2 ∧ x.cmdLog2 ≤ 12) && decide (4 ≤ x.cplLog2 ∧ x.cplLog2 ≤ 12)

/-- R266, R306: the voice's rings start empty; a held NOTICE of a reset comes first. -/
def Chip.ringStart (c : Chip) (v : Nat) : Chip :=
  let x := c.voice v
  let c1 := c.setVoice v { x with state := .active, ringEnable := true, cmdHead := 0, cmdTail := 0, cplTail := 0, cplHead := 0,
                                  phase := true }
  if (c1.keep v).notice then (c1.setKeep v { c1.keep v with notice := false }).notice v 1 else c1

/-- R267: admission stops; an ACTIVE voice drains. -/
def Chip.ringStop (c : Chip) (v : Nat) : Chip :=
  let x := c.voice v
  c.setVoice v { x with ringEnable := false, state := if x.state = .active then .draining else x.state }

/-- The writes of a voice that R160 or R871 has put off. -/
def Chip.writesWaiting (c : Chip) (v : Nat) : List DictReq :=
  (c.keep v).deferred ++ (c.armQueue.filterMap (·.write)).filter (fun q => q.voice == v)

/-- Such a write of a DICT_OP command, which has not completed. -/
def Chip.commandWaits (c : Chip) (v : Nat) : Bool := (c.writesWaiting v).any (fun q => q.via.transport == 2)

/-- R267: every command that the voice has had admitted has completed. -/
def Chip.ringEmpty (c : Chip) (v : Nat) : Bool :=
  let x := c.voice v
  x.admitted.isNone && x.fence.isNone && !c.commandWaits v && x.cpl.all (fun k => k.kind != .command) && x.waiting.isEmpty &&
  c.ledger.all (fun e => !(e.voice == v && e.source == LedgerSource.ring))

/-- VOICE_DRAIN_END (R267, R306, R309): the last ledger entry is released and the voice is IDLE. The ring of V15 that
SET_CONFIGURATION has enabled in the drain starts (R299). -/
def Chip.drainEnd (c : Chip) (v : Nat) : Chip :=
  let x := c.voice v
  if x.state ≠ .draining then c
  else if x.resetDrain then
    if c.engine = .hold then c
    else
      let c1 := { c with ledger := c.ledger.filter (fun e => !(e.voice == v && e.source != LedgerSource.reserve)) }
      let c2 := c1.setVoice v { x with state := .idle, resetDrain := false }
      let c3 := (c2.setKeep v { c2.keep v with notice := true }).dinc (ent (vIdx v 3) 7)
      if (v = 15 ∧ c3.usb.ringOn) ∨ (c3.tunnel v).opened then
        let c4 := (c3.setTunnel v { c3.tunnel v with opened := false }).ringStart v
        c4.setVoice v { c4.voice v with cmdTail := x.tags }
      else c3
  else if c.ringEmpty v then c.setVoice v { x with state := .idle }
  else c

/-- HOLD_EXIT_COMPLETE: the drains of resets that came in HOLD complete with the exit (R309). -/
def Chip.holdLeft (c : Chip) : Chip :=
  let c1 := c.holdExited
  if c.engine = .hold ∧ c1.engine ≠ .hold then
    c1.each ((List.range 16).filter (fun v => (c1.voice v).resetDrain)) Chip.drainEnd
  else c1

/-! ### Voice resets (R305 to R309) -/

/-- R305, step 2: the cues that the voice armed are cancelled, those of its solves too. -/
def Chip.cancelCuesOf (c : Chip) (v : Nat) : Chip :=
  (c.cues.filter (fun p => p.2.armed && p.2.armedBy == v && (p.2.use == CueUse.voice || p.2.use.isSolve))).foldl
    (fun (c : Chip) p => c.freeSlot p.1) c

/-- R305, step 3: the voice's requests, runs and moves end without results. Their ledger entries stay until the drain ends
(R306). -/
def Chip.stopWorkOf (c : Chip) (v : Nat) : Chip :=
  let c1 := (c.dropRequests (fun r => r.voice != v || r.est.isSome)).dropRuns (fun r => r.voice != v || r.est.isSome)
  let c2 := ((c1.cancelCuesOf v).dropTablatures v).unloadPassages v
  { c2 with
    moves := c2.moves.filter (fun m => m.voice != v)
    ledger := c.ledger.filter (fun e => (e.voice == v && e.source == LedgerSource.ring) || c2.ledger.contains e) }

/-- R305, step 4, and R869: the voice's tensors are released once no entry names them. -/
def Chip.releaseTensorsOf (c : Chip) (v : Nat) : Chip :=
  ({ c with
      resets := c.resets + 1
      tensors := c.tensors.map (fun (p : Nat × Tensor) =>
        (p.1, if p.2.owner = v ∧ !isEngineTensor p.1 then { p.2 with doom := some c.resets } else p.2)) }).sweepDoomed

/-- What the mesh keeps for a voice's running work is discarded (R683); its ring awaits the next OPEN (R685). -/
def Chip.dropMeshOf (c : Chip) (v : Nat) : Chip :=
  { c with mesh := { c.mesh with
      waits := c.mesh.waits.filter (fun w => w.voice != v)
      dma := c.mesh.dma.filter (fun d => d.voice != v)
      answered := c.mesh.answered.filter (fun a => a.1 != v)
      tunnels := c.mesh.tunnels.map (fun t => (t.1, if t.1 = v then { t.2 with opened := false } else t.2)) } }

/-- R298, R299: a reset of V15 empties the replay cache and disables its ring. -/
def Chip.usbVoiceReset (c : Chip) (v : Nat) : Chip :=
  if v = 15 then { c with usb := { c.usb with lastReq := none, lastAnswer := none, ringOn := false, imports := [] } } else c

/-- R305, R307: one voice reset; the drain begins. -/
def Chip.voiceReset (c : Chip) (v : Nat) : Chip :=
  let c1 := { c with armQueue := c.armQueue.filter (fun w => w.voice != v) }
  let c2 := (((c1.stopWorkOf v).estVoiceReset v).dropMeshOf v).usbVoiceReset v
  let c3 := c2.setVoice v { state := .draining, resetDrain := true }
  let c4 := c3.setKeep v { c3.keep v with journal := [], journalSeq := 0, deferred := [] }
  let c5 := ((c4.dset (entVoice v 0x3000 1) 0).dset (entVoice v 0x4100 8) 0).dset (entVoice v 0x5820 2) 0
  c5.releaseTensorsOf v

/-- The voices V1–V12 that are bound to VFs. -/
def Chip.vfVoices (c : Chip) : List Nat := (rangeFrom 1 12).filter (fun v => (c.keep v).binding == 1)

/-- VF Enable becomes 0 with or without a reset of the VFs' voices. -/
def Chip.clearVfs (c : Chip) : Chip :=
  let c1 := { c with pcie := { c.pcie with vfEnable := false } }
  c1.each (rangeFrom 1 12) (fun (c : Chip) v => (c.rebind v).setKeep v { (c.rebind v).keep v with d3 := false })

/-- VF_ENABLE_SET (R250): the VFs take their voices. -/
def Chip.setVfs (c : Chip) (n : Nat) : Chip :=
  if c.pcie.vfEnable || c.isRetired .pcie || decide (c.pcie.identity.totalVfs < n) || !c.pcie.trained then c
  else
    let c1 := { c with pcie := { c.pcie with vfEnable := true, numVfs := n } }
    c1.each (rangeFrom 1 12) Chip.rebind

/-- VF_ENABLE_CLEAR (R305): a write of VF Enable from 1 to 0. -/
def Chip.vfEnableClear (c : Chip) : Chip := if c.pcie.vfEnable then (c.each c.vfVoices Chip.voiceReset).clearVfs else c

/-- A Function Level Reset returns a function's configuration space to its reset values, but for the sticky status of AER. -/
def Chip.resetFn (c : Chip) (fn : Nat) : Chip := c.setPcieFn fn { aer := (c.pcieFn fn).aer }

/-- FUNCTION_LEVEL_RESET (R305, Table 6.19): function 0 is the PF, function k is VF k. The function returns to D0. -/
def Chip.functionReset (c : Chip) (fn : Nat) : Chip :=
  if c.isRetired .pcie || !c.pcie.trained then c
  else if fn = 0 then
    let c1 := (((c.each c.vfVoices Chip.voiceReset).clearVfs).voiceReset 0).resetFn 0
    c1.setKeep 0 { c1.keep 0 with d3 := false }
  else if c.pcie.vfEnable ∧ fn ≤ c.pcie.numVfs then
    let c1 := (c.voiceReset fn).resetFn fn
    c1.setKeep fn { c1.keep fn with d3 := false }
  else c

/-! ### D3hot (R259) -/

/-- The function exists on the link. -/
def Chip.hasFn (c : Chip) (fn : Nat) : Bool :=
  !c.isRetired .pcie && c.pcie.trained && (fn == 0 || (c.pcie.vfEnable && decide (fn ≤ c.pcie.numVfs)))

/-- D3HOT_ENTRY: command fetch of the function's own voice stops. -/
def Chip.enterD3 (c : Chip) (fn : Nat) : Chip :=
  if !c.hasFn fn then c
  else
    let c1 := if c.onPcie fn then c.ringStop fn else c
    c1.setKeep fn { c1.keep fn with d3 := true }

/-- D0_RETURN. -/
def Chip.leaveD3 (c : Chip) (fn : Nat) : Chip := if c.hasFn fn then c.setKeep fn { c.keep fn with d3 := false } else c

/-! ### Failures of host memory (R260, R261, R314, R847) -/

/-- The move reads or writes tier 3. -/
def Chip.usesHost (c : Chip) (m : Move) : Bool :=
  match m.kind with
  | .toHost _ => true
  | _ => (c.tensor? m.tensor).any (fun x => x.home == 3)

/-- A move's host access fails: the command completes with 0x0C04_0001, and its voice is STOPPED with cause 3. -/
def Chip.moveFails (c : Chip) (m : Move) : Chip := (c.moveEnds m 0x0C040001).hostFailure m.voice 3

/-- R260: the failure is reported through AER as the PCI Express specification requires: a timeout and a poisoned completion set
their bits of the Uncorrectable Error Status register, and the other two those of the Status register. -/
def Chip.reportError (c : Chip) (fn : Nat) (e : HostError) : Chip :=
  let x := c.pcieFn fn
  let c1 := c.setPcieFn fn (match e with
    | .unsupportedRequest => { x with status := setBit x.status 13 }
    | .completerAbort => { x with status := setBit x.status 12 }
    | .completionTimeout => { x with aer := setBit x.aer 14 }
    | .poisoned => { x with aer := setBit x.aer 12 })
  { c1 with pcie := { c1.pcie with reported := (fn, e) :: c1.pcie.reported } }

/-- HOST_MEMORY_FAILURE: an access of voice v fails; a data DMA is its oldest tier 3 move. -/
def Chip.hostTrouble (c0 : Chip) (v cause : Nat) (e : HostError) : Chip :=
  if 15 < v ∨ cause < 1 ∨ 3 < cause then c0
  else
    let c := if c0.onPcie v then c0.reportError v e else c0
    match cause == 3, c.moves.find? (fun m => m.voice == v && c.usesHost m) with
    | true, some m => c.moveFails m
    | _, _ => c.hostFailure v cause

/-- PCIE_PERST_N_ASSERT (R847). -/
def Chip.perstLow (c : Chip) : Chip :=
  if c.pcie.perstLow then c
  else
    let c1 := (c.moves.filter (fun m => c.onPcie m.voice && c.usesHost m)).foldl Chip.moveFails c
    let c2 := { c1 with pcie := { c1.pcie with perstLow := true, trained := false, vfEnable := false, numVfs := 0, fns := [] } }
    c2.each (List.range 13) (fun (c : Chip) v =>
      let c1 := c.setKeep v { c.keep v with d3 := false }
      if v ≠ 0 ∧ (c1.keep v).binding = 1 then c1.unbind v else c1)

/-- PCIE_PERST_N_RELEASE: the link retrains, to a width and a rate of Table 6.3 that the other end decides (free values, log
entry 7). -/
def Chip.perstHigh (c : Chip) : Chip :=
  let f := c.fresh .link
  let g := f.1.fresh .link
  { g.1 with pcie := { g.1.pcie with
      perstLow := false, trained := true, width := [4, 2, 1].getD (f.2 % 3) 4, rate := [160, 80, 50, 25].getD (g.2 % 4) 160 } }

end Sys2Proof.Machine
end

