-- ==== Sys2Proof/Machine/Answer.lean ====
section
/-! DEFINITION. How the dictionary server's answer leaves by each transport (R213, R221, R263, R282, R292, R295, R686). -/

namespace Sys2Proof.Machine

/-! ### CAN FD (Table 5.8) -/

/-- R213: a frame of the server in a given format. -/
def Chip.serverFrameAs (c : Chip) (p : Nat) (fdf brs : Bool) (data : List Byte) : CanFrame :=
  let i := c.canId p 0x5C0
  { ide := i.1, ident := i.2, fdf, brs, esi := false, rtr := false, data := if fdf then padTo (fdLength data.length) data else data }

/-- A frame of the server in the format of the port's present transaction. -/
def Chip.serverFrame (c : Chip) (p : Nat) (data : List Byte) : CanFrame :=
  c.serverFrameAs p (c.port p).rspFdf (c.port p).rspBrs data

/-- Byte 0 of a protocol frame. -/
def commandByte (code tag : Nat) : Byte := BitVec.ofNat 8 (code * 16 + tag)

/-- Bytes 1–3: index and subindex. -/
def indexBytes (idx sub : Nat) : List Byte := leBytes 2 idx ++ leBytes 1 sub

/-- The bytes of an ABORT frame and of a DONE frame. -/
def abortBytes (tag idx sub code : Nat) : List Byte := commandByte 0xE tag :: indexBytes idx sub ++ leBytes 4 code
def doneBytes (tag idx sub : Nat) : List Byte := commandByte 0xA tag :: indexBytes idx sub

/-- R221: the transaction of a tag is complete. -/
def Chip.canComplete (c : Chip) (p tag : Nat) : Chip := c.setPort p { c.port p with lastTag := some tag }

/-- The answer to a request that the server has accepted is an ABORT. -/
def Chip.canAbort (c : Chip) (p tag idx sub code : Nat) : Chip :=
  (c.canRespond p (c.serverFrame p (abortBytes tag idx sub code))).canComplete p tag

/-- An ABORT that answers no accepted request: a protocol error, a timeout, or a request that R223 refuses. It ends the open
transfer and enters no replay cache (Table 5.1, log entry 68). -/
def Chip.canRefuse (c : Chip) (p tag idx sub code : Nat) : Chip :=
  let c1 := (c.canQueue p (c.serverFrame p (abortBytes tag idx sub code))).canComplete p tag
  c1.setPort p { c1.port p with transfer := none }

/-- The answer to a WRITE on a CAN port, in its own transaction's format. -/
def Chip.canWriteAnswer (c : Chip) (q : DictReq) (code : Nat) : Chip :=
  let p := q.voice - 13
  let data := if code = 0 then doneBytes q.via.tag q.idx q.sub else abortBytes q.via.tag q.idx q.sub code
  (c.canRespond p (c.serverFrameAs p q.fdf q.brs data)).canComplete p q.via.tag

/-! ### USB (Table 6.15) -/

/-- R295: a STALL; the abort code, index, subindex and tag are kept for GET_ABORT. -/
def Chip.usbStall (c : Chip) (code idx sub tag : Nat) : Chip :=
  { c with usb := { c.usb with reply := none, pendingWrite := none
                               abort := leBytes 4 code ++ leBytes 2 idx ++ leBytes 1 sub ++ leBytes 1 tag } }

/-- The setup packet of a write that came by USB (Table 6.15). -/
def DictReq.setup (q : DictReq) : UsbSetup := ⟨0x40, 2, q.idx, 256 * q.via.tag + q.sub, q.data.length⟩

/-- R292, R295, R296: a write whose status stage has begun ends: an executed one is kept for the replay, an aborted one for
GET_ABORT. The host hears of it only where that status stage is still open. -/
def Chip.usbWriteEnds (c : Chip) (q : DictReq) (code : Nat) : Chip :=
  let u := c.usb
  let u1 := if code = 0 then { u with lastReq := some (q.setup, q.data), lastAnswer := some [] }
    else { u with abort := leBytes 4 code ++ leBytes 2 q.idx ++ leBytes 1 q.sub ++ leBytes 1 q.via.tag }
  { c with usb := if u.statusWaits then { u1 with statusWaits := false, reply := if code = 0 then some [] else none } else u1 }

/-- A control request is answered, and kept for the replay of R296. -/
def Chip.usbAnswer (c : Chip) (req : UsbSetup × List Byte) (data : List Byte) : Chip :=
  { c with usb := { c.usb with reply := some data, pendingWrite := none, lastReq := some req, lastAnswer := some data } }

/-- R293, R303: what a bus reset and a detachment share: no write is pending, the device is not configured. -/
def Chip.usbUnconfigure (c : Chip) : Chip :=
  let c1 := { c with usb := { c.usb with pendingWrite := none, statusWaits := false, configured := false, halted := false, reply := none } }
  ((c1.dset (ent 0x1810 3) 0).rebind 15)

/-- USB_BUS_RESET (R303, R304): the host's chirp decides between full and high speed (a free value, log entry 7). -/
def Chip.usbBusReset (c : Chip) : Chip :=
  if !c.usb.attached then c
  else
    let f := c.usbUnconfigure.fresh .usbSpeed
    (f.1.dset (ent 0x1810 2) (1 + f.2 % 2)).dinc (ent 0x1810 5)

/-- The device is off the bus: USB_DETACH (R848), or ENABLE has become 0. -/
def Chip.usbGone (c : Chip) : Chip :=
  ({ c.usbUnconfigure with usb := { c.usbUnconfigure.usb with attached := false } }).dset (ent 0x1810 2) 0

/-- The device is on the bus where VBUS is present, ENABLE is 1 and the port is in service, from CONFIG on. -/
def Chip.usbThere (c : Chip) : Chip :=
  let up := c.engine != .reset && c.engine != .boot && c.engine != .selftest
  { c with usb := { c.usb with attached := c.usbAttaches && up } }

/-! ### The mesh tunnel (Table 13.11) -/

/-- A DICT_RSP of voice v. -/
def Chip.tunnelAnswer (c : Chip) (v tag code : Nat) (value : List Byte) : Chip :=
  let payload := leBytes 4 code ++ value
  let c1 := c.setTunnel v { c.tunnel v with lastRsp := payload }
  (c1.toOrigin v 0x14 1 tag payload).1

/-! ### Every transport -/

/-- What the server answered to a voice's last operation. -/
def Chip.noteReply (c : Chip) (v op idx sub abort : Nat) (data : List Byte) : Chip :=
  { c with reply := some ⟨v, op, idx, sub, abort, data⟩ }

/-- The register window's operation ends (R263). -/
def Chip.windowEnds (c : Chip) (v code : Nat) : Chip :=
  c.setVoice v { c.voice v with dictBusy := false, dictAbort := code }

/-- The answer of a WRITE by its transport (Table 4.14). -/
def Chip.respond (c0 : Chip) (q : DictReq) (code : Nat) : Chip :=
  let c := c0.noteReply q.voice 2 q.idx q.sub code []
  match q.via.transport with
  | 1 => c.windowEnds q.voice code
  | 2 => c.complete q.voice q.via.tag 8 q.cookie q.irq code 0 0
  | 3 => c.canWriteAnswer q code
  | 4 => c.usbWriteEnds q code
  | 5 => c.tunnelAnswer q.voice q.via.tag code []
  | _ => c

end Sys2Proof.Machine
end

