-- ==== Sys2Proof/Machine/Hooks.lean ====
section
/-! DEFINITION. What a dictionary write checks and does beyond its stored value, for the entries of chapters 4, 5, 6, 13 and
15 (R71 to R91, R161 to R199, R254, R310 to R312, R635, R639, R671, R744, R751, R871). -/

namespace Sys2Proof.Machine

/-! ### Engine state (Table 4.10, R172 to R174, R763 to R767) -/

/-- R172, R173, R766: the check of a request within the range 3 to 6. -/
def Chip.requestCheck (c : Chip) (value : Nat) : Nat :=
  match c.engine, value with
  | .config, 4 => if c.notReady then 0x0A030003 else 0
  | .ready, 3 | .ready, 5 | .ready, 6 | .run, 4 | .run, 6 => 0
  | .hold, 4 => if c.tooHot then 0x0A040001 else 0
  | _, 3 | _, 4 | _, 5 | _, 6 => 0x0A040001
  | _, _ => 0

/-- The transition that a request makes. -/
def Chip.requestCommit (c : Chip) (value : Nat) : Chip :=
  match c.engine, value with
  | .config, 4 => c.enterReady
  | .ready, 3 => (c.enterConfig).each (List.range 6) Chip.stringLocks
  | .ready, 5 => c.askState .run
  | .run, 4 => c.askState .ready
  | .ready, 6 | .run, 6 => c.goHold 1
  | .hold, 4 => c.startHoldExit
  | _, _ => c

/-! ### CAN ports (R190 to R195, R242) -/

/-- The bit time of DATA_TIMING in CAN clock periods. -/
def dataQuanta (t : Nat) : Nat := (bits t 28 24 + 1) * (3 + bits t 20 16 + bits t 11 8)

/-- R193, Table 5.3: a nominal timing out of range. The CAN clock is 80 MHz. -/
def badNominal (t : Nat) : Bool :=
  bit t 15 || bit t 7 || bits t 23 16 == 0 || bits t 14 8 == 0 || decide (bits t 14 8 < bits t 6 0) ||
  decide (nominalBit t < 80) || decide (640 < nominalBit t)

/-- R193: a data timing out of range. -/
def badData (t : Nat) : Bool :=
  bits t 31 29 != 0 || bits t 23 21 != 0 || bits t 15 12 != 0 || bits t 7 4 != 0 ||
  decide (bits t 11 8 < bits t 3 0) || decide (dataQuanta t < 10)

/-- Reserved bits of the TDC layout. -/
def badTdc (t : Nat) : Bool := bits t 30 15 != 0 || bit t 7

/-- R195, R242: entries that stand while ENABLE is 1, and RECOVER outside bus-off. -/
def Chip.canFixed (c : Chip) (p sub : Nat) : Bool :=
  (c.dbool (canKey p 1) && (sub == 2 || sub == 4 || sub == 7 || sub == 8 || sub == 9)) || (sub == 12 && c.dget (canKey p 13) != 3)

/-- R193, R194, R242: the checks of a write to an entry of Table 5.12. -/
def Chip.canCheck (c : Chip) (p sub value : Nat) : Nat :=
  match sub with
  | 7 =>
    if badNominal value then 0x0A030001 else if nominalBit value < dataQuanta (c.dget (canKey p 8)) then 0x0A030003 else 0
  | 8 =>
    if badData value then 0x0A030001 else if nominalBit (c.dget (canKey p 7)) < dataQuanta value then 0x0A030003 else 0
  | 9 => if badTdc value then 0x0A030001 else 0
  | _ => 0

/-- The effect of a committed write to an entry of Table 5.12: a port joins or leaves the bus, its node number decides its
voice's binding (Table 6.2), and recovery starts. TDCV of TDC keeps its value. -/
def Chip.canCommit (c : Chip) (p sub old value : Nat) : Chip :=
  match sub with
  | 1 =>
    if old = value then c
    else if value = 1 then c else c.attemptStops p
  | 2 => (if c.node p = 0 then c.attemptStops p else c).rebind (13 + p)
  | 9 => c.dset (canKey p 9) (value - bits value 14 8 * 256 + bits old 14 8 * 256)
  | 12 => if (c.port p).recovering then c else c.setPort p ((c.port p).recover c.now)
  | _ => c

/-! ### Cue slots (R70, R71, R80, R81, R91) -/

/-- The state check of a write to an ARMED slot that does not depend on the value (R71, R81). -/
def Chip.cueFixed (c : Chip) (s sub : Nat) : Bool := (c.cue s).armed && 2 ≤ sub && sub ≤ 6

/-- The checks of a write to a cue slot beside its range. An arm that the rate of R871 holds back is checked when it
reaches the unit. -/
def Chip.cueCheck (c : Chip) (v s sub value : Nat) : Nat :=
  let q := c.cue s
  if sub ≠ 1 then 0
  else if value = 0 then (if q.armed && (q.armedBy != v || q.use.isSolve) then 0x0A040001 else 0)
  else if value ≠ 1 then 0
  else if c.armsNow then c.armCheck v s q.action q.target q.period q.arg false
  else 0

/-- A committed write to a cue slot. -/
def Chip.cueCommit (c : Chip) (v s sub value : Nat) : Chip :=
  let q := c.cue s
  match sub with
  | 1 =>
    if value = 1 then { c.armVoice v s q.action q.target q.period q.remaining q.arg with lastArm := some c.now }
    else match c.cancelSlot v s with
      | some r => r.1
      | none => c
  | 2 => c.setCue s { q with action := value }
  | 3 => c.setCue s { q with target := value }
  | 4 => c.setCue s { q with period := value }
  | 5 => c.setCue s { q with remaining := value }
  | 6 => c.setCue s { q with arg := value }
  | _ => c

/-! ### Broadcast channels (R181 to R184, R199, R233) -/

/-- R183: an entry of a channel that stands while its ENABLE is 1. -/
def Chip.bcFixed (c : Chip) (idx sub : Nat) : Bool :=
  if idx < 0x7020 then c.dbool (bcKey (idx - 0x7000) 1) && sub != 1 && sub != 5
  else c.dbool (bcKey (idx - 0x7020) 1)

/-- R199: the pool mailbox that a channel would take on port p. -/
def Chip.poolMailbox (c : Chip) (p : Nat) : Option Nat :=
  (rangeFrom 5 27).find? (fun m => !((c.port p).mb m).host && ((c.port p).mb m).channel.isNone)

/-- The bytes of one message of channel k. -/
def Chip.messageSize (c : Chip) (k : Nat) : Nat :=
  ((List.range (c.mapCount k)).map (fun j => c.mapEntry k j % 256)).foldl (· + ·) 0

/-- R182: the channel's identifier is one of the engine's own on port p. -/
def Chip.ownIdentifier (c : Chip) (p k : Nat) : Bool :=
  decide (2 ≤ k) && [0x0A0, 0x1A0, 0x2A0, 0x540, 0x5C0, 0x760].any (fun base => c.canId p base == c.channelId p k)

/-- R182, R233: the checks of a write of 1 to ENABLE; one that is on has its mailbox and its cue slot already. -/
def Chip.bcEnableCheck (c : Chip) (k : Nat) : Nat :=
  let t := c.dget (bcKey k 2)
  let off := !c.dbool (bcKey k 1)
  let size := c.messageSize k
  let can := decide (t < 2)
  let gone := if can then !c.canAlive t else c.isRetired .usb
  let bad := decide (64 < size) || gone || (can && c.ownIdentifier t k) || (can && decide (8 < size) && !c.dbool (canKey t 5))
  let timed := c.dget (bcKey k 4) == 0
  firstCode [if bad then 0x0A030003 else 0,
             if off && timed && c.badTimes 0 (c.dget (bcKey k 7)) (c.dget (bcKey k 6)) 0 then 0x0A030001 else 0,
             if off && ((can && decide (2 ≤ k) && (c.poolMailbox t).isNone) || (timed && c.freeEngineSlot.isNone)) then 0x0A050001
             else 0]

/-- The checks of a write to an entry of 0x7000+k. -/
def Chip.bcCheck (c : Chip) (k sub value : Nat) : Nat :=
  match sub with
  | 1 => if value = 1 then c.bcEnableCheck k else 0
  | 6 => if c.badTimes 0 c.posNat value 0 then 0x0A030001 else 0
  | _ => 0

/-- A channel is switched on: its mailbox and its cue slot are taken. -/
def Chip.bcEnable (c : Chip) (k : Nat) : Chip :=
  let t := c.dget (bcKey k 2)
  let c1 := if t < 2 ∧ 2 ≤ k then
      match c.poolMailbox t with
      | some m => c.setPort t ((c.port t).setMb m { (c.port t).mb m with channel := some k })
      | none => c
    else c
  if c.dget (bcKey k 4) = 0 then
    match c1.armEngine 0 (c.dget (bcKey k 7)) (c.dget (bcKey k 6)) 0 (.broadcast k) with
    | some (c2, _) => c2
    | none => c1
  else c1

/-- A channel is switched off: its cue slot and its mailbox are released, and a message not yet sent goes with them. -/
def Chip.bcDisable (c : Chip) (k : Nat) : Chip :=
  let t := c.dget (bcKey k 2)
  let c1 := { c.freeUse (.broadcast k) with unsent := tabDel c.unsent k }
  if t < 2 ∧ 2 ≤ k then
    match c1.channelMailbox t k with
    | some m =>
      let b := (c1.port t).mb m
      c1.setPort t ((c1.port t).setMb m (if b.st = .active then { b with channel := none, next := [] } else {}))
    | none => c1
  else c1

/-- The effect of a committed write to an entry of 0x7000+k. -/
def Chip.bcCommit (c : Chip) (k sub old value : Nat) : Chip :=
  if sub = 1 ∧ old ≠ value then (if value = 1 then c.bcEnable k else c.bcDisable k) else c

/-! ### Strings and routing (R635, R639, R671) -/

/-- The checks of a write to an entry of Table 13.14. ROLE names a role other than OFF in mesh mode only. -/
def Chip.strCheck (c : Chip) (sub value : Nat) : Nat :=
  match sub with
  | 1 => if value ≠ 0 ∧ c.straps.mode ≠ .mesh then 0x0A030001 else 0
  | 2 => if c.grade = .fi ∧ 16 < value then 0x0A030001 else 0
  | _ => 0

/-- The effect of a committed write to an entry of Table 13.14. -/
def Chip.strCommit (c : Chip) (p sub old value : Nat) : Chip :=
  match sub with
  | 1 => if old = value then c else if value = 0 then c.setStrState p 0 else c.stringLocks p
  | 3 => c.widthRequired p
  | _ => c

/-- Table 13.16: DETOUR_ENTRY's reserved bits are zero and its port is 0 to 5. -/
def badDetour (value : Nat) : Bool := bits value 5 3 != 0 || decide (5 < bits value 2 0)

/-- The entry of the address in DETOUR_SELECT changes. -/
def Chip.setDetour (c : Chip) (value : Nat) : Chip :=
  let a := c.dget (routeKey 3)
  ({ c with mesh := { c.mesh with
      detours := if value = 0 then tabDel c.mesh.detours a else tabSet c.mesh.detours a value } }).rerouteAll

/-- Every entry of the detour table is 0. -/
def Chip.clearDetours (c : Chip) : Chip := ({ c with mesh := { c.mesh with detours := [] } }).rerouteAll

/-! ### Voice entries (R254, R305, R310 to R312) -/

/-- The capacity item of a quota or share entry, and the sum over V1–V15 with one changed. -/
def Chip.sumWith (c : Chip) (key : Nat → Nat) (w value : Nat) : Nat :=
  ((rangeFrom 1 15).map (fun x => if x = w then value else c.dget (key x))).foldl (· + ·) 0

/-- The checks of a write to an entry of voice w's range, B + k. -/
def Chip.voiceCheck (c : Chip) (w k sub value : Nat) : Nat :=
  match k, sub with
  | 0, 4 => if w = 0 then 0x0A030001 else 0
  | 0, 5 =>
    if value = 0 then 0
    else if c.straps.mode ≠ .mesh ∨ w = 0 ∨ 12 < w then 0x0A030001
    else if c.pcie.vfEnable && decide (w ≤ c.pcie.numVfs) then 0x0A030003 else 0
  | 1, _ => if c.capacity (sub - 1) < c.sumWith (fun x => ent (vIdx x 1) sub) w value then 0x0A030003 else 0
  | _, _ => 0

/-- The effect of a committed write to an entry of voice w's range. -/
def Chip.voiceCommit (c : Chip) (w k sub value : Nat) : Chip :=
  match k, sub with
  | 0, 4 => c.voiceReset w
  | 0, 5 => if w = 0 then c else c.rebind w
  | 1, _ => if sub ≤ 3 then c.reshare (sub - 1) else c.dset (ent (vIdx w 2) (sub + 5)) value
  | _, _ => c

/-- R311: the sum of the solver's shares over V1–V15 within TOTAL. -/
def Chip.shareCheck (c : Chip) (sub value : Nat) : Nat :=
  if 4 ≤ sub ∧ sub ≤ 18 ∧ c.dget (ent 0x3800 1) < c.sumWith (fun x => ent 0x3800 (3 + x)) (sub - 3) value then 0x0A030003
  else 0

/-! ### The governor (R744, R751) and single entries -/

/-- The checks of a write to the governor's entries. -/
def Chip.govCheck (c : Chip) (sub value : Nat) : Nat :=
  match sub with
  | 2 => if c.floor < value then 0x0A030003 else 0
  | 3 => if value < c.ceiling then 0x0A030003 else 0
  | 5 => if value ≤ c.dget (govKey 6) then 0x0A030003 else 0
  | 6 => if c.dget (govKey 5) ≤ value then 0x0A030003 else 0
  | _ => 0

end Sys2Proof.Machine
end

