-- ==== Sys2Proof/Machine/Server.lean ====
section
/-! DEFINITION. The dictionary server: the checks of Table 4.7, READ, WRITE and DESCRIBE, commits with their journal records,
restore, and deferred writes and arms (R141 to R180, R871). -/

namespace Sys2Proof.Machine

/-! ### Finding an entry (R140, R143) -/

/-- The row of an entry, subindex 0 of an allocated index among them. -/
def findEntry (idx sub : Nat) : Option Entry := if sub = 0 ∧ indexAllocated idx then some subZero else entryRow idx sub

/-- Checks 1 and 2 of Table 4.7. -/
def missingCode (idx sub : Nat) : Nat :=
  if !indexAllocated idx then 0x0A010001 else if (findEntry idx sub).isNone then 0x0A010002 else 0

/-- The estimator instance that a voice has selected (R437). -/
def Chip.selected (c : Chip) (v : Nat) : Nat := c.dget (entVoice v 0x3000 1)

/-- The bytes of an entry as voice v reads it. -/
def Chip.readBytes (c : Chip) (v idx sub : Nat) (e : Entry) : List Byte :=
  if sub = 0 then leBytes 1 (highestSub idx)
  else if e.ty.size = 0 then c.viewBlob v (c.selected v) idx sub
  else leBytes e.ty.size (c.viewNat v (c.selected v) idx sub)

/-- A value of a fixed-size type. -/
def fixedSize (idx sub : Nat) : Bool := (findEntry idx sub).any (fun e => e.ty.size != 0)

/-! ### The engine state (Table 4.6) -/

/-- R147: no transport answers in RESET, BOOT and SELFTEST. -/
def Chip.silent (c : Chip) : Bool := c.engine == .reset || c.engine == .boot || c.engine == .selftest

/-- READ and DESCRIBE: in FAULTED only the entries that explain it. -/
def Chip.readState (c : Chip) (idx : Nat) : Nat :=
  if c.silent then 0x0A040001
  else if c.engine = .faulted then
    (if (0x1000 ≤ idx ∧ idx ≤ 0x1020) ∨ (0x1F00 ≤ idx ∧ idx ≤ 0x1F3F) ∨ (0x5800 ≤ idx ∧ idx ≤ 0x5820) then 0 else 0x0A040001)
  else 0

/-- WRITE. -/
def Chip.writeState (c : Chip) (idx sub : Nat) (e : Entry) : Nat :=
  match c.engine with
  | .config => 0
  | .ready | .run => if e.cond = .config then 0x0A040001 else 0
  | .hold => if (idx = 0x1001 ∧ sub = 2) ∨ (0x5000 ≤ idx ∧ idx ≤ 0x5020) then 0 else 0x0A040001
  | _ => 0x0A040001

/-! ### Checks 3 to 8 -/

/-- Check 3 (R18, R145, R438): the entry belongs to another voice. A locked BINDING is nobody's own (Table 16.6). -/
def Chip.foreign (c : Chip) (v idx sub : Nat) (e : Entry) (write : Bool) : Nat :=
  let range := 0x8000 ≤ idx && idx ≤ 0x83FF && (idx - 0x8000) / 0x40 != v
  let est := write && 0x3000 ≤ idx && idx ≤ 0x3048 && !(idx == 0x3000 && sub == 1) && c.estVoice (c.selected v) != v
  if v ≠ 0 ∧ (bit (c.accessOf idx sub e) 3 || range || est) then 0x0A020003 else 0

/-- Check 4 of a WRITE (R70, R146, R797): class, slots 0–255, and a locked binding. -/
def Chip.unwritable (c : Chip) (idx sub : Nat) (e : Entry) : Nat :=
  if !e.writable || (0x2C00 ≤ idx && idx < 0x2D00) || (idx == 0x1020 && sub == 1 && c.flash.binding.isSome) then 0x0A020001 else 0

/-- Check 5 (R136, R722). -/
def wrongLength (idx sub n : Nat) (e : Entry) : Bool :=
  if idx = 0x1820 ∧ sub = 16 then n == 0 || decide (4097 ≤ n) else !e.goodLength n

/-- Check 6: an entry's own state, where no value decides it (R71, R81, R170, R183, R195, R242, R442, R498). -/
def Chip.ownState (c : Chip) (v idx sub : Nat) (e : Entry) : Nat :=
  let stands :=
    if 0x1800 ≤ idx ∧ idx ≤ 0x1801 then c.canFixed (idx - 0x1800) sub
    else if idx = 0x1820 then c.bzFixed sub
    else if 0x2000 ≤ idx ∧ idx ≤ 0x2005 then c.camFixed v (idx - 0x2000) sub
    else if 0x2100 ≤ idx ∧ idx ≤ 0x210F then c.inFixed v (idx - 0x2100) sub
    else if 0x2C00 ≤ idx ∧ idx ≤ 0x2FFF then c.cueFixed (idx - 0x2C00) sub
    else if 0x3000 ≤ idx ∧ idx ≤ 0x3048 then
      (e.cond == .stopped && c.estOn (c.selected v)) || c.estFixed (c.selected v) idx sub
    else if 0x7000 ≤ idx ∧ idx ≤ 0x703F then c.bcFixed idx sub
    else (idx == 0x1020 && sub == 2 && c.flash.binding.isSome) || (idx == 0x1101 && sub == 1 && c.engine == .run)
  if stands then 0x0A040001 else 0

/-- Check 8 (R149): the unit that an entry belongs to: the instance whose index it stands at, and of an inertial channel's
index rows 48 to 57 the group's SPI master (Table 8.9). The rows that a group shares stop with the channel that they are
written through. -/
def unitOf (idx sub : Nat) : Option UnitName :=
  if 0x1800 ≤ idx ∧ idx ≤ 0x1801 then some (.canPort (idx - 0x1800))
  else if idx = 0x1810 then some .usb
  else if idx = 0x1820 then some .breeze
  else if 0x2000 ≤ idx ∧ idx ≤ 0x2005 then some (.camera (idx - 0x2000))
  else if 0x2100 ≤ idx ∧ idx ≤ 0x210F then
    (if 48 ≤ sub then some (.spiMaster ((idx - 0x2100) / 4))
     else some (.inertial (idx - 0x2100)))
  else if 0x2180 ≤ idx ∧ idx ≤ 0x2183 then some (.encoder (idx - 0x2180))
  else if 0x3810 ≤ idx ∧ idx ≤ 0x3813 then some (.lane (idx - 0x3810))
  else if 0x4000 ≤ idx ∧ idx ≤ 0x400F then some (.array (idx - 0x4000))
  else if 0x4800 ≤ idx ∧ idx ≤ 0x4805 then some (.string (idx - 0x4800))
  else if idx = 0x4820 then some .meshRouter
  else none

/-- Checks 3 to 8 of a WRITE of n bytes; check 7 depends on the value. -/
def Chip.earlyCodes (c : Chip) (v idx sub n : Nat) (e : Entry) : List Nat :=
  [c.foreign v idx sub e true, c.unwritable idx sub e, if wrongLength idx sub n e then 0x0A030002 else 0,
   c.writeState idx sub e, c.ownState v idx sub e, if (unitOf idx sub).any c.isRetired then 0x0A070001 else 0]

/-- Checks 1 to 8 of a WRITE of n bytes (R216). -/
def Chip.checkEarly (c : Chip) (v idx sub n : Nat) : Nat :=
  match findEntry idx sub with
  | none => missingCode idx sub
  | some e => firstCode (c.earlyCodes v idx sub n e)

/-! ### READ and DESCRIBE -/

/-- A read of DESCRIPTOR (0x4100:10) needs a tensor in SELECT that the voice can read (R600, Table 12.10). -/
def Chip.descriptorCode (c : Chip) (v idx sub : Nat) : Nat :=
  if idx = 0x4100 ∧ sub = 10 then
    let t := c.dget (entVoice v 0x4100 8)
    match c.tensor? t with
    | none => 0x0A030001
    | some x => if x.doom.isSome then 0x0A030001 else if x.readable t v then 0 else 0x0A020003
  else 0

/-- READ: the abort code and the value (R142, R145 to R149). -/
def Chip.dictRead (c : Chip) (v idx sub : Nat) : Nat × List Byte :=
  match findEntry idx sub with
  | none => (missingCode idx sub, [])
  | some e =>
    let code := firstCode [c.foreign v idx sub e false, if e.readable then 0 else 0x0A020002, c.readState idx,
      c.descriptorCode v idx sub]
    if code = 0 then (0, c.readBytes v idx sub e) else (code, [])

/-- DESCRIBE: the abort code and the layout of Table 4.3 (R141). -/
def Chip.dictDescribe (c : Chip) (v idx sub : Nat) : Nat × List Byte :=
  match findEntry idx sub with
  | none => (missingCode idx sub, [])
  | some e =>
    let code := c.readState idx
    if code ≠ 0 then (code, [])
    else if sub = 0 then
      (0, leBytes 1 e.ty.code ++ leBytes 1 e.access ++ leBytes 2 1 ++ List.replicate 12 0 ++ leBytes 1 (highestSub idx) ++
          [0, 255])
    else (0, c.describeBytes v (c.selected v) idx sub e)

/-! ### The checks that depend on the value -/

/-- R181: a write to MAP_k names an entry that V0 can read, of the length given. -/
def Chip.mapCheck (c : Chip) (value : Nat) : Nat :=
  let idx := value / 0x10000
  let sub := value / 256 % 256
  let code := (c.dictRead 0 idx sub).1
  if code ≠ 0 then code
  else match findEntry idx sub with
    | some e => if e.ty.size ≠ 0 ∧ e.ty.size = value % 256 then 0 else 0x0A030002
    | none => 0

/-- The entry's own checks beside its range, as a code of Table 4.7; 0 is good. -/
def Chip.ownCheck (c : Chip) (v idx sub value : Nat) (data : List Byte) : Nat :=
  if 0x1800 ≤ idx ∧ idx ≤ 0x1801 then c.canCheck (idx - 0x1800) sub value
  else if 0x2000 ≤ idx ∧ idx ≤ 0x2005 then c.camCheck (idx - 0x2000) sub value
  else if 0x2100 ≤ idx ∧ idx ≤ 0x210F then c.inCheck (idx - 0x2100) sub value
  else if 0x2180 ≤ idx ∧ idx ≤ 0x2183 then c.encCheck (idx - 0x2180) sub value
  else if 0x2C00 ≤ idx ∧ idx ≤ 0x2FFF then c.cueCheck v (idx - 0x2C00) sub value
  else if 0x3000 ≤ idx ∧ idx ≤ 0x3048 then
    (if idx = 0x3000 ∧ sub = 1 then 0 else c.estCheck v (c.selected v) idx sub value)
  else if 0x4800 ≤ idx ∧ idx ≤ 0x4805 then c.strCheck sub value
  else if 0x7000 ≤ idx ∧ idx ≤ 0x701F then c.bcCheck (idx - 0x7000) sub value
  else if 0x7020 ≤ idx ∧ idx ≤ 0x703F then (if 2 ≤ sub then c.mapCheck value else 0)
  else if 0x8000 ≤ idx ∧ idx ≤ 0x83FF then c.voiceCheck ((idx - 0x8000) / 0x40) (idx % 0x40) sub value
  else match idx, sub with
    | 0x1001, 2 => c.requestCheck value
    | 0x1018, 3 => if c.dget (ent 0x1018 1) < value then 0x0A090001 else 0
    | 0x1100, 1 => c.storeCheck
    | 0x1820, 16 => c.txCheck data
    | 0x1820, s => c.bzCheck s value
    | 0x2800, 1 => if c.hasSource value then 0 else 0x0A030001
    | 0x3800, 21 => c.evictCheck v value
    | 0x3800, s => c.shareCheck s value
    | 0x4100, 11 => c.createCheck v data
    | 0x4100, 12 | 0x4100, 13 => c.ownedCheck v value
    | 0x4820, 4 => if badDetour value then 0x0A030001 else 0
    | 0x5000, s => c.govCheck s value
    | 0x5010, 11 => if c.grade = .mc ∧ 720 < value then 0x0A030001 else 0
    | 0x5820, 10 => if c.board.pfail then 0x0A080002 else 0
    | 0x6000, 12 => c.installCheck v value
    | _, _ => 0

/-- The abort code of a WRITE, 0 where it can commit now (R151). The code that a mapped entry's own READ would give (R181)
stands behind checks 1 to 8. -/
def Chip.writeCode (c : Chip) (v idx sub : Nat) (data : List Byte) : Nat :=
  match findEntry idx sub with
  | none => missingCode idx sub
  | some e =>
    let early := c.earlyCodes v idx sub data.length e
    if wrongLength idx sub data.length e then firstCode early
    else
      let value := leNat data
      let own := c.ownCheck v idx sub value data
      let range := if e.ty.size = 0 ∨ e.inRange value then 0 else 0x0A030001
      let code := firstCode (own :: range :: early)
      if code = 0 then own else code

/-- R216, R292: the checks that remain when the last bytes of an opened WRITE arrive, and its length. In FAULTED nothing is
written (R147). -/
def Chip.lateCode (c : Chip) (v idx sub : Nat) (data : List Byte) : Nat :=
  match findEntry idx sub with
  | none => missingCode idx sub
  | some e =>
    let value := leNat data
    if wrongLength idx sub data.length e then 0x0A030002
    else if c.engine = .faulted then 0x0A040001
    else
      let own := c.ownCheck v idx sub value data
      let code := firstCode [own, if e.ty.size = 0 ∨ e.inRange value then 0 else 0x0A030001]
      if code = 0 then own else code

/-- The checks that a WRITE has still to pass when it reaches the server. -/
def Chip.codeOf (c : Chip) (q : DictReq) : Nat :=
  if q.opened then c.lateCode q.voice q.idx q.sub q.data else c.writeCode q.voice q.idx q.sub q.data

/-! ### Commits (R153 to R160, R176 to R180) -/

/-- Table 4.14: the record of a commit, as a number of 32 little-endian bytes. -/
def Chip.journalRecord (c : Chip) (seq : Nat) (q : DictReq) : Nat :=
  leNat (leBytes 4 seq ++ leBytes 2 q.idx ++ leBytes 1 q.sub ++ leBytes 1 q.via.transport ++ leBytes 2 q.via.tag ++
         leBytes 2 q.data.length ++ leBytes 4 (crc32 q.data) ++ leBytes 8 c.posNat)

/-- R177, R179: the writer's journal takes the record, and the update counts as a commit of the voice (R160). -/
def Chip.noteCommit (c : Chip) (q : DictReq) : Chip :=
  let k := c.keep q.voice
  let seq := (k.journalSeq + 1) % m32
  c.setKeep q.voice { k with journalSeq := seq, journal := (c.journalRecord seq q :: k.journal).take 8, committed := some c.now }

/-- What a committed write does beside the stored value; `i` is the estimator instance that it addresses. -/
def Chip.entryEffect (c : Chip) (v i idx sub old value : Nat) (data : List Byte) : Chip :=
  if 0x1800 ≤ idx ∧ idx ≤ 0x1801 then c.canCommit (idx - 0x1800) sub old value
  else if 0x2000 ≤ idx ∧ idx ≤ 0x2005 then c.camCommit (idx - 0x2000) sub old value
  else if 0x2100 ≤ idx ∧ idx ≤ 0x210F then c.inCommit (idx - 0x2100) sub old value
  else if 0x2180 ≤ idx ∧ idx ≤ 0x2183 then c.encCommit (idx - 0x2180) sub old value
  else if 0x2C00 ≤ idx ∧ idx ≤ 0x2FFF then c.cueCommit v (idx - 0x2C00) sub value
  else if 0x3000 ≤ idx ∧ idx ≤ 0x3048 then (if idx = 0x3000 ∧ sub = 1 then c else c.estCommit i idx sub old value)
  else if 0x4800 ≤ idx ∧ idx ≤ 0x4805 then c.strCommit (idx - 0x4800) sub old value
  else if 0x7000 ≤ idx ∧ idx ≤ 0x701F then c.bcCommit (idx - 0x7000) sub old value
  else if 0x8000 ≤ idx ∧ idx ≤ 0x83FF then c.voiceCommit ((idx - 0x8000) / 0x40) (idx % 0x40) sub value
  else match idx, sub with
    | 0x1001, 2 => c.requestCommit value
    | 0x1011, 1 => c.takeNonce data
    | 0x1020, 2 => c.lockBinding
    | 0x1100, 1 => c.storeCommit
    | 0x1810, 1 => if value = 1 then c.usbThere else c.usbGone
    | 0x1820, 16 => c.txCommit v data
    | 0x1820, s => c.bzCommit s old value
    | 0x2800, 1 => c.requestSource value
    | 0x2800, 2 => c.requestLines value
    | 0x3800, 21 => c.evictTablature value
    | 0x4100, 11 => c.createTensor v data
    | 0x4100, 12 => c.releaseTensor value
    | 0x4100, 13 => c.refreshTensor value
    | 0x4820, 4 => c.setDetour value
    | 0x4820, 5 => c.clearDetours
    | 0x5000, 2 | 0x5000, 3 => c.boundsChanged (c.dset (ent 0x5000 sub) old)
    | 0x5800, 7 => c.attnAcked
    | 0x5820, 5 => c.overflowCleared
    | 0x5820, 10 => c.persistCleared
    | 0x6000, 12 => c.installCommit value
    | _, _ => c

/-- An entry that stores what is written: readable, and neither a cue slot's nor the detour table's. -/
def storesValue (idx sub : Nat) (e : Entry) : Bool :=
  e.readable && !(0x2C00 ≤ idx && idx ≤ 0x2FFF) && !(idx == 0x4820 && sub == 4)

/-- R169, R171, R441: every RWP entry takes its default, each with its own effect; the calibration content 0x6010–0x601F
and the level requested stay. -/
def Chip.restoreOne (c : Chip) (key : Nat) : Chip :=
  let idx := key / 256 % 0x10000
  let sub := key % 256
  let old := c.dget key
  let new := c.modeDefault key
  if old = new ∨ (0x6010 ≤ idx ∧ idx ≤ 0x601F) ∨ key = ent 0x1018 3 then c
  else
    let i := key / 0x1000000 - 1
    let c1 := c.dset key new
    if idx = 0x3000 ∧ sub = 2 ∧ new = 1 ∧ c.estEnableCheck i ≠ 0 then
      (c1.dset key 0).log 0x0801 0x0020 i (c.estEnableCheck i) 0
    else c1.entryEffect 0 i idx sub old new (leBytes 16 new)

/-- R169: the restore. -/
def Chip.restoreAll (c : Chip) : Chip :=
  let listed := (c.dict.map (fun (p : Nat × Nat) => p.1)).filter (fun k => persistentKey k && !modeKeys.contains k)
  c.each (listed ++ modeKeys) Chip.restoreOne

/-- An entry takes a value with all its effects; `i` is the estimator instance addressed. -/
def Chip.putEntry (c : Chip) (v i idx sub : Nat) (data : List Byte) : Chip :=
  let value := leNat data
  let key := keyOf v i idx sub
  let old := c.dget key
  let c1 := if (entryRow idx sub).any (storesValue idx sub) then c.dset key value else c
  if idx = 0x1101 then c1.restoreAll else c1.entryEffect v i idx sub old value data

/-- R163: an ENABLE that boot has loaded as 1 starts its channel with the checks and effects of a write of 1; one that
fails them reads 0 (log 52, DEDUCED from R441). -/
def Chip.startStored (c : Chip) (idx : Nat) : Chip :=
  let key := ent idx 1
  if !c.dbool key then c
  else
    let c0 := c.dset key 0
    let code := firstCode [if (unitOf idx 1).any c.isRetired then 0x0A070001 else 0, c0.ownCheck 0 idx 1 1 [1]]
    if code = 0 then c.entryEffect 0 0 idx 1 0 1 [1] else c0

/-- The channels that boot has loaded as enabled, at the first entry to CONFIG: cameras, inertial channels, encoders, the
Breeze link and broadcast channels; and the internal cues of the SPI masters (R390). -/
def Chip.startAllStored (c : Chip) : Chip :=
  let c1 := c.each (rangeFrom 0x2000 6 ++ rangeFrom 0x2100 16 ++ rangeFrom 0x2180 4 ++ [0x1820] ++ rangeFrom 0x7000 32)
    Chip.startStored
  c1.each (List.range 4) Chip.spiCue

/-- A write commits: journal record, value and effect in one update (R153), of which a store takes the end (R164). -/
def Chip.commitWrite (c : Chip) (q : DictReq) : Chip :=
  ((c.noteCommit q).putEntry q.voice (c.selected q.voice) q.idx q.sub q.data).snapshotFollows

/-- R160: the voice has committed a write in this update. -/
def Chip.committedNow (c : Chip) (v : Nat) : Bool := (c.keep v).committed == some c.now

/-- The write of an arm that must wait for the rate of R871. -/
def Chip.armMustWait (c : Chip) (q : DictReq) : Bool :=
  decide (0x2D00 ≤ q.idx ∧ q.idx ≤ 0x2FFF ∧ q.sub = 1 ∧ leNat q.data = 1) && !c.armsNow

/-- R871: such an arm joins the ones that wait. -/
def Chip.armLater (c : Chip) (q : DictReq) : Chip :=
  c.queueArm { voice := q.voice, slot := q.idx - 0x2C00, write := some q }

/-- A write whose turn has come aborts, waits for the rate of arms, or commits. -/
def Chip.commitOr (c : Chip) (q : DictReq) (code : Nat) : Chip :=
  if code ≠ 0 then c.respond q code else if c.armMustWait q then c.armLater q else (c.commitWrite q).respond q 0

/-- A write joins those that R160 has put off. -/
def Chip.putOff (c : Chip) (q : DictReq) : Chip :=
  c.setKeep q.voice { c.keep q.voice with deferred := (c.keep q.voice).deferred ++ [q] }

/-- DEFERRED_WRITE_COMMIT (R160): of the voice's deferred writes the one with the lowest TRANSPORT code, and of these the
first to arrive, has its update. -/
def Chip.commitDeferred (c : Chip) (v : Nat) : Chip :=
  let k := c.keep v
  let least := k.deferred.foldl (fun m q => Nat.min m q.via.transport) 255
  match c.committedNow v || c.silent, k.deferred.find? (fun q => q.via.transport == least) with
  | false, some q =>
    let c1 := c.setKeep v { k with deferred := k.deferred.erase q }
    c1.commitOr q (c1.codeOf q)
  | _, _ => c

/-- A WRITE reaches the server (R147, R151, R160, R762): it aborts, commits, or waits for a later update, in which it takes
its turn among the voice's other writes. Before CONFIG nothing answers. -/
def Chip.submit (c0 : Chip) (q : DictReq) : Chip :=
  if c0.silent then c0
  else
    let c := c0.callWake
    let code := c.codeOf q
    if code ≠ 0 then c.respond q code
    else if c.committedNow q.voice then c.putOff q
    else if (c.keep q.voice).deferred.isEmpty then c.commitOr q 0
    else (c.putOff q).commitDeferred q.voice

/-- A READ or DESCRIBE command with its answer recorded. -/
def Chip.query (c0 : Chip) (v op idx sub : Nat) : Chip :=
  if c0.silent then c0
  else
    let c := c0.callWake
    let r := if op = 4 then c.dictDescribe v idx sub else c.dictRead v idx sub
    c.noteReply v op idx sub r.1 r.2

/-! ### Arms that waited (R871) -/

/-- A CUE_ARM command's arm (R280): the slot named or the lowest free one. -/
def Chip.armCommand (c : Chip) (w : ArmWait) : Chip :=
  let done := fun (c : Chip) (code info : Nat) => c.complete w.voice w.tag 6 w.cookie w.irq code info 0
  let slot := if w.slot = 0xFFFF then c.freeVoiceSlot.getD 0xFFFF else w.slot
  let code :=
    if w.slot < 256 then 0x0A020001
    else if 1024 ≤ w.slot ∧ w.slot ≠ 0xFFFF then 0x0A030001
    else if slot = 0xFFFF then
      (if !voiceAction w.action || c.badTimes w.action w.target w.period w.arg then 0x0A030001 else 0x0A050001)
    else c.armCheck w.voice slot w.action w.target w.period w.arg true
  if code ≠ 0 then done c code 0
  else
    -- R280: the command's ledger entry passes to the armed cue
    let c1 := c.armSlot slot w.voice w.action w.target w.period w.remaining w.arg .voice
    done { c1 with lastArm := some c1.now
                   ledger := c1.ledger.map (fun e =>
                     if e.voice = w.voice ∧ e.source = .ring ∧ e.tag = w.tag then { e with source := .cues, tag := slot } else e) } 0 slot

/-- CUE_ARM_COMMIT: the arm that has waited longest takes effect. -/
def Chip.armNext (c : Chip) : Chip :=
  match c.armRateFree, c.armQueue with
  | true, w :: rest =>
    let c1 := { c with armQueue := [] }
    let back := fun (c2 : Chip) => { c2 with armQueue := rest }
    match w.write with
    | none => back (if w.engine then c1.armTakes w.slot else c1.armCommand w)
    | some q =>
      let code := c1.codeOf q
      back (if code ≠ 0 then c1.respond q code else (c1.commitWrite q).respond q 0)
  | _, _ => c

end Sys2Proof.Machine
end

