-- ==== Sys2Proof/Machine/Voices.lean ====
section
/-! DEFINITION. Rejected accesses (R129 to R133, R262) and the voices' rings: doorbells, DICT_GO, admission, the commands
without a family of their own, and completions (R258 to R288, R299, R620 to R624, R681 to R685). -/

namespace Sys2Proof.Machine

/-! ### Access error latches (Table 3.13) -/

/-- R130, R131: one rejected access with its kinds. -/
def ErrLatch.add (l : ErrLatch) (offset data kinds : Nat) : ErrLatch :=
  if l.bits = 0 then { bits := kinds, offset, data, count := 1 }
  else { l with bits := l.bits ||| kinds ||| 0x80000000, count := Nat.min 0xFFFF (l.count + 1) }

/-- R132: a W1C write; an emptied latch counts from 0. -/
def ErrLatch.ack (l : ErrLatch) (value : Nat) : ErrLatch :=
  let left := l.bits - (l.bits &&& value)
  { l with bits := left, count := if left = 0 then 0 else l.count }

/-- R262: an access rejected in voice v's block; interrupt source 3 when the latch leaves zero. -/
def Chip.voiceReject (c : Chip) (v offset data kinds : Nat) : Chip :=
  let x := c.voice v
  let c1 := c.setVoice v { x with err := x.err.add offset data kinds }
  if x.err.bits = 0 then (c1.log 0x0701 0x0090 v 0 0).raise v 3 else c1

/-- R119, R129 to R131, R262: a rejected access of function `fn`; BAR2 offsets come with bit 31 set. -/
def Chip.reject (c : Chip) (fn offset data kinds : Nat) : Chip :=
  if 1 ≤ fn then c.voiceReject fn offset data kinds
  else if 0x1000000 ≤ offset ∧ offset < 0x1010000 then c.voiceReject 0 (offset - 0x1000000) data kinds
  else
    let c1 := { c with ctl := { c.ctl with err := c.ctl.err.add offset data kinds } }
    if c.ctl.err.bits = 0 then c1.log 0x0701 0x0002 0 0 0 else c1

/-- A register of voice v's block at the offset its own function uses. -/
def voiceOffset (v off : Nat) : Nat := if v = 0 then 0x1000000 + off else off

/-- A rejected write to the voice's own block. -/
def Chip.rejectOwn (c : Chip) (v off data kinds : Nat) : Chip := c.reject v (voiceOffset v off) data kinds

/-- R116, R255, R259: voice v's own function reaches its block; a tunnel voice's function finds none. -/
def Chip.ownsBlock (c : Chip) (v : Nat) : Bool :=
  decide (v ≤ 12) && c.hasFn v && !(c.keep v).d3 && !c.onTunnel v

/-! ### Doorbells and RING_ENABLE (R266 to R270) -/

/-- Host memory as the host leaves it before it rings the doorbell. -/
def Chip.hostWrites (c : Chip) (written : List (Nat × List Byte)) : Chip :=
  { c with hostMem := written.foldl (fun m w => Memory.writeBytes m w.1 w.2) c.hostMem }

/-- R269: a TAIL beyond the command ring. -/
def Voice.tailTooFar (x : Voice) (tail : Nat) : Bool := decide (2 ^ x.cmdLog2 < (tail + 0x10000 - x.cmdHead % 0x10000) % 0x10000)

/-- R270: a HEAD ahead of CPL_TAIL, or further behind it than the completion ring is long. -/
def Voice.headTooFar (x : Voice) (head : Nat) : Bool := decide (2 ^ x.cplLog2 < (x.cplTail + 0x10000 - head) % 0x10000)

/-- CMD_DOORBELL (R127, R269, R762): every kind of a rejection is latched. -/
def Chip.cmdDoorbell (c0 : Chip) (v tail : Nat) : Chip :=
  if !c0.ownsBlock v then c0
  else
    let c := c0.callWake
    let x := c.voice v
    let kinds := (if 0xFFFF < tail then 8 else 0) + (if x.tailTooFar (tail % 0x10000) then 16 else 0)
    if kinds ≠ 0 then c.rejectOwn v 0x40 tail kinds else c.setVoice v { x with cmdTail := tail }

/-- CPL_DOORBELL (R127, R270). -/
def Chip.cplDoorbell (c : Chip) (v head : Nat) : Chip :=
  if !c.ownsBlock v then c
  else
    let x := c.voice v
    let kinds := (if 0xFFFF < head then 8 else 0) + (if x.headTooFar (head % 0x10000) then 16 else 0)
    if kinds ≠ 0 then c.rejectOwn v 0x44 head kinds else c.setVoice v { x with cplHead := head }

/-- A write of 0 or 1 to RING_ENABLE. -/
def Chip.writeRing (c : Chip) (v value : Nat) : Chip :=
  if !c.ownsBlock v then c
  else if value = 0 then c.ringStop v
  else if (c.voice v).mayEnable then c.ringStart v
  else c.rejectOwn v 0x08 1 16

/-! ### The dictionary window (R263, R264) -/

/-- DICT_GO. -/
def Chip.dictGo (c : Chip) (v op : Nat) : Chip :=
  if !c.ownsBlock v then c
  else
    let x := c.voice v
    if x.dictBusy ∨ !(op == 1 || op == 2 || op == 4) then c.rejectOwn v 0x208 op 16
    else if c.silent then c
    else
      let idx := x.dictAddr / 0x10000
      let sub := x.dictAddr / 0x100 % 0x100
      if op = 2 then
        (c.setVoice v { x with dictBusy := true }).submit
          { voice := v, via := ⟨1, 0⟩, idx, sub, data := x.dictBuf.readBytes 0 x.dictLen }
      else
        let r := if op = 4 then c.dictDescribe v idx sub else c.dictRead v idx sub
        let c1 := (c.callWake).noteReply v op idx sub r.1 r.2
        let y := c1.voice v
        c1.setVoice v (if r.1 ≠ 0 then { y with dictAbort := r.1 }
          else { y with dictAbort := 0, dictLength := r.2.length, dictBuf := y.dictBuf.writeBytes 0 r.2 })

/-- INT_PENDING_CLEAR: the W1C write. -/
def Chip.ackSources (c : Chip) (v value : Nat) : Chip :=
  if !c.ownsBlock v then c
  else if 0xFF < value then c.rejectOwn v 0x90 value 8
  else
    let x := c.voice v
    c.setVoice v { x with intPending := x.intPending - (x.intPending &&& value) }

/-- HOLDOFF_EXPIRY (R265): the interval since the vector's last message is over, or its mask bit is cleared. -/
def Chip.vectorDue (c : Chip) (v vec : Nat) : Chip :=
  if (c.voice v).waitMsg.contains vec && bit (c.voice v).intCtrl 16 then c.sendVector v vec else c

/-! ### Admission (R271 to R274, R279) -/

/-- The voice's command ring is kept by the engine (R299, R685). -/
def Chip.engineRing (c : Chip) (v : Nat) : Bool := v == 15 || c.onTunnel v

/-- The command at the head of the voice's ring. -/
def Chip.headCommand (c : Chip) (v : Nat) : Option (List Byte) :=
  let x := c.voice v
  if c.engineRing v then x.queue.head?
  else if x.cmdHead = x.cmdTail then none
  else some (c.hostMem.readBytes (x.cmdBase + 64 * (x.cmdHead % 2 ^ x.cmdLog2)) 64)

/-- The engine admits commands: CONFIG, READY and RUN, out of P6 and P7 (Table 4.11, R742, R762). -/
def Chip.admits (c : Chip) : Bool :=
  (c.engine == .config || c.engine == .ready || c.engine == .run) && !c.gov.p6 && !c.gov.p7

/-- The ledger entries that a command needs at its admission (R272, R540): one, and one more for a solve's due cue. -/
def entriesNeeded (b : List Byte) : Nat :=
  let op := fieldAt b 0 1
  if !takesEntry op then 0 else if (op == 2 || op == 3) && fieldAt b 0x10 8 != 0 then 2 else 1

/-- R272: the head command waits for the ledger quota. -/
def Chip.waitsForQuota (c : Chip) (v : Nat) (b : List Byte) : Bool :=
  let n := entriesNeeded b
  n != 0 && decide (c.limit v 3 < c.ledgerUsed v + n)

/-- R272: the command's tag is that of an in-flight entry of the voice. -/
def Chip.tagBusy (c : Chip) (v tag : Nat) : Bool :=
  c.ledger.any (fun e => e.voice == v && e.source != LedgerSource.reserve && e.tag == tag)

/-- The voice could have its head command admitted but for R272. -/
def Chip.offers (c : Chip) (v : Nat) : Option (List Byte) :=
  let x := c.voice v
  if x.state == .active && x.ringEnable && !(c.keep v).d3 && x.fence.isNone && x.admitted.isNone then c.headCommand v else none

/-- The voice's head command is ready (R272). -/
def Chip.readyHead (c : Chip) (v : Nat) : Option (List Byte) :=
  (c.offers v).filter (fun b => !c.waitsForQuota v b && !c.tagBusy v (c.voice v).cmdHead)

/-- Table 6.11: the operand bytes of an opcode as (offset, length), and the offsets whose byte is above a 24-bit tensor
identifier and so reserved. -/
def operandsOf (opcode : Nat) : List (Nat × Nat) :=
  match opcode with
  | 1 => [(8, 3), (12, 2), (16, 3)]
  | 2 | 3 => [(8, 3), (12, 2), (16, 8), (24, 3), (28, 3)]
  | 4 => [(8, 3), (12, 2), (16, 8)]
  | 5 => [(8, 3), (12, 2)]
  | 6 => [(8, 3), (12, 28)]
  | 7 => [(8, 2)]
  | 8 => [(8, 7), (16, 8), (32, 32)]
  | 10 => [(8, 4)]
  | _ => []

/-- R279: a reserved byte of the command is not zero. -/
def reservedSet (b : List Byte) : Bool :=
  let allowed := (4, 4) :: operandsOf (fieldAt b 0 1)
  decide (1 < fieldAt b 1 1) ||
  (rangeFrom 2 62).any (fun i => (b.getD i 0) != 0 && !allowed.any (fun r => r.1 ≤ i && i < r.1 + r.2))

/-- QUOTA_WAITS counts a head command once, however long it waits. -/
def Chip.countWaits (c : Chip) : Chip :=
  c.each (List.range 16) (fun (c : Chip) v =>
    match c.offers v with
    | some b =>
      if c.waitsForQuota v b && !(c.voice v).waited then
        (c.setVoice v { c.voice v with waited := true }).dinc (ent 0x4200 6)
      else c
    | none => c)

/-- R622: the tensors that a command names from its admission on; of those that a reset has released it names none (R869). -/
def Chip.admittedNames (c : Chip) (b : List Byte) : List Nat :=
  let ident := fun (off : Nat) => fieldAt b off 4
  (match fieldAt b 0 1 with
    | 1 =>
      let bind := if ident 16 = 0 then [] else c.contents (ident 16)
      ident 8 :: ident 16 :: resolveSlots (Pass.ofBytes (c.contents (ident 8))) (bindingEntries bind)
    | 2 | 3 => [ident 8, ident 24, ident 28]
    | 4 => [ident 8]
    | _ => []).filter (fun t => t != 0 && (c.tensor? t).all (fun (x : Tensor) => x.doom.isNone))

/-- The voice's head command is admitted: its entry is taken, or it completes under R279. -/
def Chip.admitCommand (c : Chip) (v : Nat) (b : List Byte) : Chip :=
  let x := c.voice v
  let tag := x.cmdHead
  let op := fieldAt b 0 1
  let c1 := (c.setVoice v { x with cmdHead := (tag + 1) % 0x10000, waited := false
                                   queue := if c.engineRing v then x.queue.drop 1 else x.queue }).dinc (ent (vIdx v 3) 1)
  let c2 := { c1 with arbiter := (v + 1) % 16 }
  let stop := fun (c : Chip) (status : Nat) =>
    c.post v { kind := .command, tag, opcode := op, status, cookie := fieldAt b 4 4, irq := bit (fieldAt b 1 1) 0 }
  if op = 0 ∨ 10 < op then (stop c2 0x0C010001).dinc (ent (vIdx v 3) 3)
  else if reservedSet b then (stop c2 0x0C010002).dinc (ent (vIdx v 3) 3)
  else if op = 8 ∧ !(fieldAt b 8 1 == 1 || fieldAt b 8 1 == 2 || fieldAt b 8 1 == 4) then stop c2 0x0A030001
  else
    let c3 := c2.setVoice v { c2.voice v with admitted := some ⟨tag, b, c.resets⟩ }
    if takesEntry op then c3.ledgerAdd { voice := v, source := .ring, tag, tensors := c.admittedNames b } else c3

/-- COMMAND_ADMISSION: one cycle of the arbiter (R274). -/
def Chip.admitNext (c0 : Chip) : Chip :=
  if !c0.admits then c0
  else
    let c := c0.countWaits
    match ((List.range 16).map (fun k => (c.arbiter + k) % 16)).find? (fun v => (c.readyHead v).isSome) with
    | none => c
    | some v => match c.readyHead v with
      | some b => c.admitCommand v b
      | none => c

/-! ### Commands (Table 6.11) -/

/-- CUE_ARM (R280, R871). -/
def Chip.cmdCueArm (c : Chip) (v : Nat) : Chip :=
  match c.admittedAs v 6 with
  | none => c
  | some a =>
    let w : ArmWait := { voice := v, slot := a.arg 8 2, write := none, tag := a.tag, cookie := a.cookie, irq := a.irq
                         action := a.arg 10 1, remaining := a.arg 12 4, target := a.arg 16 8, period := a.arg 24 8
                         arg := a.arg 32 8 }
    let c1 := c.takeUp v
    if c1.armsNow then c1.armCommand w else c1.queueArm w

/-- CUE_CANCEL (R70, R71, R80, R81, R281). -/
def Chip.cmdCueCancel (c : Chip) (v : Nat) : Chip :=
  match c.admittedAs v 7 with
  | none => c
  | some a =>
    let slot := a.arg 8 2
    if slot < 256 then c.finish v a 0x0A020001 0 0
    else if 1024 ≤ slot then c.finish v a 0x0A030001 0 0
    else match c.cancelSlot v slot with
      | none => c.finish v a 0x0A040001 0 0
      | some (c1, gone) => c1.finish v a (if gone then 0x0C050001 else 0) 0 0

/-- A DICT_OP's own checks (R282, R283); 0 is good. INLINE says where a WRITE takes its value, and a query does not look at it. -/
def dictOpCode (v : Nat) (a : Admitted) : Nat :=
  let inline_ := a.arg 14 1
  let buffer := a.arg 16 8
  if v = 15 ∧ buffer ≠ 0 then 0x0A030002
  else if a.arg 8 1 ≠ 2 then 0
  else if 1 < inline_ then 0x0A030001
  else if inline_ = 1 ∧ buffer ≠ 0 then 0x0A030001
  else if inline_ = 1 ∧ 32 < a.arg 12 2 then 0x0A030002
  else if inline_ = 0 ∧ v = 15 ∧ a.arg 12 2 ≠ 0 then 0x0A030002
  else 0

/-- DICT_OP with OP 2 (R282). -/
def Chip.cmdDictWrite (c : Chip) (v : Nat) : Chip :=
  match c.admittedAs v 8 with
  | none => c
  | some a =>
    if a.arg 8 1 ≠ 2 then c
    else
      let code := dictOpCode v a
      let len := a.arg 12 2
      if code ≠ 0 then c.finish v a code 0 0
      else if a.arg 14 1 = 1 then
        (c.takeUp v).submit { voice := v, via := ⟨2, a.tag⟩, idx := a.arg 10 2, sub := a.arg 9 1
                              data := (a.bytes.drop 32).take len, cookie := a.cookie, irq := a.irq }
      else match c.hostReady v (a.arg 16 8) len with
        | (c1, false) => c1
        | (c1, true) =>
          (c1.takeUp v).submit { voice := v, via := ⟨2, a.tag⟩, idx := a.arg 10 2, sub := a.arg 9 1
                                 data := c1.hostMem.readBytes (a.arg 16 8) len, cookie := a.cookie, irq := a.irq }

/-- DICT_OP with OP 1 or 4 (R282, R283): the whole result goes to BUFFER, whatever LENGTH says. V15 has no host memory. -/
def Chip.cmdDictQuery (c0 : Chip) (v op : Nat) : Chip :=
  match c0.admittedAs v 8 with
  | none => c0
  | some a =>
    if a.arg 8 1 ≠ op then c0
    else
      let c := c0.callWake
      let idx := a.arg 10 2
      let sub := a.arg 9 1
      let buffer := a.arg 16 8
      let own := dictOpCode v a
      let r := if own ≠ 0 then (own, []) else if op = 4 then c.dictDescribe v idx sub else c.dictRead v idx sub
      let n := r.2.length
      let code := if r.1 ≠ 0 then r.1 else if v = 15 ∧ op = 1 ∧ 8 < n then 0x0A030002 else 0
      let c1 := c.noteReply v op idx sub code (if code = 0 then r.2 else [])
      if code ≠ 0 then c1.finish v a code 0 0
      else
        let c2 := if v = 15 then c1
          else ({ c1 with hostMem := c1.hostMem.writeBytes buffer r.2 }).hostWritten v buffer n
        c2.finish v a 0 n (if n ≤ 8 then leNat r.2 else 0)

/-- FENCE (R285): no later command of the voice is admitted. -/
def Chip.cmdFence (c : Chip) (v : Nat) : Chip :=
  match c.admittedAs v 9 with
  | none => c
  | some a =>
    let c1 := c.takeUp v
    c1.setVoice v { c1.voice v with fence := some { kind := .command, tag := a.tag, opcode := 9, cookie := a.cookie, irq := a.irq } }

/-- FENCE_COMPLETE (R623): every earlier command of the voice has completed and released its entry. -/
def Chip.fenceEnds (c : Chip) (v : Nat) : Chip :=
  let x := c.voice v
  match x.fence with
  | none => c
  | some k =>
    if c.commandWaits v || c.ledger.any (fun e => e.voice == v && e.source == LedgerSource.ring) || x.cpl.any (fun k => k.kind == .command) ||
       !x.waiting.isEmpty then c
    else (c.setVoice v { x with fence := none }).post v k

/-! ### Lulls (R286, R681 to R683) -/

/-- R681, R682: a release reaches this engine, and every LULL that waits for the identifier completes. -/
def Chip.releaseArrived (c : Chip) (ident status : Nat) : Chip :=
  let code := if status = 0 then 0 else if status = 1 then 0x0A030003 else 0x0A050001
  let c1 := c.dinc (ent 0x4830 5)
  let mine := c1.mesh.waits.filter (fun w => w.ident == ident)
  ({ c1 with mesh := { c1.mesh with waits := c1.mesh.waits.filter (fun w => w.ident != ident) } }).each mine
    (fun (c : Chip) w => c.post w.voice { w.cpl with status := code })

/-- A LULL_RELEASE to an engine (R681): the leader's own waits end at once. -/
def Chip.releaseTo (c : Chip) (addr ident status : Nat) : Chip :=
  let c1 := c.dinc (ent 0x4830 6)
  let k : Packet := { dest := addr, src := c.address.getD 0, slice := c.slice, class_ := 0, ptype := 3, hops := 0, exit := 0xFF,
                      entry := 0xFF, tag := status, arg := ident, payload := [], input := 6 }
  match c1.route k with
  | (c2, .mine) => c2.releaseArrived ident status
  | (c2, _) => c2

/-- R681, R682: an arrival reaches this engine. -/
def Chip.arrival (c : Chip) (src ident : Nat) : Chip :=
  let members := c.dget (ent 0x4830 2)
  if members = 0 then c.releaseTo src ident 1
  else match c.mesh.lulls.find? (fun l => l.1 == ident) with
    | none =>
      if 16 ≤ c.mesh.lulls.length then c.releaseTo src ident 2
      else if members = 1 then c.releaseTo src ident 0
      else { c with mesh := { c.mesh with lulls := c.mesh.lulls ++ [(ident, [src])] } }
    | some l =>
      if members ≤ l.2.length + 1 then
        let c1 := { c with mesh := { c.mesh with lulls := c.mesh.lulls.filter (fun m => m.1 != ident) } }
        c1.each ((l.2 ++ [src]).eraseDups) (fun (c : Chip) a => c.releaseTo a ident 0)
      else { c with mesh := { c.mesh with lulls := c.mesh.lulls.map (fun m => if m.1 = ident then (m.1, m.2 ++ [src]) else m) } }

/-- LULL: the arrival goes to LEADER, and the command waits. -/
def Chip.cmdLull (c : Chip) (v : Nat) : Chip :=
  match c.admittedAs v 10 with
  | none => c
  | some a =>
    let leader := c.dget (ent 0x4830 1)
    if c.straps.mode ≠ .mesh then c.finish v a 0x0A040001 0 0
    else if leader = 0xFFFF then c.finish v a 0x0A030003 0 0
    else
      let k : Completion := { kind := .command, tag := a.tag, opcode := 10, cookie := a.cookie, irq := a.irq, holds := true }
      let ident := a.arg 8 4
      let c1 := (c.takeUp v).dinc (ent 0x4830 4)
      let w : LullWait := ⟨v, k, ident, leader⟩
      let c2 : Chip := { c1 with mesh := { c1.mesh with waits := c1.mesh.waits ++ [w] } }
      let p : Packet := { dest := leader, src := c.address.getD 0, slice := if v = 0 ∧ c.onTunnel 0 then 0xFF else c.slice
                          class_ := 0, ptype := 2, hops := 0, exit := 0xFF, entry := 0xFF, tag := 0, arg := ident, payload := []
                          input := 6 }
      match c2.route p with
      | (c3, .mine) => c3.arrival (c3.address.getD 0) ident
      | (c3, .failed) => c3.packetLost 2 leader 0
      | (c3, .gone) => c3

/-! ### Completions (R258, R275, R276) -/

/-- The interrupt source that a written completion raises (Table 6.8). -/
def Completion.sources (k : Completion) : List Nat :=
  match k.kind with
  | .command => (if k.irq then [0] else []) ++ (if k.opcode = 10 then [6] else [])
  | .cueSignal => [1]
  | .pose => [2]
  | .notice => []

/-- The bookkeeping of a written completion: COMPLETIONS, the ledger entry and the interrupts. -/
def Chip.completionOut (c : Chip) (v : Nat) (k : Completion) : Chip :=
  let c1 := c.dinc (ent (vIdx v 3) 2)
  let c2 := if k.holds then c1.ledgerDrop v .ring k.tag else c1
  c2.each k.sources (fun (c : Chip) s => c.raise v s)

/-- A completion goes to slot CPL_TAIL mod size. -/
def Chip.writeSlot (c : Chip) (v : Nat) (k : Completion) : Chip :=
  let x := c.voice v
  let size := 2 ^ x.cplLog2
  let tail := (x.cplTail + 1) % 0x10000
  let c1 := { c with hostMem := c.hostMem.writeBytes (x.cplBase + 32 * (x.cplTail % size)) (k.bytes x.phase c.posNat) }
  (c1.setVoice v { x with cplTail := tail, phase := if tail % size = 0 then !x.phase else x.phase }).completionOut v k

/-- A completion without a ring slot: a record of endpoint 1 IN, or a COMPLETION packet (R299, R685). Its PHASE is a free
value (log entry 7). -/
def Chip.sendCompletion (c : Chip) (v : Nat) (k : Completion) : Chip :=
  let f := c.fresh .phase
  let bytes := k.bytes (f.2 % 2 == 1) c.posNat
  if v = 15 then
    let r : UsbRecord := { rtype := 2, payload := bytes }
    ({ f.1 with usb := { f.1.usb with inRecords := f.1.usb.inRecords ++ [r] } }).completionOut v k
  else ((f.1.toOrigin v 0x12 1 (c.voice v).cmdHead bytes).1).completionOut v k

/-- COMPLETION_WRITE: the voice's oldest completion is written, waits, or is dropped. -/
def Chip.writeCompletion (c : Chip) (v : Nat) : Chip :=
  let x := c.voice v
  match x.cpl with
  | [] => c
  | k :: rest =>
    let c1 := c.setVoice v { x with cpl := rest }
    if x.state = .idle then (if k.holds then c1.ledgerDrop v .ring k.tag else c1)
    else if c.engineRing v then c1.sendCompletion v k
    else match k.kind with
      | .command =>
        if x.cplFull || !x.waiting.isEmpty then c1.setVoice v { x with cpl := rest, waiting := x.waiting ++ [k] }
        else c1.writeSlot v k
      | _ => if x.cplFull then (c1.dinc (ent (vIdx v 3) 5)).raise v 7 else c1.writeSlot v k

/-- WAITING_COMPLETION_WRITE: a slot is free, and the completion that has waited longest takes it. -/
def Chip.writeWaiting (c : Chip) (v : Nat) : Chip :=
  let x := c.voice v
  match x.cplFull, x.waiting with
  | false, k :: rest => (c.setVoice v { x with waiting := rest }).writeSlot v k
  | _, _ => c

end Sys2Proof.Machine
end

