-- ==== Sys2Proof/Machine/CanServer.lean ====
section
/-! DEFINITION. The dictionary transfer protocol on a CAN FD port and the commands of the port (R189, R213 to R231,
Table 5.8). -/

namespace Sys2Proof.Machine

/-- R189: the voice of a port. -/
def canVoice (p : Nat) : Nat := 13 + p

/-- C, the frame capacity of a transaction (Table 5.1). -/
def capacityOf (fdf : Bool) : Nat := if fdf then 64 else 8

/-- FDF and BRS of a transaction's first request frame (R213). -/
def Chip.canFormat (c : Chip) (p : Nat) (f : CanFrame) : Chip := c.setPort p { c.port p with rspFdf := f.fdf, rspBrs := f.brs }

/-- R227: a protocol error of a frame. An open transfer ends without commit. The ABORT carries the tag of the frame and the
index and subindex of the open transfer; without one it carries 0 and 0 and has the frame's own format (DESIGN CHOICE,
log entry 68). -/
def Chip.canProtocolError (c : Chip) (p : Nat) (f : CanFrame) : Chip :=
  match (c.port p).transfer with
  | some t => c.canRefuse p (frameTag f) t.idx t.sub 0x0A060001
  | none => (c.canFormat p f).canRefuse p (frameTag f) 0 0 0x0A060001

/-- A frame that the server accepts is the one that R222 compares with; it has no response yet. -/
def Chip.canAccept (c : Chip) (p : Nat) (f : CanFrame) : Chip := c.setPort p { c.port p with lastReq := some f, lastRsp := none }

/-- R222: the same frame again. ESI tells the sender's error state and is not compared (log entry 68). -/
def sameFrame (f g : CanFrame) : Bool := { f with esi := false } == { g with esi := false }

/-- Table 5.8: the bytes of a client frame by its command code; a SEGMENT's length follows from its N. -/
def layoutLength (code : Nat) (data : List Byte) : Nat :=
  match code with
  | 0x1 | 0x4 => 4
  | 0x2 => 4
  | 0x3 | 0xE => 8
  | 0x5 => 2 + bits ((data.getD 1 0).toNat) 5 0
  | 0x6 => 2
  | _ => 1

/-- R214, R219: an answer with a value, expedited or by DATA_INIT, which opens a segmented read. -/
def Chip.canValue (c : Chip) (p tag idx sub : Nat) (expedited : Bool) (value : List Byte) : Chip :=
  let x := c.port p
  if expedited && decide (4 + value.length ≤ capacityOf x.rspFdf) then
    let c1 := c.canRespond p (c.serverFrame p (commandByte 0x8 tag :: indexBytes idx sub ++ value))
    c1.setPort p { c1.port p with lastTag := some tag }
  else
    let c1 := c.canRespond p (c.serverFrame p (commandByte 0x9 tag :: indexBytes idx sub ++ leBytes 4 value.length))
    c1.setPort p { c1.port p with transfer := some { tag, writing := false, idx, sub, total := value.length
                                                     fdf := x.rspFdf, brs := x.rspBrs, bytes := value, at_ := c.now } }

/-- PROCEED with the toggle expected next. -/
def Chip.canProceed (c : Chip) (p tag : Nat) (toggle : Bool) : Chip :=
  c.canRespond p (c.serverFrame p [commandByte 0xB tag, BitVec.ofNat 8 (128 * b2n toggle)])

/-- R216, R218: WRITE_INIT opens a segmented write after checks 1 to 8. -/
def Chip.canOpenWrite (c : Chip) (p tag idx sub total : Nat) : Chip :=
  let a := c.checkEarly (canVoice p) idx sub total
  if a ≠ 0 then c.canAbort p tag idx sub a
  else
    let x := c.port p
    let c1 := c.canProceed p tag false
    c1.setPort p { c1.port p with transfer := some { tag, writing := true, idx, sub, total, fdf := x.rspFdf
                                                     brs := x.rspBrs, at_ := c.now } }

/-- R217, R218, R220: a client SEGMENT of the open write. One without an open write of its tag, or of no bytes or too many,
is answered as one with a wrong toggle (DESIGN CHOICE, log entry 68). -/
def Chip.canTakeSegment (c0 : Chip) (p : Nat) (f : CanFrame) : Chip :=
  match (c0.port p).transfer with
  | none => c0.canProtocolError p f
  | some t =>
    let tag := frameTag f
    let ctl := (f.data.getD 1 0).toNat
    let n := bits ctl 5 0
    if !t.writing || t.tag != tag || bit ctl 7 != t.toggle || n == 0 || decide (capacityOf t.fdf - 2 < n) then
      c0.canProtocolError p f
    else
      let c := c0.canAccept p f
      let bytes := t.bytes ++ (f.data.drop 2).take n
      if bit ctl 6 then
        let c1 := c.setPort p { c.port p with transfer := none }
        if bytes.length ≠ t.total then c1.canAbort p tag t.idx t.sub 0x0A030002
        else c1.submit { voice := canVoice p, via := ⟨3, tag⟩, idx := t.idx, sub := t.sub, data := bytes, opened := true
                         fdf := t.fdf, brs := t.brs }
      else
        let c1 := c.setPort p { c.port p with transfer := some { t with bytes, toggle := !t.toggle, at_ := c.now } }
        c1.canProceed p tag (!t.toggle)

/-- R218: a SEGMENT_REQ of the open read; one without an open read of its tag is answered as one with a wrong toggle (DESIGN
CHOICE, log entry 68). -/
def Chip.canGiveSegment (c0 : Chip) (p : Nat) (f : CanFrame) : Chip :=
  match (c0.port p).transfer with
  | none => c0.canProtocolError p f
  | some t =>
    let tag := frameTag f
    if t.writing || t.tag != tag || bit ((f.data.getD 1 0).toNat) 7 != t.toggle then c0.canProtocolError p f
    else
      let c := c0.canAccept p f
      let n := capacityOf t.fdf - 2
      let chunk := t.bytes.take n
      let last := decide (t.bytes.length ≤ n)
      let head := BitVec.ofNat 8 (128 * b2n t.toggle + 64 * b2n last + chunk.length)
      let c1 := c.canRespond p (c.serverFrame p (commandByte 0x5 tag :: head :: chunk))
      c1.setPort p (if last then { c1.port p with transfer := none, lastTag := some tag }
        else { c1.port p with transfer := some { t with bytes := t.bytes.drop n, toggle := !t.toggle, at_ := c.now } })

/-- R226: a new request ends an open segmented transfer under its old tag. -/
def Chip.canEndOpen (c : Chip) (p : Nat) : Chip :=
  match (c.port p).transfer with
  | some t => c.canRefuse p t.tag t.idx t.sub 0x0A060001
  | none => c

/-- R214: an expedited WRITE. A STR or BLOB value cannot travel so, and aborts with the first of checks 1 to 5 that applies, at
the latest with the length (DESIGN CHOICE, log entry 68). -/
def Chip.canWriteNow (c : Chip) (p tag idx sub : Nat) (f : CanFrame) : Chip :=
  let v := canVoice p
  if (findEntry idx sub).any (fun e => e.ty.size == 0) then c.canAbort p tag idx sub (c.checkEarly v idx sub 0x10000)
  else c.submit { voice := v, via := ⟨3, tag⟩, idx, sub, data := f.data.drop 4, fdf := f.fdf, brs := f.brs }

/-- A READ, WRITE, WRITE_INIT or DESCRIBE that R222 does not cover (R214 to R216, R223, R226). -/
def Chip.canNewRequest (c : Chip) (p code tag : Nat) (f : CanFrame) : Chip :=
  let idx := fieldAt f.data 1 2
  let sub := fieldAt f.data 3 1
  let c0 := (c.canEndOpen p).canFormat p f
  if (c0.port p).lastTag == some tag then c0.canRefuse p tag idx sub 0x0A060001
  else
    let c := c0.canAccept p f
    let v := canVoice p
    match code with
    | 0x1 =>
      let r := c.dictRead v idx sub
      if r.1 ≠ 0 then c.canAbort p tag idx sub r.1 else c.canValue p tag idx sub (fixedSize idx sub) r.2
    | 0x4 =>
      let r := c.dictDescribe v idx sub
      if r.1 ≠ 0 then c.canAbort p tag idx sub r.1 else c.canValue p tag idx sub true r.2
    | 0x3 => c.canOpenWrite p tag idx sub (fieldAt f.data 4 4)
    | _ => c.canWriteNow p tag idx sub f

/-- R222: the last request frame accepted comes again. Its response, if there is one yet, is sent again. -/
def Chip.canReplay (c : Chip) (p : Nat) : Chip :=
  (match (c.port p).lastRsp with
    | some rsp => c.canRespond p rsp
    | none => c).dinc (canKey p 27)

/-- The dictionary server takes one frame on the port's request identifier (Table 5.8, R222, R227). Before CONFIG
nothing answers (R147); the reads of FAULTED are served (R148). -/
def Chip.canServe (c : Chip) (p : Nat) (f : CanFrame) : Chip :=
  let x := c.port p
  if c.silent then c
  else if x.lastReq.any (sameFrame f) then c.canReplay p
  else
    let code := (f.data.getD 0 0).toNat / 16
    let tag := frameTag f
    if f.data.length < layoutLength code f.data ∨ f.data.length = 0 then c.canProtocolError p f
    else match code with
      | 0x1 | 0x2 | 0x3 | 0x4 => c.canNewRequest p code tag f
      | 0x5 => c.canTakeSegment p f
      | 0x6 => c.canGiveSegment p f
      | 0xE => match x.transfer with
        | some t => if t.tag = tag then c.setPort p { x with transfer := none } else c
        | none => c
      | _ => c.canProtocolError p f

/-- A valid frame of another node is received: it goes to the dictionary server, to marker capture or to the FIFO
(R206 to R209, R237, R238; remote frames are discarded, Table 5.2). A port that hears another node's frame waits out no
suspend time (R240). -/
def Chip.canReceive (c : Chip) (p : Nat) (f : CanFrame) : Chip :=
  if !c.onBus p then c
  else
    let c0 := c.setPort p { c.port p with suspendAt := none }
    let c1 := (c0.dinc (canKey p 21)).recGood p
    if f.rtr then c1
    else if c1.isRequest p f then c1.canServe p f
    else if c1.isMarker p f && !c1.dbool (canKey p 17) then c1.captureMarker p f
    else c1.toFifo p f

/-- A frame on the request identifier whose command code is one of `codes`; any other frame is not this command. -/
def Chip.canRequestOf (c : Chip) (p : Nat) (codes : List Nat) (f : CanFrame) : Chip :=
  if c.isRequest p f && codes.contains ((f.data.getD 0 0).toNat / 16) then c.canReceive p f else c

/-! ### The commands -/

/-- R200, R203: how a write to a mailbox register is refused: 2 is UNMAPPED_WRITE, 16 is VALUE, 0 is accepted. -/
def Chip.mbRefusal (c : Chip) (p m : Nat) (cmd : Bool) : Nat :=
  let b := (c.port p).mb m
  if m < 5 || b.channel.isSome then 2
  else if !cmd && (b.st == .pending || b.st == .active) then 16 else 0

/-- The BAR0 offset of a mailbox register (Table 5.4). -/
def mbOffset (p m reg : Nat) : Nat := 0x610000 + p * 0x1000 + 0x400 + 0x50 * m + reg

/-- MB_REQUEST (R201, R203, R245). -/
def Chip.requestMb (c : Chip) (p m : Nat) : Chip :=
  let k := c.mbRefusal p m false
  if k ≠ 0 then c.reject 0 (mbOffset p m 8) 1 k
  else
    let x := c.port p
    c.setPort p (x.setMb m { x.mb m with st := .pending, cancelLate := false, cancelOut := false })

/-- MB_CANCEL (R204, R205, R245). -/
def Chip.cancelMb (c : Chip) (p m : Nat) : Chip :=
  let k := c.mbRefusal p m true
  if k ≠ 0 then c.reject 0 (mbOffset p m 8) 2 k
  else
    let x := c.port p
    let b := x.mb m
    c.setPort p (match b.st with
      | .pending | .parked => x.setMb m { b with st := .cancelled }
      | .active => x.setMb m { b with cancelOut := true }
      | _ => x)

end Sys2Proof.Machine
end

