-- ==== Sys2Proof/Machine/Registers.lean ====
section
/-! DEFINITION. The register space: windows, reads and writes of BAR0, the register views of dictionary entries, and the
tier 1 window in BAR2 (R93, R97, R112 to R134, R200 to R205, R257, R262 to R268, R741, R872 to R875). -/

namespace Sys2Proof.Machine

/-! ### Where an offset lies -/

/-- The window of a PF BAR0 offset (Table 3.5): block type, instance and offset in the instance's window. -/
def pfWindow (g : Grade) (off : Nat) : Option (Nat × Nat × Nat) :=
  (fretboardRows g).findSome? fun r =>
    let count := r.getD 1 0
    let base := r.getD 3 0
    let stride := r.getD 4 0
    if !bit (r.getD 2 0) 0 && decide (base ≤ off ∧ off < base + count * stride) then
      some (r.getD 0 0, (off - base) / stride, (off - base) % stride)
    else none

/-- The window of an offset in BAR0 of function `fn` (R117, Table 3.9). -/
def windowOf (g : Grade) (fn off : Nat) : Option (Nat × Nat × Nat) :=
  if fn = 0 then pfWindow g off
  else if off < 0x10000 then some (0x90, fn, off)
  else if 0x80000 ≤ off ∧ off < 0x90000 then some (0x01, 0, off - 0x80000)
  else none

/-- Bytes of a function's BAR0. -/
def barSize (fn : Nat) : Nat := if fn = 0 then 0x4000000 else 0x100000

/-- R741: the windows that answer nothing in P7. -/
def coreWindow (ty : Nat) : Bool := ty == 0x10 || ty == 0x11 || ty == 0x30 || ty == 0x31 || ty == 0x40 || ty == 0x60

/-- R255, R259: the function answers; the block of a tunnel voice reads zero and drops writes. -/
def Chip.answers (c : Chip) (fn : Nat) : Bool := c.engine != .reset && c.hasFn fn && !(c.keep fn).d3

/-- The little-endian doubleword of a byte string at an offset. -/
def dwordAt (bs : List Byte) (off : Nat) : Nat := fieldAt bs off 4

/-! ### Register views of dictionary entries (R134, R872) -/

/-- The dictionary index that instance n of a block mirrors at 0x100. -/
def mirrorIndex (ty n : Nat) : Option Nat :=
  match ty with
  | 0x10 => some (0x2000 + n) | 0x11 => some (0x2100 + n) | 0x12 => some (0x2180 + n) | 0x30 => some (0x4000 + n)
  | 0x31 => some (0x3810 + n) | 0x40 => some 0x4100 | 0x50 => some (0x4800 + n) | 0x60 => some 0x1820 | 0x70 => some 0x5000
  | 0x80 => some 0x5800
  | _ => none

/-- The entry of 4 bytes or fewer that an offset of a window mirrors. A register has 32 bits: where a chapter mirrors every
subindex of an index without naming that bound, an 8-byte entry has no register here, and its offset reads 0 (DESIGN
CHOICE, log 56). -/
def mirrored (ty n off : Nat) : Option (Nat × Nat × Entry) :=
  match mirrorIndex ty n with
  | none => none
  | some idx =>
    let sub := (off - 0x100) / 4
    if off < 0x104 ∨ 0x4FC < off then none
    else match entryRow idx sub with
      | some e => if 0 < e.ty.size ∧ e.ty.size ≤ 4 then some (idx, sub, e) else none
      | none => none

/-- The status register at offset 0 of a window: its value, and its reserved bits (Tables 7.8, 11.10, 13.13, 15.5 and the
chapters' lists). -/
def Chip.statusWord (c : Chip) (ty n : Nat) : Nat × Nat :=
  match ty with
  | 0x10 =>
    let x := c.cam n
    let st := if c.isRetired (.camera n) then 3 else if !c.dbool (ent (0x2000 + n) 1) then 0
      else if x.current.isSome then 2 else 1
    (st + 16 * b2n x.run.isSome + 32 * b2n x.waiting.isSome, 0xFFFFFFC0)
  | 0x11 => (c.viewNat 0 0 (0x2100 + n) 34, 0xFFFFFFF0)
  | 0x12 => (c.viewNat 0 0 (0x2180 + n) 14, 0xFFFFFFF0)
  | 0x30 => (c.viewNat 0 0 (0x4000 + n) 1 + 16 * c.busyQuads n, 0xFFFFFF0C)
  | 0x31 =>
    let x := c.lane n
    let spill := (x.running.bind (fun r => c.tablature? r.tab)).any (fun t => t.overflow != 0)
    (c.viewNat 0 0 (0x3810 + n) 1 + 16 * b2n x.waiting.isSome + 32 * b2n spill, 0xFFFFFFCC)
  | 0x40 =>
    (b2n (!c.moves.isEmpty) + 2 * b2n ((List.range 16).any (fun v => (c.keep v).overQuota)), 0xFFFFFFFC)
  | 0x50 => (c.stringStatus n, 0xFFFF8000)
  | 0x60 => (c.bzState + 8 * b2n (c.bzState == 3), 0xFFFFFFF0)
  | 0x70 => (c.govStatus, 0xFFC18888)
  | 0x80 => (c.faults.cause % 16 + 16 * b2n c.faults.faultN + 32 * b2n c.faults.attnN, 0xFFFFFFC0)
  | _ => (0, 0)

/-- The doubleword of the event ring at an offset from its start: the record in slot (SEQ − 1) mod 4,096. -/
def Chip.ringDword (c : Chip) (off : Nat) : Nat :=
  let slot := off / 32
  let back := (c.faults.latest + 4096 * m32 - 1 - slot) % 4096
  match c.faults.ring[back]? with
  | some e => dwordAt (e.bytes ((c.faults.latest + m32 - back) % m32)) (off % 32)
  | none => 0

/-- A mirrored register's value. -/
def Chip.mirrorRead (c : Chip) (ty n off : Nat) : Nat :=
  if off = 0 then (c.statusWord ty n).1
  else if ty = 0x80 ∧ 0x400000 ≤ off ∧ off < 0x420000 then c.ringDword (off - 0x400000)
  else match mirrored ty n off with
    | some (idx, sub, e) => if e.readable then c.viewNat 0 (c.selected 0) idx sub % 256 ^ e.ty.size else 0
    | none => 0

/-- R126 to R128, R872, R873: a write to a mirrored register: the new chip, and the kinds of a rejection. -/
def Chip.mirrorWrite (c : Chip) (ty n off value : Nat) : Chip × Nat :=
  if off = 0 then (c, if value &&& (c.statusWord ty n).2 = 0 then 0 else 8)
  else match mirrored ty n off with
    | none => (c, 0)
    | some (idx, sub, e) =>
      let high := if 256 ^ e.ty.size ≤ value then 8 else 0
      if !e.writable then (c, high)
      else
        let data := leBytes e.ty.size value
        let bad := if c.silent || c.writeCode 0 idx sub data != 0 then 16 else 0
        if high + bad ≠ 0 then (c, high + bad) else (c.putEntry 0 (c.selected 0) idx sub data, 0)

/-! ### Access error registers -/

/-- The four registers of a latch, from ACCESS_ERR on. -/
def ErrLatch.read (l : ErrLatch) (k : Nat) : Nat :=
  match k with
  | 0 => l.bits | 1 => l.offset | 2 => l.data | _ => l.count

/-- A write to one of them: the latch, and the kinds of a rejection; `rsv` are the reserved bits of the first. -/
def ErrLatch.write (l : ErrLatch) (k value rsv : Nat) : ErrLatch × Nat :=
  let mask := match k with
    | 0 => rsv | 1 => 0x7C000000 | 2 => 0 | _ => 0xFFFF0000
  if value &&& mask ≠ 0 then (l, 8) else if k = 0 then (l.ack value, 0) else (l, 0)

/-! ### Engine control (Tables 3.11 to 3.14) and the epoch unit (R93, Table 2.14) -/

/-- STRAPS. -/
def Straps.word (s : Straps) : Nat :=
  s.ident % 64 + 256 * (match s.mode with | .field => 0 | .mesh => 1 | .bench => 2 | .test => 3)

/-- An engine control register. -/
def Chip.controlRead (c : Chip) (off : Nat) : Nat :=
  match off with
  | 0x00 => 0x4B530480
  | 0x04 => 0x4100
  | 0x08 => c.engine.code
  | 0x0C => c.dget (ent 0x1018 1) * 256 + c.dget (ent 0x1018 2)
  | 0x10 => c.straps.word
  | 0x14 => c.ctl.scratch
  | 0x20 => c.ctl.err.read 0 | 0x24 => c.ctl.err.read 1 | 0x28 => c.ctl.err.read 2 | 0x2C => c.ctl.err.read 3
  | 0x30 => b2n c.ctl.bar2Enable
  | _ => 0

/-- Reserved bits of the engine control registers that are read-only or plain. -/
def controlReserved (off : Nat) : Nat :=
  match off with
  | 0x04 => 0xFFFF0000 | 0x08 => 0xFFFFFF00 | 0x0C => 0xFFFF0000 | 0x10 => 0xFFFFFCC0 | 0x30 => 0xFFFFFFFE
  | _ => 0

/-- A write to an engine control register. -/
def Chip.controlWrite (c : Chip) (off value : Nat) : Chip × Nat :=
  if 0x20 ≤ off ∧ off ≤ 0x2C then
    let r := c.ctl.err.write ((off - 0x20) / 4) value 0x7FFFFF00
    ({ c with ctl := { c.ctl with err := r.1 } }, r.2)
  else if value &&& controlReserved off ≠ 0 then (c, 8)
  else match off with
    | 0x14 => ({ c with ctl := { c.ctl with scratch := value } }, 0)
    | 0x30 => ({ c with ctl := { c.ctl with bar2Enable := value == 1 } }, 0)
    | 0x40 => if value = 0x57525354 then (c.warmReset 3, 0) else (c, 16)
    | _ => (c, 0)

/-- An epoch unit register; EPOCH_LO snapshots the upper half. -/
def Chip.epochRead (c : Chip) (off : Nat) : Chip × Nat :=
  match off with
  | 0 => ({ c with epochHi := c.posNat / m32 }, c.posNat % m32)
  | 4 => (c, c.epochHi)
  | 8 => (c, c.epoch.estimate)
  | 12 => (c, c.epoch.st.code + 256 * c.epoch.active.getD 0xFF)
  | _ => (c, 0)

/-! ### CAN ports (Tables 5.4, 5.5) -/

/-- CTRL. -/
def Chip.canCtrl (c : Chip) (p : Nat) : Nat :=
  let d := fun (k : Nat) => c.dget (canKey p k)
  d 1 + 4 * d 4 + 8 * d 5 + 16 * d 6 + 32 * d 10 + 64 * d 11

/-- MB_STATUS.USER: MB0, MB3 and MB4 serve the engine, MB1 and MB2 the broadcast channels that name the port. -/
def Chip.mbUser (c : Chip) (p m : Nat) : Nat :=
  let b := (c.port p).mb m
  if m = 1 ∨ m = 2 then (if c.dget (ent (0x6FFF + m) 2) = p then 2 else 0)
  else if m < 5 then 1
  else if b.channel.isSome then 2 else if b.host then 3 else 0

/-- MB_STATUS.STATE. -/
def MbState.code : MbState → Nat
  | .idle => 0 | .pending => 1 | .active => 2 | .transmitted => 3 | .cancelled => 4 | .parked => 5

/-- A register of mailbox m at its offset from MB_ID. -/
def Chip.mbRead (c : Chip) (p m r : Nat) : Nat :=
  let b := (c.port p).mb m
  if 0x10 ≤ r then dwordAt (padTo 64 b.data) (r - 0x10)
  else match r with
    | 0 => b.ident + 2 ^ 31 * b2n b.ide
    | 4 => b.length + 256 * b2n b.fdf + 512 * b2n b.brs + 2 ^ 31 * b2n b.host
    | 12 => b.st.code + 64 * b2n b.clash + 128 * b2n b.cancelLate + 0x10000 * b.clashCount + 0x1000000 * c.mbUser p m
    | _ => 0

/-- A register that describes the head frame; zero while the FIFO is empty. -/
def Chip.rxRead (c : Chip) (p off : Nat) : Chip × Nat :=
  let x := c.port p
  match x.fifo with
  | [] => (if off = 0xE0C then c.setPort p { x with stampHi := 0 } else c, 0)
  | h :: _ =>
    let f := h.frame
    if 0xE20 ≤ off ∧ off ≤ 0xE5C then (c, dwordAt (padTo 64 f.data) (off - 0xE20))
    else match off with
      | 0xE04 => (c, f.ident + 2 ^ 31 * b2n f.ide)
      | 0xE08 => (c, f.data.length + 256 * b2n f.fdf + 512 * b2n f.brs + 1024 * b2n f.esi + 2 ^ 24 * h.filter)
      | 0xE0C => (c.setPort p { x with stampHi := h.stamp / m32 }, h.stamp % m32)
      | 0xE10 => (c, x.stampHi)
      | _ => (c, 0)

/-- A register of port p. -/
def Chip.canRegRead (c : Chip) (p off : Nat) : Chip × Nat :=
  let d := fun (k : Nat) => c.dget (canKey p k)
  if 0x200 ≤ off ∧ off < 0x400 then
    (c, tabGet 0 (if off % 8 = 0 then (c.port p).filterId else (c.port p).filterMask) ((off - 0x200) / 8))
  else if 0x400 ≤ off ∧ off < 0xE00 then (c, c.mbRead p ((off - 0x400) / 0x50) ((off - 0x400) % 0x50))
  else match off with
    | 0x00 => (c, c.canCtrl p)
    | 0x04 => (c, d 7) | 0x08 => (c, d 8) | 0x0C => (c, d 9)
    | 0x10 => (c, d 15 + 256 * (c.port p).recovery + 0x10000 * d 14 + 2 ^ 28 * d 13)
    | 0x14 => (c, c.node p)
    | 0xE00 => (c, (c.port p).fifo.length)
    | _ => c.rxRead p off

/-- Reserved bits of a port's registers outside the mailboxes. -/
def canReserved (off : Nat) : Nat :=
  if 0x200 ≤ off ∧ off < 0x400 then (if off % 8 = 0 then 0x20000000 else 0xE0000000)
  else match off with
    | 0x00 => 0xFFFFFF02 | 0x04 => 0x8080 | 0x08 => 0xE0E0F0F0 | 0x0C => 0x7FFF8080 | 0x10 => 0xCE000000 | 0x14 => 0xFFFFFFC0
    | 0xE00 => 0xFFFFFF80 | 0xE04 => 0x60000000 | 0xE08 => 0xC0FFF880 | 0xE60 => 0xFFFFFFFE
    | _ => 0

/-- A write to an entry of the port through its register view; the kinds of a rejection. -/
def Chip.canEntry (c : Chip) (p sub value : Nat) : Chip × Nat :=
  let size := ((entryRow (0x1800 + p) sub).map (fun e => e.ty.size)).getD 4
  let data := leBytes size value
  if c.silent || c.writeCode 0 (0x1800 + p) sub data != 0 then (c, 16) else (c.putEntry 0 0 (0x1800 + p) sub data, 0)

/-- CTRL: only the fields that change are written, ENABLE last; a refused one refuses all (R126, R195, R242). -/
def Chip.canCtrlWrite (c : Chip) (p value : Nat) : Chip × Nat :=
  let fields := [(2, 4), (3, 5), (4, 6), (5, 10), (6, 11), (0, 1)].filter (fun (f : Nat × Nat) =>
    b2n (bit value f.1) != c.dget (canKey p f.2))
  let writes := (if bit value 7 then [(7, 12)] else []) ++ fields
  if writes.any (fun (f : Nat × Nat) => (c.canEntry p f.2 (b2n (bit value f.1))).2 != 0) then (c, 16)
  else (writes.foldl (fun (c : Chip) (f : Nat × Nat) =>
    c.putEntry 0 0 (0x1800 + p) f.2 (leBytes 1 (b2n (bit value f.1)))) c, 0)

/-- A data length of a CAN FD frame. -/
def fdLengthOk (n : Nat) : Bool := n ≤ 8 || [12, 16, 20, 24, 32, 48, 64].contains n

/-- A write to a mailbox register (R200, R203, R204, R245). -/
def Chip.mbWrite (c : Chip) (p m r value : Nat) : Chip × Nat :=
  let x := c.port p
  let b := x.mb m
  let stop := c.mbRefusal p m (r == 12 || (r == 8 && value % 2 == 0))
  let rsv := match r with
    | 0 => 0x60000000 | 4 => 0x7FFFFC80 | 8 => 0xFFFFFFFC | 12 => 0x0000FF30 | _ => 0
  if stop = 2 then (c, 2)
  else
    let bad := if value &&& rsv = 0 then 0 else 8
    if 0x10 ≤ r then
      (if stop ≠ 0 then (c, stop)
       else
        let old := padTo 64 b.data
        (c.setPort p (x.setMb m { b with data := old.take (r - 0x10) ++ leBytes 4 value ++ old.drop (r - 0xC) }), 0))
    else match r with
      | 0 =>
        let kinds := bad + (if stop ≠ 0 ∨ (value < 2 ^ 31 ∧ 0x7FF < bits value 28 0) then 16 else 0)
        if kinds ≠ 0 then (c, kinds)
        else (c.setPort p (x.setMb m { b with ide := bit value 31, ident := bits value 28 0 }), 0)
      | 4 =>
        let len := bits value 6 0
        let kinds := bad + (if stop ≠ 0 ∨ !(if bit value 8 then fdLengthOk len else decide (len ≤ 8)) then 16 else 0)
        if kinds ≠ 0 then (c, kinds)
        else (c.setPort p (x.setMb m { b with host := bit value 31, brs := bit value 9, fdf := bit value 8, length := len }), 0)
      | 8 =>
        if bad + stop ≠ 0 then (c, bad + stop)
        else
          let c1 := if bit value 0 then c.requestMb p m else c
          (if bit value 1 then c1.cancelMb p m else c1, 0)
      | _ => (c, bad)

/-- A write to a register of port p. -/
def Chip.canRegWrite (c : Chip) (p off value : Nat) : Chip × Nat :=
  if 0x400 ≤ off ∧ off < 0xE00 then c.mbWrite p ((off - 0x400) / 0x50) ((off - 0x400) % 0x50) value
  else
    let rsv := if value &&& canReserved off = 0 then 0 else 8
    let x := c.port p
    let entry := fun (sub : Nat) (bad : Bool) =>
      let k := rsv + (if bad || (c.canEntry p sub value).2 != 0 then 16 else 0)
      if k ≠ 0 then (c, k) else c.canEntry p sub value
    if 0x200 ≤ off ∧ off < 0x400 then
      (if rsv ≠ 0 then (c, rsv)
       else
        let f := (off - 0x200) / 8
        (c.setPort p (if off % 8 = 0 then { x with filterId := tabSet x.filterId f value }
          else { x with filterMask := tabSet x.filterMask f value }), 0))
    else match off with
      | 0x00 =>
        let r := c.canCtrlWrite p value
        if rsv + r.2 ≠ 0 then (c, rsv + r.2) else r
      | 0x04 => entry 7 false
      | 0x08 => entry 8 false
      | 0x0C => entry 9 false
      | 0xE60 =>
        if rsv ≠ 0 then (c, rsv) else (c.setPort p (if value = 1 then { x with fifo := x.fifo.drop 1 } else x), 0)
      | _ => (c, rsv)

/-! ### Voice blocks (Tables 6.6, 6.7) -/

/-- R253: the registers of V13 and V14 that read zero. -/
def ringRegister (off : Nat) : Bool := (0x08 ≤ off && off < 0xA0) || 0x3000 ≤ off

/-- A register of voice v's block. -/
def Chip.voiceRead (c : Chip) (v off : Nat) : Nat :=
  let x := c.voice v
  let k := c.keep v
  if (v = 13 ∨ v = 14) ∧ ringRegister off then 0
  else if 0x1000 ≤ off ∧ off < 0x2000 then leNat (x.dictBuf.readBytes (off - 0x1000) 4)
  else if 0x3000 ≤ off ∧ off < 0x3200 then x.msixDword ((off - 0x3000) / 4)
  else match off with
    | 0x00 => v + 256 * k.binding
    | 0x04 => (match x.state with | .idle => 0 | .active => 1 | .draining => 2 | .stopped => 3) + 4 * b2n k.overQuota +
              8 * b2n x.fence.isSome
    | 0x08 => b2n x.ringEnable
    | 0x0C => x.stopCause
    | 0x10 => x.cmdBase % m32 | 0x14 => x.cmdBase / m32 | 0x18 => x.cmdLog2 | 0x1C => x.cmdHead
    | 0x20 => x.cplBase % m32 | 0x24 => x.cplBase / m32 | 0x28 => x.cplLog2 | 0x2C => x.cplTail
    | 0x40 => x.cmdTail | 0x44 => x.cplHead
    | 0x80 => x.intCtrl | 0x84 => x.intMapA | 0x88 => x.intMapB | 0x90 => x.intPending
    | 0x100 => x.err.read 0 | 0x104 => x.err.read 1 | 0x108 => x.err.read 2 | 0x10C => x.err.read 3
    | 0x200 => x.dictAddr | 0x204 => x.dictLen | 0x20C => x.dictLength + 2 ^ 31 * b2n x.dictBusy | 0x210 => x.dictAbort
    | 0x3800 => x.waitMsg.foldl setBit 0
    | _ => 0

/-- Reserved bits of a voice block's registers. -/
def voiceReserved (off : Nat) : Nat :=
  match off with
  | 0x00 => 0xFFFF00F0 | 0x04 => 0xFFFFFFF0 | 0x08 => 0xFFFFFFFE | 0x0C => 0xFFFFFF00 | 0x10 => 0x3F | 0x18 => 0xFFFFFFF0
  | 0x1C => 0xFFFF0000 | 0x20 => 0x3F | 0x28 => 0xFFFFFFF0 | 0x2C => 0xFFFF0000 | 0x40 => 0xFFFF0000 | 0x44 => 0xFFFF0000
  | 0x80 => 0xFFFEFC00 | 0x84 => 0x60606060 | 0x88 => 0x60606060 | 0x90 => 0xFFFFFF00 | 0x200 => 0xFF | 0x204 => 0xFFFFE000
  | 0x208 => 0xFFFFFFF8 | 0x20C => 0x7FFFE000
  | _ => 0

/-- R126, R264, R268: a value that a plain register of the block refuses. -/
def Voice.badValue (x : Voice) (off value : Nat) : Bool :=
  match off with
  | 0x10 | 0x14 | 0x20 | 0x24 => x.state != .idle
  | 0x18 | 0x28 => x.state != .idle || decide (value % 16 < 4 ∨ 12 < value % 16)
  | 0x200 => x.dictBusy
  | 0x204 => x.dictBusy || decide (4096 < value % 0x2000)
  | _ => false

/-- A dword of the MSI-X table after a write with byte enables (R257). -/
def mergeBytes (old value be : Nat) : Nat :=
  ((List.range 4).map (fun i => (if bit be i then value else old) / 256 ^ i % 256 * 256 ^ i)).foldl (· + ·) 0

/-- R257: a write to the MSI-X table; a vector that is unmasked sends its waiting message (R265). -/
def Chip.msixWrite (c : Chip) (v k value be : Nat) : Chip :=
  let x := c.voice v
  let c1 := c.setVoice v { x with msix := tabSet x.msix k (mergeBytes (x.msixDword k) value be) }
  if k % 4 = 3 then c1.vectorDue v (k / 4) else c1

/-- A write to a plain register of the block. -/
def Voice.put (x : Voice) (off value : Nat) : Voice :=
  match off with
  | 0x10 => { x with cmdBase := x.cmdBase / m32 * m32 + value }
  | 0x14 => { x with cmdBase := value * m32 + x.cmdBase % m32 }
  | 0x18 => { x with cmdLog2 := value }
  | 0x20 => { x with cplBase := x.cplBase / m32 * m32 + value }
  | 0x24 => { x with cplBase := value * m32 + x.cplBase % m32 }
  | 0x28 => { x with cplLog2 := value }
  | 0x80 => { x with intCtrl := value }
  | 0x84 => { x with intMapA := value }
  | 0x88 => { x with intMapB := value }
  | 0x200 => { x with dictAddr := value }
  | 0x204 => { x with dictLen := value }
  | _ => x

/-- A write by the voice's own function to its block; the rows of the table latch their own rejections. -/
def Chip.voiceWrite (c : Chip) (v off value : Nat) : Chip × Nat :=
  let x := c.voice v
  if 0x1000 ≤ off ∧ off < 0x2000 then
    (if x.dictBusy then (c, 16) else (c.setVoice v { x with dictBuf := x.dictBuf.writeBytes (off - 0x1000) (leBytes 4 value) }, 0))
  else if 0x100 ≤ off ∧ off ≤ 0x10C then
    let r := x.err.write ((off - 0x100) / 4) value 0x7FFFFFE0
    (c.setVoice v { x with err := r.1 }, r.2)
  else
    let kinds := (if value &&& voiceReserved off = 0 then 0 else 8) + (if x.badValue off value then 16 else 0)
    match off with
    | 0x08 => if kinds ≠ 0 then (c, kinds + (if value % 2 = 1 ∧ !x.mayEnable then 16 else 0)) else (c.writeRing v value, 0)
    | 0x40 => (c.cmdDoorbell v value, 0)
    | 0x44 => (c.cplDoorbell v value, 0)
    | 0x90 => (c.ackSources v value, 0)
    | 0x208 =>
      let op := value % 8
      let bad := x.dictBusy || !(op == 1 || op == 2 || op == 4)
      if kinds ≠ 0 then (c, kinds + (if bad then 16 else 0)) else (c.dictGo v op, 0)
    | _ => if kinds ≠ 0 then (c, kinds) else (c.setVoice v (x.put off value), 0)

/-! ### Reads and writes of BAR0 -/

/-- A register's value in its window; the fretboard's bytes, and zero where nothing is defined (R97). -/
def Chip.windowRead (c : Chip) (ty n off : Nat) : Chip × Nat :=
  match ty with
  | 0x01 => (c, dwordAt (fretboardBytes c.grade) off)
  | 0x02 => (c, c.controlRead off)
  | 0x13 => c.epochRead off
  | 0x61 => c.canRegRead n off
  | 0x90 => (c, c.voiceRead n off)
  | _ => (c, c.mirrorRead ty n off)

/-- A read of one doubleword of BAR0, with its side effects (R93, R113, R129, R741). -/
def Chip.readDword (c : Chip) (fn off : Nat) : Chip × Nat :=
  if barSize fn ≤ off ∨ (1 ≤ fn ∧ c.onTunnel fn) then (c, 0)
  else match windowOf c.grade fn off with
    | none => (c.reject fn off 0 1, 0)
    | some (ty, n, o) =>
      if (c.gov.p7 && coreWindow ty) || (ty == 0x90 && n == 0 && c.onTunnel 0) then (c, 0) else c.windowRead ty n o

/-- A read of four bytes from a BAR0 offset on; one that spans two doublewords is two accesses (R114). What it returns stands
in `readData`. -/
def Chip.regRead (c : Chip) (fn offset : Nat) : Chip :=
  let off := offset / 4 * 4
  if !c.answers fn ∨ barSize fn ≤ off then c
  else
    let r := c.readDword fn off
    if offset % 4 = 0 then { r.1 with readData := leBytes 4 r.2 }
    else
      let q := r.1.readDword fn (off + 4)
      { q.1 with readData := (leBytes 8 (r.2 + m32 * q.2)).drop (offset % 4) |>.take 4 }

/-- A write of one doubleword with its byte enables. An offset without a register is UNMAPPED_WRITE whatever the enables. The
latch of a partial write takes the doubleword's offset and the whole doubleword, disabled bytes included (DESIGN CHOICE,
log 57). -/
def Chip.writeDword (c : Chip) (fn off value be : Nat) : Chip :=
  match windowOf c.grade fn off with
  | none => c.reject fn off value 2
  | some (ty, n, o) =>
    if ty = 0x01 ∨ (ty = 0x90 ∧ n ≠ fn) then c.reject fn off value 2
    else if (c.gov.p7 && coreWindow ty) || (ty == 0x90 && c.onTunnel n) then c
    else if ty = 0x90 ∧ 0x3000 ≤ o ∧ o < 0x3200 then c.msixWrite n ((o - 0x3000) / 4) value be
    else if ty = 0x90 ∧ 0x3800 ≤ o ∧ o < 0x3808 then c
    else if be ≠ 15 then c.reject fn off value 4
    else
      let r := match ty with
        | 0x02 => c.controlWrite o value
        | 0x13 => (c, if o = 12 ∧ value &&& 0xFFFF00F0 ≠ 0 then 8 else 0)
        | 0x61 => c.canRegWrite n o value
        | 0x90 => c.voiceWrite n o value
        | _ => c.mirrorWrite ty n o value
      if r.2 = 0 then r.1 else c.reject fn off value r.2

/-- A BAR0 write of four bytes from an offset on, `be` naming the enabled ones; one that spans two doublewords is two
accesses, each with its own bytes (R112, R114). A write without an enabled byte covers none of its doubleword. -/
def Chip.regWrite (c : Chip) (fn offset value be : Nat) : Chip :=
  let base := offset / 4 * 4
  let lanes := be % 16 * 2 ^ (offset % 4)
  let data := value % m32 * 256 ^ (offset % 4)
  if !c.answers fn ∨ barSize fn ≤ offset then c
  else if 1 ≤ fn ∧ c.onTunnel fn then c
  else
    let c1 := if lanes % 16 = 0 ∧ lanes ≠ 0 then c else c.writeDword fn base (data % m32) (lanes % 16)
    if lanes / 16 = 0 ∨ barSize fn ≤ base + 4 then c1 else c1.writeDword fn (base + 4) (data / m32) (lanes / 16)

/-! ### BAR2 (R120 to R124, R741, R875) -/

/-- A byte of tier 1 lies in a copy, a transient one included, of a tensor in flight (R123). -/
def Chip.bar2Busy (c : Chip) (off : Nat) : Bool :=
  let holds := fun (tier addr size : Nat) => tier == 1 && decide (addr ≤ off ∧ off < addr + size)
  c.tensors.any (fun (p : Nat × Tensor) =>
    (p.2.copies.any (fun k => holds k.1 k.2.2 p.2.size) ||
     c.transients.any (fun k => k.tensor == p.1 && holds k.tier k.addr p.2.size)) && c.inFlight p.1)

/-- The bank of an offset has retired. -/
def Chip.deadBank (c : Chip) (off : Nat) : Bool := c.isRetired (.tier1Bank (off / 0x100000))

/-- The enabled bytes of a BAR2 write from an offset on, each with its own offset. -/
def bar2Bytes (offset : Nat) (data : List (Option Byte)) : List (Nat × Byte) :=
  (data.zipIdx offset).filterMap (fun (p : Option Byte × Nat) => p.1.map (fun b => (p.2, b)))

/-- BAR2_WRITE: the enabled bytes from an offset on. -/
def Chip.bar2Write (c : Chip) (offset : Nat) (data : List (Option Byte)) : Chip :=
  let named := bar2Bytes offset data
  let word := leNat ((data.take 4).map (fun b => b.getD 0))
  let no := fun (kind : Nat) => c.reject 0 (offset + 0x80000000) word kind
  let any := fun (f : Nat → Bool) => named.any (fun p => f p.1)
  if !c.answers 0 ∨ 0x4000000 < offset + data.length ∨ c.gov.p7 then c
  else if !c.ctl.bar2Enable then no 32
  else if any (fun a => decide (0x3000000 ≤ a)) then no 2
  else if any c.deadBank then no 128
  else if any c.bar2Busy then no 64
  else { c with tier1 := named.foldl (fun m p => m.write p.1 p.2) c.tier1 }

/-- BAR2_READ: what it returns stands in `readData`. -/
def Chip.bar2Read (c : Chip) (offset len : Nat) : Chip :=
  if !c.answers 0 ∨ 0x4000000 < offset + len then c
  else if c.gov.p7 || !c.ctl.bar2Enable then { c with readData := List.replicate len 0 }
  else
    let byte := fun (a : Nat) => if 0x3000000 ≤ a ∨ c.deadBank a then 0 else c.tier1.read a
    let c1 := if (rangeFrom offset len).any (fun a => decide (0x3000000 ≤ a)) then c.reject 0 (offset + 0x80000000) 0 1 else c
    { c1 with readData := (rangeFrom offset len).map byte }

end Sys2Proof.Machine
end

