-- ==== Sys2Proof/Machine/UsbPort.lean ====
section
/-! DEFINITION. The USB port: vendor requests with their replay, the configuration, and the bulk records (R289 to R304, R499,
R848, Tables 6.14 to 6.17). -/

namespace Sys2Proof.Machine

/-! ### Vendor requests (Table 6.15) -/

/-- The tag and subindex of a request's wIndex. -/
def usbTag (u : UsbSetup) : Nat := bits u.index 11 8
def usbSub (u : UsbSetup) : Nat := u.index % 256

/-- V15 is carried by the port: the device is configured and the engine answers (Table 6.2, R147). -/
def Chip.usbServes (c : Chip) : Bool := c.usb.attached && c.usb.configured && !c.isRetired .usb && !c.silent

/-- R290, Table 6.15: the request is one of the table's, with reserved bits of zero. -/
def goodRequest (u : UsbSetup) : Bool :=
  decide (u.index < 0x1000 ∧ u.value < 0x10000) &&
  ((u.requestType == 0xC0 && (u.request == 1 || u.request == 4)) || (u.requestType == 0x40 && u.request == 2) ||
   (u.requestType == 0xC0 && u.request == 0x0F && u.value == 0 && u.index == 0))

/-- A SETUP packet ends a write whose status stage has not begun (R293), and the wait of one whose stage had. -/
def Chip.usbSetup (c : Chip) : Chip := { c with usb := { c.usb with pendingWrite := none, statusWaits := false } }

/-- A STALL that records nothing (R290). -/
def Chip.usbRefuse (c : Chip) : Chip := { c.usbSetup with usb := { c.usbSetup.usb with reply := none } }

/-- R290: bRequest is one of Table 6.15. -/
def definedRequest (u : UsbSetup) : Bool := [1, 2, 4, 0x0F].contains u.request

/-- A vendor request reaches the device: one with an undefined bRequest is stalled, one of another kind than `op` is not this
command, and `f` handles the rest. -/
def Chip.onRequest (c : Chip) (u : UsbSetup) (op : Nat) (f : Chip → Chip) : Chip :=
  if !c.usbServes then c
  else if !definedRequest u then c.usbRefuse
  else if u.request ≠ op then c
  else if !goodRequest u then c.usbRefuse
  else f c.usbRefuse

/-- R296: the request is the last one executed, byte for byte, and is answered again. -/
def Chip.usbReplay (c : Chip) : Chip :=
  ({ c with usb := { c.usb with reply := c.usb.lastAnswer, pendingWrite := none } }).dinc (ent 0x1810 6)

/-- R297: the request has the tag of the last one executed. -/
def Chip.tagRepeats (c : Chip) (u : UsbSetup) : Bool := c.usb.lastReq.any (fun r => usbTag r.1 == usbTag u)

/-- DICT_READ and DICT_DESCRIBE (R290, R294 to R297). -/
def Chip.usbQuery (c0 : Chip) (u : UsbSetup) (op : Nat) : Chip :=
  c0.onRequest u op (fun c =>
    if c.usb.lastReq == some (u, []) then c.usbReplay
    else if c.tagRepeats u then c.usbStall 0x0A060001 u.value (usbSub u) (usbTag u)
    else
      let c1 := c.callWake
      let r := if op = 4 then c1.dictDescribe 15 u.value (usbSub u) else c1.dictRead 15 u.value (usbSub u)
      let code := if r.1 ≠ 0 then r.1 else if u.length < r.2.length then 0x0A030002 else 0
      let c2 := c1.noteReply 15 op u.value (usbSub u) code (if code = 0 then r.2 else [])
      if code ≠ 0 then c2.usbStall code u.value (usbSub u) (usbTag u) else c2.usbAnswer (u, []) r.2)

/-- USB_DICT_WRITE_DATA: the data stage of a DICT_WRITE has ended (R291). -/
def Chip.usbWriteData (c0 : Chip) (u : UsbSetup) (data : List Byte) : Chip :=
  if data.length ≠ u.length then c0
  else c0.onRequest u 2 (fun c =>
    if c.usb.lastReq == some (u, data) then { c with usb := { c.usb with pendingWrite := some (u, data) } }
    else if c.tagRepeats u then c.usbStall 0x0A060001 u.value (usbSub u) (usbTag u)
    else
      let code := c.writeCode 15 u.value (usbSub u) data
      if code ≠ 0 then (c.noteReply 15 2 u.value (usbSub u) code []).usbStall code u.value (usbSub u) (usbTag u)
      else { c with usb := { c.usb with pendingWrite := some (u, data) } })

/-- The same write has begun its status stage before and is not yet committed (R160, R296). -/
def Chip.usbWaits (c : Chip) (u : UsbSetup) (data : List Byte) : Bool :=
  (c.writesWaiting 15).any (fun q => q.via.transport == 4 && q.setup == u && q.data == data)

/-- USB_DICT_WRITE_STATUS: the IN token of the status stage (R292, R296), in which the checks on the value run again. -/
def Chip.usbWriteStatus (c : Chip) : Chip :=
  if !c.usbServes then c
  else match c.usb.pendingWrite with
    | none => c
    | some (u, data) =>
      let c1 := { c with usb := { c.usb with pendingWrite := none, statusWaits := true } }
      if c.usb.lastReq == some (u, data) then ({ c1 with usb := { c1.usb with statusWaits := false } }).usbReplay
      else if c.usbWaits u data then c1.dinc (ent 0x1810 6)
      else c1.submit { voice := 15, via := ⟨4, usbTag u⟩, idx := u.value, sub := usbSub u, data, opened := true }

/-- GET_ABORT (R295). -/
def Chip.usbGetAbort (c0 : Chip) (u : UsbSetup) : Chip :=
  c0.onRequest u 0x0F (fun c => { c with usb := { c.usb with reply := some ((padTo 8 c.usb.abort).take u.length) } })

/-! ### Configuration -/

/-- SET_CONFIGURATION (R299, R303): the device has one configuration. The address is the host's choice (a free value, log
entry 7). V15's ring is enabled with the first one after a reset of the voice, in its drain too; it starts when the drain ends.
-/
def Chip.configure (c0 : Chip) (value : Nat) : Chip :=
  let c := c0.usbSetup
  if !c0.usb.attached then c0
  else if 1 < value then c
  else if value = 0 then c.usbUnconfigure
  else
    let f := c.fresh .usbAddress
    let c1 := if c.usb.configured then c else f.1.dset (ent 0x1810 3) (1 + f.2 % 127)
    let c2 := ({ c1 with usb := { c1.usb with configured := true, halted := false } }).rebind 15
    let x := c2.voice 15
    let on := ({ c2 with usb := { c2.usb with ringOn := true } }).setVoice 15 { x with queue := [], tags := 0 }
    let c3 := if c2.usb.ringOn then c2 else if x.resetDrain then on else if x.state = .idle then on.ringStart 15 else c2
    c3.sendUnsent

/-- STATUS_REPORT on endpoint 2 IN. -/
def Chip.statusReport (c : Chip) : Chip :=
  if !c.usbServes then c
  else
    let report := [(1 : Byte), BitVec.ofNat 8 c.engine.code, BitVec.ofNat 8 c.epoch.st.code, 0] ++ leBytes 4 c.errorRegister ++
      leBytes 8 c.posNat
    { c with usb := { c.usb with ep2 := c.usb.ep2 ++ [report], lastReport := report } }

/-! ### Bulk records (Tables 6.16, 6.17) -/

/-- R300: the header is one that endpoint 1 OUT takes. -/
def goodHeader (h : RecordHeader) : Bool :=
  (h.rtype == 1 || h.rtype == 3 || h.rtype == 4 || h.rtype == 7) && decide (h.flags ≤ 1) && h.reserved == 0 &&
  decide (h.length ≤ 1048576) && (h.rtype != 1 || h.length == 64) && (h.rtype != 4 || h.length == 0)

/-- A record of type `ty` with its payload; anything else on the endpoint that breaks R300 stalls it. In P6 and P7 the bulk
endpoints have no clock and answer with NAK; in P6 a record calls for the exit as a doorbell does (R762). -/
def Chip.onRecord (c : Chip) (h : RecordHeader) (ty : Nat) (payload : List Byte) (f : Chip → Chip) : Chip :=
  if !c.usbServes || c.usb.halted then c
  else if c.gov.p6 || c.gov.p7 then c.callWake
  else if !goodHeader h then { c with usb := { c.usb with halted := true } }
  else if h.rtype = ty ∧ payload.length = h.length then f c else c

/-- R301: the record is discarded. -/
def Chip.discardRecord (c : Chip) : Chip := (c.dinc (ent (vIdx 15 3) 3)).notice 15 4

/-- USB_COMMAND_RECORD: one command joins V15's ring; a full ring answers with NAK. -/
def Chip.takeCommand (c : Chip) (v : Nat) (bytes : List Byte) : Chip :=
  let x := c.voice v
  c.setVoice v { x with queue := x.queue ++ [bytes], tags := (x.tags + 1) % 0x10000, cmdTail := (x.tags + 1) % 0x10000 }

/-- USB_COMMAND_RECORD. -/
def Chip.commandRecord (c : Chip) (payload : List Byte) : Chip :=
  if !c.usb.ringOn || decide (256 ≤ (c.voice 15).queue.length) then c else c.takeCommand 15 payload

/-- The run number of the tier 1 space that a TENSOR_WRITE fills. -/
def usbRun (t : Nat) : Nat := 0x3000000 + t

/-- The tier 1 address that takes a tensor's new bytes, once `resultSpace` has found it. -/
def Chip.usbPlace (c : Chip) (t : Nat) (x : Tensor) : Nat :=
  if x.home = 1 then x.homeAddr else if x.work = 1 then x.workAddr
  else ((c.transients.find? (fun y => y.tensor == t && y.run == usbRun t)).map (·.addr)).getD 0

/-- TENSOR_WRITE (R301, R602, R609): the bytes go to tier 1; with LAST they are the tensor's contents. Space that is awaited
answers with NAK. -/
def Chip.usbTensorWrite (c : Chip) (h : RecordHeader) (payload : List Byte) : Chip :=
  match c.tensor? h.ident with
  | none => c.discardRecord
  | some x =>
    if c.writeCheck 15 h.ident ≠ 0 ∨ c.inFlight h.ident ∨ x.size < h.offset + payload.length then c.discardRecord
    else match c.resultSpace h.ident 15 (usbRun h.ident) with
      | (_, 2) => c.discardRecord
      | (c1, 1) => c1
      | (c1, _) =>
        let a := c1.usbPlace h.ident x
        let c2 := if c1.transients.length = c.transients.length then c1
          else { c1 with tier1 := c1.tier1.writeBytes a (c1.tensorRead x 0 x.size) }
        let c3 := { c2 with tier1 := c2.tier1.writeBytes (a + h.offset) payload }
        if h.flags = 1 then
          (c3.newContents h.ident 1 0xFF a (c3.tier1.readBytes a x.size)).endTransients (usbRun h.ident)
        else c3

/-- The records of a byte string of at most 1 MiB each, LAST in the last. -/
def recordsFor (ty ident : Nat) (bytes : List Byte) : List UsbRecord :=
  let n := Nat.max 1 ((bytes.length + 1048575) / 1048576)
  (List.range n).map (fun i =>
    { rtype := ty, flags := b2n (i + 1 == n), ident, offset := 1048576 * i, payload := (bytes.drop (1048576 * i)).take 1048576 })

/-- TENSOR_READ: the bytes leave as TENSOR_DATA, those of an instance's export as MAP_EXPORT. -/
def Chip.usbTensorRead (c : Chip) (h : RecordHeader) : Chip :=
  match c.tensor? h.ident with
  | none => c.discardRecord
  | some x =>
    if c.readCheck 15 h.ident ≠ 0 ∨ x.size < h.offset then c.discardRecord
    else
      let map_ := decide (0xFF2000 ≤ h.ident ∧ h.ident < 0xFF2008)
      let rs := recordsFor (if map_ then 6 else 5) (if map_ then h.ident - 0xFF2000 else h.ident) (c.tensorRead x 0 h.offset)
      { c with usb := { c.usb with inRecords := c.usb.inRecords ++ rs } }

/-- The bytes that chunks make from offset 0 on. -/
def joinChunks (parts : List (Nat × List Byte)) : List Byte :=
  let n := parts.foldl (fun m p => Nat.max m (p.1 + p.2.length)) 0
  (parts.foldl (fun (m : Memory) p => m.writeBytes p.1 p.2) []).readBytes 0 n

/-- MAP_IMPORT: a chunk is kept; with LAST the import is checked and made (R499, R500). -/
def Chip.usbMapImport (c : Chip) (h : RecordHeader) (payload : List Byte) : Chip :=
  if 8 ≤ h.ident ∨ c.estVoice h.ident ≠ 15 then c.discardRecord
  else
    let parts := tabGet [] c.usb.imports h.ident ++ [(h.offset, payload)]
    if h.flags = 0 then { c with usb := { c.usb with imports := tabSet c.usb.imports h.ident parts } }
    else
      let bytes := joinChunks parts
      let c1 := { c with usb := { c.usb with imports := tabDel c.usb.imports h.ident } }
      if c1.importCheck h.ident bytes ≠ 0 then c1.discardRecord else c1.estImport h.ident bytes

/-- CLEAR_FEATURE(ENDPOINT_HALT): the next byte starts a header. Its SETUP packet ends a pending write (R293). -/
def Chip.clearHalt (c : Chip) : Chip := { c.usbSetup with usb := { c.usbSetup.usb with halted := false } }

/-- USB_ATTACH and USB_DETACH (R848). -/
def Chip.vbusUp (c : Chip) : Chip := ({ c with board := { c.board with vbus := true } }).usbThere
def Chip.vbusDown (c : Chip) : Chip := { (c.usbGone) with board := { c.board with vbus := false } }

end Sys2Proof.Machine
end

