-- ==== Sys2Proof/Machine/MeshServices.lean ====
section
/-! DEFINITION. What this engine does with the packets that are for it: epoch records, lulls, tunnels, answers of host
memory and storage, and virtual streams (R677 to R690, Table 13.11). -/

namespace Sys2Proof.Machine

/-- A packet that this engine may not accept. -/
def Chip.admitDrop (c : Chip) : Chip := c.dinc (routeKey 8)

/-! ### Virtual epochs (R677 to R680) -/

/-- An EPOCH packet. -/
def Chip.takeEpoch (c : Chip) (k : Packet) : Chip :=
  if !(c.epoch.active == some 0x30 || c.epoch.pendingSource == some 0x30) then c.admitDrop
  else
    let at_ := fieldAt k.payload 8 6
    let late := c.dget (ent 0x4810 6) == 0 || laterMod (2 ^ 48) c.rt at_
    let c1 := c.dinc (ent 0x4810 9)
    let c2 := if late then c1.dinc (ent 0x4810 10) else c1
    { c2 with mesh := { c2.mesh with records := c2.mesh.records ++ [(fieldAt k.payload 0 8, k.arg, at_, if late then some c.now else none)] } }

/-- R678, R680: the record applies now; one that was late at its arrival at the update after it. -/
def Chip.recordDue (c : Chip) (r : Nat × Nat × Nat × Option Nat) : Bool :=
  match r.2.2.2 with
  | some t => decide (t < c.now)
  | none => !laterMod (2 ^ 48) r.2.2.1 c.rt

/-- R68, R679: one record applies: it is discarded, or its target replaces an earlier one. -/
def Chip.applyRecord (c : Chip) (r : Nat × Nat × Nat × Option Nat) : Chip :=
  if laterPos r.1 c.posNat && c.takesFrameStart 0x30 then { c with epoch := { c.epoch with virtual := some (r.1, r.2.1) } } else c

/-- EPOCH_RECORD_APPLY: every record that is due, in the order of arrival. -/
def Chip.applyRecords (c : Chip) : Chip :=
  let due := c.mesh.records.filter c.recordDue
  ({ c with mesh := { c.mesh with records := c.mesh.records.filter (fun r => !c.recordDue r) } }).each due Chip.applyRecord

/-! ### Tunnels (R684 to R687) -/

/-- R684: the voice is carried by a tunnel; V0's packets are of the management slice. -/
def Chip.tunnelVoice (c : Chip) (k : Packet) : Bool := decide (k.tag ≤ 12) && c.onTunnel k.tag && (k.tag != 0 || k.slice == 0xFF)

/-- R684: a tunnel packet comes from the voice's origin. -/
def Chip.fromOrigin (c : Chip) (k : Packet) : Bool :=
  decide (k.tag ≤ 12) && c.onTunnel k.tag && (c.tunnel k.tag).origin == some (k.src, k.entry)

/-- OPEN: the origin, and the ring with the first one after a reset (R684, R685). -/
def Chip.takeOpen (c : Chip) (k : Packet) : Chip :=
  if !c.tunnelVoice k then c.admitDrop
  else
    let c1 := c.setTunnel k.tag { c.tunnel k.tag with origin := some (k.src, k.entry) }
    let x := c1.voice k.tag
    if x.state = .idle ∧ !x.resetDrain then (c1.setVoice k.tag { x with queue := [], tags := 0 }).ringStart k.tag
    else if x.resetDrain ∧ !(c.tunnel k.tag).opened then
      (c1.setTunnel k.tag { c1.tunnel k.tag with opened := true }).setVoice k.tag { x with queue := [], tags := 0 }
    else c1

/-- COMMAND: one command joins the voice's ring of 256 (R685). -/
def Chip.takeTunnelCommand (c0 : Chip) (k : Packet) : Chip :=
  if !c0.fromOrigin k then c0.admitDrop
  else
    let c := c0.callWake
    if 256 ≤ (c.voice k.tag).queue.length ∨ !((c.voice k.tag).ringEnable || (c.tunnel k.tag).opened) then c.dinc (ent (vIdx k.tag 3) 3)
    else c.takeCommand k.tag k.payload

/-- DICT_REQ: a READ or DESCRIBE is answered at once, a WRITE as it commits; the last request is answered again (R686). -/
def Chip.takeDictReq (c : Chip) (k : Packet) : Chip :=
  if !c.fromOrigin k then c.admitDrop
  else if c.silent then c
  else
    let v := k.tag
    let t := c.tunnel v
    let tag := k.arg % 0x10000
    if t.lastReq = some (k.arg, k.payload) then
      (if t.lastRsp.isEmpty then c else (c.toOrigin v 0x14 1 tag t.lastRsp).1)
    else
      let op := fieldAt k.payload 0 1
      let sub := fieldAt k.payload 1 1
      let idx := fieldAt k.payload 2 2
      let c1 := c.setTunnel v { t with lastReq := some (k.arg, k.payload), lastRsp := [] }
      if op = 2 then c1.submit { voice := v, via := ⟨5, tag⟩, idx, sub, data := k.payload.drop 4 }
      else if op = 1 ∨ op = 4 then
        let c2 := c1.callWake
        let r := if op = 4 then c2.dictDescribe v idx sub else c2.dictRead v idx sub
        (c2.noteReply v op idx sub r.1 r.2).tunnelAnswer v tag r.1 (if r.1 = 0 then r.2 else [])
      else c1.tunnelAnswer v tag 0x0A030001 []

/-- DMA_DATA (R687) and STORE_DATA (R688). -/
def Chip.takeData (c : Chip) (k : Packet) : Chip :=
  if k.ptype = 0x16 ∧ !c.fromOrigin k then c.admitDrop
  else c.answer k.tag k.arg (fieldAt k.payload 0 4) (k.payload.drop 4)

/-- ROUTE_FAIL: its payload names the lost packet (R670, R682, R687). -/
def Chip.takeRouteFail (c : Chip) (k : Packet) : Chip :=
  (c.dinc (routeKey 11)).packetLost (fieldAt k.payload 6 1) (fieldAt k.payload 0 2) (fieldAt k.payload 12 2)

/-! ### Virtual streams (R689, R690). In P6 and P7 they are discarded (R327, chapter 15). -/

/-- Rows that a channel's line buffer bank holds, at WIDTH bytes each: 1 MiB, or 2 MiB with the extra bank. -/
def Chip.bankRows (c : Chip) (ch : Nat) : Nat :=
  (if c.dget (camKey ch 35) = 0 then 1048576 else 2097152) / Nat.max 1 (c.camWidth ch)

/-- R689: the rows of frame `f` whose bytes are in time and within the line buffer bank: from the first to before the
second number. -/
def Chip.openRows (c : Chip) (ch f : Nat) : Nat × Nat :=
  let d : Int := toSigned 32 (f + m32 - c.epoch.pos.frame) * c.epoch.frameLines - c.epoch.pos.line
  ((max 0 (1 - d)).toNat, (max 0 (min (c.camHeight ch : Int) (c.bankRows ch - d + 1))).toNat)

/-- CAM_DATA. -/
def Chip.takeCamData (c : Chip) (k : Packet) : Chip :=
  let ch := k.tag
  if 6 ≤ ch ∨ c.dget (camKey ch 34) ≠ 1 then c
  else if !c.camOn ch || c.gated then c.dinc (camKey ch 45)
  else
    let frame := fieldAt k.payload 0 4
    let offset := fieldAt k.payload 4 4
    let bytes := k.payload.drop 8
    let n := c.camWidth ch * pixelBytes (c.dget (camKey ch 5))
    let rows := c.openRows ch frame
    let skip := rows.1 * n - offset
    let kept := (bytes.drop skip).take (rows.2 * n - (offset + skip))
    let c1 := if kept.length = bytes.length then c else c.dinc (camKey ch 45)
    if kept.isEmpty then c1
    else c1.setCam ch { c1.cam ch with chunks := (c1.cam ch).chunks ++ [({ frame, offset := offset + skip, bytes := kept } : CamChunk)] }

/-- The samples of an IMU_SAMPLES packet, as R399 lays them out. -/
def samplesOf (bs : List Byte) : List VirtualSample :=
  (List.range (bs.length / 16)).map (fun i => ⟨fieldAt bs (16 * i) 8, fieldAt bs (16 * i + 8) 4, fieldAt bs (16 * i + 12) 4⟩)

/-- IMU_SAMPLES. -/
def Chip.takeSamples (c : Chip) (k : Packet) : Chip :=
  if 16 ≤ k.tag ∨ c.dget (inKey k.tag 2) ≠ 2 ∨ c.gated = true then c
  else c.setChan k.tag { c.chan k.tag with virt := (c.chan k.tag).virt ++ samplesOf k.payload }

/-- Every byte of a list of `total` has arrived. -/
def listWhole (parts : List (Nat × List Byte)) (total : Nat) : Bool :=
  decide (total ≤ (parts.map (·.2.length)).foldl (· + ·) 0) &&
  (List.range total).all (fun i => parts.any (fun p => decide (p.1 ≤ i ∧ i < p.1 + p.2.length)))

/-- INJECT_LIST: a list enters once all of its TOTAL bytes have arrived. -/
def Chip.takeList (c : Chip) (k : Packet) : Chip :=
  let i := k.tag
  if 8 ≤ i ∨ c.eget i 0x3000 9 ≠ 1 ∨ c.gated = true then c
  else
    let parts := (c.est i).parts ++ [(fieldAt k.payload 0 4, k.payload.drop 8)]
    let total := fieldAt k.payload 4 4
    if !listWhole parts total then c.setEst i { c.est i with parts := parts }
    else
      let bytes := (joinChunks parts).take total
      let c1 := c.setEst i { c.est i with parts := [] }
      if fieldAt bytes 0 4 = 0x46544C53 ∧ goodInject bytes then c1.estInject i bytes else c1

/-- INJECT_RECORDS. No field of the record or the packet names its channel: a free value (log entry 7). -/
def Chip.takeRecords (c : Chip) (k : Packet) : Chip :=
  let i := k.tag
  if 8 ≤ i ∨ c.eget i 0x3000 9 ≠ 1 ∨ c.gated = true then c
  else
    let f := c.fresh .injected
    f.1.setEst i { f.1.est i with records := (f.1.est i).records ++ recordsOf (f.2 % 16) k.payload (k.payload.length / 32) }

/-! ### Delivery -/

/-- The service of a packet that is for this engine itself, by its type. A tunnel type of the other direction has none, and
counts where its voice's origin did not send it. -/
def Chip.serve (c : Chip) (k : Packet) : Chip :=
  match k.ptype with
  | 0x01 => c.takeEpoch k
  | 0x02 => c.arrival k.src k.arg
  | 0x03 => c.releaseArrived k.arg k.tag
  | 0x04 => c.takeRouteFail k
  | 0x10 => c.takeOpen k
  | 0x11 => c.takeTunnelCommand k
  | 0x13 => c.takeDictReq k
  | 0x16 | 0x31 => c.takeData k
  | 0x20 => c.takeCamData k
  | 0x21 => c.takeSamples k
  | 0x22 => c.takeList k
  | 0x23 => c.takeRecords k
  | 0x12 | 0x14 | 0x15 | 0x17 => if c.fromOrigin k then c else c.admitDrop
  | _ => c

/-- A packet stands at an input of this engine: it comes in by an UP string, or is the engine's own. -/
def Chip.atInput (c : Chip) (k : Packet) : Bool := decide (k.input < 6 ∧ c.strState k.input = 6) || k.input == 6

/-- PACKET_ROUTE: the packet is served, goes on, or is gone. In FAULTED only a dictionary request is served (R781). -/
def Chip.packetIn (c : Chip) (k : Packet) : Chip :=
  if !c.atInput k then c
  else match c.route k with
    | (c1, .mine) => if c.engine = .faulted ∧ k.ptype ≠ 0x13 then c1 else c1.serve (c.stamped k)
    | (c1, .failed) => c1.packetLost k.ptype k.dest k.tag
    | (c1, .gone) => c1

/-- A packet of the named types. -/
def Chip.packetOf (c : Chip) (types : List Nat) (k : Packet) : Chip := if types.contains k.ptype then c.packetIn k else c

end Sys2Proof.Machine
end

