-- ==== Sys2Proof/Machine/Settle.lean ====
section
/-! DEFINITION. What follows every command: the conditions that the engine watches by itself, and the form of a command's
meaning (R174, R312, R619, R804, R856, R869, Tables 6.7, 6.8). -/

namespace Sys2Proof.Machine

/-- Table 4.14: a transport carries the voices that Table 6.2 binds to it. -/
def goodVia (v : Nat) (via : Via) : Bool :=
  match via.transport with
  | 1 | 5 => decide (v ≤ 12)
  | 2 => decide (v ≤ 12) || v == 15
  | 3 => v == 13 || v == 14
  | 4 => v == 15
  | _ => false

/-- Table 16.2: the units there are. -/
def unitExists : UnitName → Bool
  | .core k | .lane k | .groupBank k | .spiMaster k | .encoder k => decide (k < 4)
  | .array k | .storeBank k | .inertial k => decide (k < 16)
  | .tier1Bank k => decide (k < 48)
  | .tier2Frame k => decide (k < 32768)
  | .lineBank k | .sensor k => decide (k < 8)
  | .camera k | .string k => decide (k < 6)
  | .canPort k => decide (k < 2)
  | .stringLane p l => decide (p < 6 ∧ l < 4)
  | .essential cause => decide (1 ≤ cause ∧ cause ≤ 10)
  | .usb | .pcie | .meshRouter | .breeze => true

/-! ### OVER_QUOTA (R312, R619) -/

/-- R312: what the voice uses of an item that no memory holds, 3 the ledger and 4 the cue slots, exceeds its LIMIT. -/
def Chip.overItem (c : Chip) (v item used : Nat) : Bool := decide (0 < used ∧ c.limit v item < used)

/-- Something in a memory tier is charged to the voice. -/
def Chip.billed (c : Chip) (v : Nat) : Bool :=
  c.tensors.any (fun (p : Nat × Tensor) => p.2.bill == v) || c.transients.any (fun t => t.voice == v) ||
  c.reserved.any (fun r => r.voice == v) || c.homeList.any (fun h => h.2.2.2 == some v)

/-- The voice's usage exceeds its LIMIT in a tier. -/
def Chip.overTier (c : Chip) (v tier : Nat) : Bool := decide (c.limitBytes v tier < c.usage v tier)
def Chip.overAny (c : Chip) (v : Nat) : Bool :=
  (c.billed v && (List.range 3).any (c.overTier v)) || c.overItem v 3 (c.ledgerUsed v) || c.overItem v 4 (c.cuesUsed v)

/-- OVER_QUOTA becomes 1 with a NOTICE and source 4. -/
def Chip.quotaRises (c : Chip) (v : Nat) : Chip :=
  if c.overAny v && !(c.keep v).overQuota then
    (((c.setKeep v { c.keep v with overQuota := true })).notice v 2).raise v 4
  else c

/-- R619: an OVER_QUOTA voice's copies are evicted. -/
def Chip.quotaEvicts (c : Chip) (v : Nat) : Chip :=
  if (c.keep v).overQuota then c.each ((List.range 3).filter (c.overTier v)) (fun (c : Chip) t => c.evictFor v t 0) else c

/-- OVER_QUOTA becomes 0 with a NOTICE. -/
def Chip.quotaFalls (c : Chip) (v : Nat) : Chip :=
  if (c.keep v).overQuota && !c.overAny v then (c.setKeep v { c.keep v with overQuota := false }).notice v 3 else c

def Chip.watchQuota (c : Chip) (v : Nat) : Chip := ((c.quotaRises v).quotaEvicts v).quotaFalls v

/-! ### Settling -/

/-- R174: a pending request to RUN or READY takes effect at once while the epoch is STOPPED. -/
def Chip.requestAtOnce (c : Chip) : Chip := if c.request.isSome && c.epoch.st == .stopped then c.applyRequest else c

/-- Table 6.8, source 5: the engine state or the error register has changed. A reset clears the pending bits with it. -/
def Chip.engineSource (c old : Chip) : Chip :=
  if c.engine ≠ .boot ∧ c.engine ≠ .reset ∧ (c.engine ≠ old.engine ∨ c.errorRegister ≠ old.errorRegister) then c.raise 0 5 else c

/-- What the engine does by itself after a command. -/
def Chip.settled (c old : Chip) : Chip :=
  let c1 := (c.requestAtOnce).each (List.range 16) Chip.watchQuota
  let c2 := ((c1.sweepDoomed).announcePoses old).noteWork old
  (c2.engineSource old).untilColdReset old

/-! ### Commands -/

/-- R804, R856: PORST_N is low or REFCLK_25 is lost, so the engine is held in RESET. -/
def Chip.off (c : Chip) : Bool := c.board.porstLow || !c.board.refclk

/-- A command of a running engine; an engine held in RESET answers to none. The round of dictionary operations of the
update, if there is one, ends (log entry 67). -/
def run (f : Chip → Chip) (s : State) : Host.Outcome State Fault Refusal :=
  if s.chip.off then .next s else .next { s with chip := (f s.chip).settled s.chip, round := {} }

/-- The blocks work: from CONFIG on, and not in FAULTED (R780, R781). -/
def Chip.alive (c : Chip) : Bool := c.engine == .config || c.engine == .ready || c.engine == .run || c.engine == .hold

/-- A command of a block that works only then. -/
def work (f : Chip → Chip) (s : State) : Host.Outcome State Fault Refusal := run (fun c => if c.alive then f c else c) s

/-- A change of a pin: its level is seen in RESET too. -/
def runPin (pin : Board → Board) (f : Chip → Chip) (s : State) : Host.Outcome State Fault Refusal :=
  if s.chip.off then .next { s with chip := { s.chip with board := pin s.chip.board } } else run f s

/-- A reset, which nothing follows. -/
def runReset (f : Chip → Chip) (s : State) : Host.Outcome State Fault Refusal := .next { s with chip := f s.chip, round := {} }

/-! ### The dictionary operations of one update (R156 to R160, R871, R873) -/

/-- The place of a commit of voice `v` over a TRANSPORT, and the place of everything that reads. -/
def commitPlace (v transport : Nat) : Nat := 1 + 8 * (v % 16) + transport % 8
def readPlace : Nat := 129

/-- The place of an operation in its update: writes of register mirrors come before every commit (R873), commits in
ascending voice order (R156) and, of one voice, in ascending TRANSPORT code (R160), and what reads comes last (R158). A
write that an earlier update has put off stands at its voice's end: where it has the lower code `submit` takes it first. -/
def RoundOp.place : RoundOp → Nat
  | .mirror _ _ _ => 0
  | .write _ q => commitPlace q.voice q.via.transport
  | .query _ _ _ _ | .usbQuery _ _ => readPlace
  | .deferred v => commitPlace v 6
  | .window v op => if op = 2 then commitPlace v 1 else readPlace
  | .command v op => if op = 2 then commitPlace v 2 else readPlace
  | .cueArm v => commitPlace v 2
  | .canFrame p codes _ => if codes = [1] ∨ codes = [4] ∨ codes = [6] then readPlace else commitPlace (canVoice p) 3
  | .usbStatus => commitPlace 15 4
  | .tunnel k => if fieldAt k.payload 0 1 = 2 then commitPlace k.tag 5 else readPlace

/-- What an operation does. -/
def RoundOp.effect (o : RoundOp) (c : Chip) : Chip :=
  match o with
  | .mirror offset value be => c.regWrite 0 offset value be
  | .write ok q => if ok then c.submit q else c
  | .query v op idx sub => if v < 16 then c.query v op idx sub else c
  | .deferred v => if v < 16 then c.commitDeferred v else c
  | .window v op => c.dictGo v op
  | .command v op => if v < 16 ∧ c.admits then (if op = 2 then c.cmdDictWrite v else c.cmdDictQuery v op) else c
  | .cueArm v => if v < 16 ∧ c.admits then c.cmdCueArm v else c
  | .canFrame p codes f => if p < 2 then c.canRequestOf p codes f else c
  | .usbQuery setup op => c.usbQuery setup op
  | .usbStatus => c.usbWriteStatus
  | .tunnel k => c.packetOf [0x13] k

/-- An operation among those of its update: after every one whose place is no later. -/
def Round.insert (ops : List RoundOp) (o : RoundOp) : List RoundOp :=
  ops.takeWhile (fun x => decide (x.place ≤ o.place)) ++ o :: ops.dropWhile (fun x => decide (x.place ≤ o.place))

/-- No operation of the update that has taken effect stands behind this one. -/
def Round.inOrder (r : Round) (o : RoundOp) : Bool := r.ops.all (fun x => decide (x.place ≤ o.place))

/-- The round with one operation more, where `c` is the chip that the operation finds. -/
def Round.push (r : Round) (c : Chip) (o : RoundOp) : Round :=
  { base := if r.ops.isEmpty then c else r.base, ops := Round.insert r.ops o }

/-- The chip after operations in the order of their update. -/
def Chip.replay (c : Chip) (ops : List RoundOp) : Chip := ops.foldl (fun c o => (o.effect c).settled c) c

/-- A dictionary operation of a running engine. The operations of one update take effect in the order of their places
whatever the order in which they arrive: one that arrives behind its place takes the update's operations back to the chip
before the first of them, and all of them take effect again in order (log entry 67). -/
def runRound (o : RoundOp) (s : State) : Host.Outcome State Fault Refusal :=
  if s.chip.off then .next s
  else
    let r := s.round.push s.chip o
    let c := if s.round.inOrder o then (o.effect s.chip).settled s.chip else (r.base.replay r.ops).untilColdReset s.chip
    .next { s with chip := c, round := r }

/-- A WRITE whose row's numbers exist where `ok` says so, by a transport that carries the voice. -/
def runWrite (ok : Bool) (v : Nat) (via : Via) (idx sub : Nat) (data : List Byte) (s : State) : Host.Outcome State Fault Refusal :=
  runRound (.write (ok && goodVia v via) { voice := v, via, idx, sub, data }) s

end Sys2Proof.Machine
end

