-- ==== Sys2Proof/Machine/CmdCan.lean ====
section
/-! DEFINITION. Meanings: the CAN FD ports (chapter 5). -/

namespace Sys2Proof.Machine

/-- A command of one of the two ports. -/
def canRun (p : Nat) (f : Chip → Chip) (s : State) : Host.Outcome State Fault Refusal := run (fun c => if p < 2 then f c else c) s

/-- CAN_READ: a READ frame (R214). -/
def execCanRead (p : Nat) (f : CanFrame) (s : State) := runRound (.canFrame p [0x1] f) s

/-- CAN_WRITE: an expedited WRITE frame (R215, R220). -/
def execCanWrite (p : Nat) (f : CanFrame) (s : State) := runRound (.canFrame p [0x2] f) s

/-- CAN_WRITE_INIT: opens a segmented write (R216). -/
def execCanWriteInit (p : Nat) (f : CanFrame) (s : State) := runRound (.canFrame p [0x3] f) s

/-- CAN_DESCRIBE: a DESCRIBE frame (R214). -/
def execCanDescribe (p : Nat) (f : CanFrame) (s : State) := runRound (.canFrame p [0x4] f) s

/-- CAN_SEGMENT: a client SEGMENT (R217, R218). -/
def execCanSegment (p : Nat) (f : CanFrame) (s : State) := runRound (.canFrame p [0x5] f) s

/-- CAN_SEGMENT_REQ: a client SEGMENT_REQ (R218). -/
def execCanSegmentReq (p : Nat) (f : CanFrame) (s : State) := runRound (.canFrame p [0x6] f) s

/-- CAN_CLIENT_ABORT: a client ABORT (R229). -/
def execCanClientAbort (p : Nat) (f : CanFrame) (s : State) := runRound (.canFrame p [0xE] f) s

/-- TRANSFER_TIMEOUT (R228): counted in ETICK, 250,000 to the millisecond. -/
def execTransferTimeout (p : Nat) (s : State) :=
  canRun p (fun c => match (c.port p).transfer with
    | some t => if t.at_ + c.dget (canKey p 19) * 250000 ≤ c.now then c.canRefuse p t.tag t.idx t.sub 0x0A060002 else c
    | none => c) s

/-- MB_REQUEST (R201). -/
def execMbRequest (p m : Nat) (s : State) := canRun p (fun c => if p < 2 ∧ m < 32 then c.requestMb p m else c) s

/-- MB_CANCEL (R205). -/
def execMbCancel (p m : Nat) (s : State) := canRun p (fun c => if p < 2 ∧ m < 32 then c.cancelMb p m else c) s

/-- ATTEMPT_START (R201, R240): the port offers its winning mailbox on an idle bus. -/
def execAttemptStart (p : Nat) (s : State) :=
  canRun p (fun c => c.attemptStart p) s

/-- CAN_ATTEMPT_END (R202, R205, R244 to R246). -/
def execCanAttemptEnd (p : Nat) (r : AttemptReport) (s : State) :=
  canRun p (fun c => c.attemptEnd p r.result r.tdcv r.dominant) s

/-- CAN_FRAME_RECEIVED (R206 to R209, R227, R237). -/
def execCanFrameReceived (p : Nat) (f : CanFrame) (s : State) := 
  if s.chip.isRequest p f then runRound (.canFrame p (List.range 16) f) s else canRun p (fun c => c.canReceive p f) s

/-- RX_POP: a write of 1 discards the head frame (Table 5.5); 0 does nothing, other bits are reserved (R127). -/
def execRxPop (p value : Nat) (s : State) :=
  canRun p (fun c =>
    if 1 < value then c.reject 0 (0x610000 + p * 0x1000 + 0xE60) value 8
    else if value = 1 then c.setPort p { c.port p with fifo := (c.port p).fifo.drop 1 } else c) s

/-- HEARTBEAT (R234, R236). -/
def execHeartbeat (p : Nat) (s : State) := canRun p (fun c => if c.beatDue p then c.beat p else c) s

/-- RECEIVE_ERROR (R239): REC rises by the amount that ISO 11898-1 gives the error, and stops at 255. -/
def execReceiveError (p amount : Nat) (s : State) :=
  canRun p (fun c =>
    if c.onBus p then
      ((c.dset (canKey p 15) (Nat.min 255 (c.dget (canKey p 15) + amount))).dinc (canKey p 22)).busStateUpdate p
    else c) s

/-- BUS_OFF (R241): entered when TEC has passed 255. -/
def execBusOff (p : Nat) (s : State) :=
  canRun p (fun c => if c.onBus p && c.dget (canKey p 14) == 256 then c.goBusOff p else c) s

/-- BUS_OFF_RECOVERY_END (R242, R243): after `count` more sequences of 11 recessive bits. -/
def execBusOffRecoveryEnd (x : RecessiveRun) (s : State) := canRun x.port (fun c => c.recoveryRuns x.port x.count) s

end Sys2Proof.Machine
end

