-- ==== Sys2Proof/Machine/CmdCompute.lean ====
section
/-! DEFINITION. Meanings: the estimator, the solver and the tensor arrays (chapters 9 to 11). -/

namespace Sys2Proof.Machine

/-- FRAME_PROCESSING_START (R454). -/
def execFrameProcessingStart (i : Nat) (s : State) := work (fun c => if i < 8 then c.frameStep i else c) s

/-- SOLVER_RESULT_WRITE (R541): the lane's request ends with its result; an estimator's goes on with its frame. -/
def execSolverResultWrite (lane : Nat) (s : State) :=
  work (fun c => match c.laneResult lane with
    | (c1, some r) => c1.estSolved r
    | (c1, none) => c1) s

/-- PASSAGE_RUN_COMPLETE (R581): the run's outputs take their new contents; an estimator's goes on with its frame. -/
def execPassageRunComplete (p : Nat) (s : State) :=
  work (fun c => match c.completeRun p with
    | (c1, some (r, out)) => match r.est with
      | some (i, desc, f) => c1.modelDone i desc f r.image out
      | none => c1
    | (c1, none) => c1) s

/-- CLOSURE_DUE (R477, R478). -/
def execClosureDue (i : Nat) (s : State) := work (fun c => if i < 8 then c.closureDue i else c) s

/-- EXPORT_COMPLETE (R498). -/
def execExportComplete (i : Nat) (s : State) := work (fun c => if i < 8 then c.exportDone i else c) s

/-- RUN_TABLATURE (R517): the admitted command of voice v. -/
def execRunTablature (v : Nat) (s : State) := work (fun c => if v < 16 ∧ c.admits then c.runSolve v 2 else c) s

/-- SOLVE_DELTA (R517): the admitted command of voice v. -/
def execSolveDelta (v : Nat) (s : State) := work (fun c => if v < 16 ∧ c.admits then c.runSolve v 3 else c) s

/-- SOLVER_REQUEST_START (R519). -/
def execSolverRequestStart (l : Nat) (s : State) := work (fun c => c.laneStart l) s

/-- FACTOR_REEVALUATION (R538): the control cores evaluate a running estimator request's factors between iterations. -/
def execFactorReevaluation (l : Nat) (s : State) :=
  work (fun c => match (c.lane l).running with
    | some r =>
      if r.est.isSome && r.started && !c.computeGated && decide (r.evals + 1 < r.iterations) then
        c.setLane l { c.lane l with running := some { r with evals := r.evals + 1 } }
      else c
    | none => c) s

/-- RUN_PASSAGE (R569): the admitted command of voice v. -/
def execRunPassage (v : Nat) (s : State) := work (fun c => if v < 16 ∧ c.admits then c.runPassage v else c) s

/-- PASSAGE_RUN_START (R575): `p` is the passage's tensor. -/
def execPassageRunStart (p : Nat) (s : State) := work (fun c => c.startPassage p) s

/-- OPERATOR_GRANT (R555, R584): one cycle. -/
def execOperatorGrant (s : State) := work (fun c => c.grantCycle) s

/-- OPERATOR_END (R579, R561 to R568): operator `op` of passage `p`. -/
def execOperatorEnd (p op : Nat) (s : State) := work (fun c => c.endOperator p op) s

/-- STALL_MOVE (R607). -/
def execStallMove (tensor tier array : Nat) (s : State) := work (fun c => c.stallMove tensor tier array) s

end Sys2Proof.Machine
end

