-- ==== Sys2Proof/Machine/CmdDictionary.lean ====
section
/-! DEFINITION. Meanings: the object dictionary and its entries with a row of their own (chapters 4 to 18). -/

namespace Sys2Proof.Machine

/-- DICT_READ (R142). -/
def execDictRead (v idx sub : Nat) (s : State) := runRound (.query v 1 idx sub) s

/-- DICT_WRITE (R153). -/
def execDictWrite (v : Nat) (via : Via) (idx sub : Nat) (data : List Byte) (s : State) :=
  runWrite true v via idx sub data s

/-- DICT_DESCRIBE (R141). -/
def execDictDescribe (v idx sub : Nat) (s : State) := runRound (.query v 4 idx sub) s

/-- DEFERRED_WRITE_COMMIT (R160). -/
def execDeferredWriteCommit (v : Nat) (s : State) := runRound (.deferred v) s

/-- STATE_REQUEST_READY (R173). -/
def execStateRequestReady (v : Nat) (via : Via) (s : State) := runWrite true v via 0x1001 2 [4] s

/-- STATE_REQUEST_CONFIG (R172). -/
def execStateRequestConfig (v : Nat) (via : Via) (s : State) := runWrite true v via 0x1001 2 [3] s

/-- STATE_REQUEST_RUN (R174): `target` is 5, RUN, or 4, READY. -/
def execStateRequestRun (v : Nat) (via : Via) (target : Nat) (s : State) :=
  runWrite true v via 0x1001 2 (leBytes 1 target) s

/-- STATE_REQUEST_HOLD (R763). -/
def execStateRequestHold (v : Nat) (via : Via) (s : State) := runWrite true v via 0x1001 2 [6] s

/-- STATE_REQUEST_HOLD_EXIT (R766, R767). -/
def execStateRequestHoldExit (v : Nat) (via : Via) (s : State) := runWrite true v via 0x1001 2 [4] s

/-- BEHAVIOUR_LEVEL_REQUEST (R161). -/
def execBehaviourLevelRequest (v : Nat) (via : Via) (level : Nat) (s : State) :=
  runWrite true v via 0x1018 3 (leBytes 1 level) s

/-- NONCE (R794, R796). -/
def execNonce (v : Nat) (via : Via) (data : List Byte) (s : State) := runWrite true v via 0x1011 1 data s

/-- LOCK (R797). -/
def execLock (v : Nat) (via : Via) (value : Nat) (s : State) := runWrite true v via 0x1020 2 (leBytes 4 value) s

/-- STORE (R164 to R168). -/
def execStore (v : Nat) (via : Via) (value : Nat) (s : State) := runWrite true v via 0x1100 1 (leBytes 4 value) s

/-- RESTORE (R168 to R171). -/
def execRestore (v : Nat) (via : Via) (value : Nat) (s : State) :=
  runWrite true v via 0x1101 1 (leBytes 4 value) s

/-- RECOVER (R242). -/
def execRecover (v : Nat) (via : Via) (port value : Nat) (s : State) :=
  runWrite (port < 2) v via (0x1800 + port) 12 (leBytes 1 value) s

/-- BREEZE_ENABLE (R694). -/
def execBreezeEnable (v : Nat) (via : Via) (value : Nat) (s : State) :=
  runWrite true v via 0x1820 1 (leBytes 1 value) s

/-- TX (R722). -/
def execTx (v : Nat) (via : Via) (data : List Byte) (s : State) := runWrite true v via 0x1820 16 data s

/-- CAMERA_ENABLE (R371). -/
def execCameraEnable (v : Nat) (via : Via) (ch value : Nat) (s : State) :=
  runWrite (ch < 6) v via (0x2000 + ch) 1 (leBytes 1 value) s

/-- RECT_ENABLE (R334). -/
def execRectEnable (v : Nat) (via : Via) (ch value : Nat) (s : State) :=
  runWrite (ch < 6) v via (0x2000 + ch) 11 (leBytes 1 value) s

/-- CAMERA_INJECT (R376). -/
def execCameraInject (v : Nat) (via : Via) (ch tensor : Nat) (s : State) :=
  runWrite (ch < 6) v via (0x2000 + ch) 36 (leBytes 4 tensor) s

/-- INERTIAL_INJECT (R399). -/
def execInertialInject (v : Nat) (via : Via) (ch tensor : Nat) (s : State) :=
  runWrite (ch < 16) v via (0x2100 + ch) 12 (leBytes 4 tensor) s

/-- COEF_LOAD (R411). -/
def execCoefLoad (v : Nat) (via : Via) (ch tensor : Nat) (s : State) :=
  runWrite (ch < 16) v via (0x2100 + ch) 30 (leBytes 4 tensor) s

/-- SWAP (R412). -/
def execSwap (v : Nat) (via : Via) (ch value : Nat) (s : State) :=
  runWrite (ch < 16) v via (0x2100 + ch) 31 (leBytes 1 value) s

/-- SYNC_WRITE (R415). -/
def execSyncWrite (v : Nat) (via : Via) (ch value : Nat) (s : State) :=
  runWrite (ch < 16) v via (0x2100 + ch) 33 (leBytes 1 value) s

/-- CHANNEL_RESTART (R417): a write to ENABLE, PHASE_INT or PHASE_FRAC. -/
def execChannelRestart (v : Nat) (via : Via) (ch sub value : Nat) (s : State) :=
  runWrite (ch < 16 && (sub == 1 || sub == 8 || sub == 9)) v via (0x2100 + ch) sub (leBytes (if sub = 8 then 2 else 1) value) s

/-- PRESET (R427). -/
def execPreset (v : Nat) (via : Via) (e value : Nat) (s : State) :=
  runWrite (e < 4) v via (0x2180 + e) 7 (leBytes 4 value) s

/-- INSTANCE_ENABLE (R440): of the instance that the voice has selected. -/
def execInstanceEnable (v : Nat) (via : Via) (s : State) := runWrite true v via 0x3000 2 [1] s

/-- INSTANCE_DISABLE (R443). -/
def execInstanceDisable (v : Nat) (via : Via) (s : State) := runWrite true v via 0x3000 2 [0] s

/-- ESTIMATOR_INJECT (R450). -/
def execEstimatorInject (v : Nat) (via : Via) (tensor : Nat) (s : State) :=
  runWrite true v via 0x3000 10 (leBytes 4 tensor) s

/-- CLEAR (R481). -/
def execClearMap (v : Nat) (via : Via) (value : Nat) (s : State) :=
  runWrite true v via 0x3020 4 (leBytes 1 value) s

/-- EXPORT (R497). -/
def execExportMap (v : Nat) (via : Via) (value : Nat) (s : State) :=
  runWrite true v via 0x3020 5 (leBytes 1 value) s

/-- IMPORT (R500). -/
def execImportMap (v : Nat) (via : Via) (tensor : Nat) (s : State) :=
  runWrite true v via 0x3020 8 (leBytes 4 tensor) s

/-- EVICT (R516). -/
def execEvict (v : Nat) (via : Via) (tensor : Nat) (s : State) :=
  runWrite true v via 0x3800 21 (leBytes 4 tensor) s

/-- CREATE (R598). -/
def execCreate (v : Nat) (via : Via) (descriptor : List Byte) (s : State) :=
  runWrite true v via 0x4100 11 descriptor s

/-- RELEASE (R601). -/
def execRelease (v : Nat) (via : Via) (tensor : Nat) (s : State) :=
  runWrite true v via 0x4100 12 (leBytes 4 tensor) s

/-- REFRESH (R603). -/
def execRefresh (v : Nat) (via : Via) (tensor : Nat) (s : State) :=
  runWrite true v via 0x4100 13 (leBytes 4 tensor) s

/-- REQUIRED_WIDTH_WRITE (R639). -/
def execRequiredWidthWrite (v : Nat) (via : Via) (p value : Nat) (s : State) :=
  runWrite (p < 6) v via (0x4800 + p) 3 (leBytes 1 value) s

/-- DETOUR_ENTRY (R671): of the address in DETOUR_SELECT. -/
def execDetourEntry (v : Nat) (via : Via) (value : Nat) (s : State) :=
  runWrite true v via 0x4820 4 (leBytes 1 value) s

/-- DETOUR_CLEAR (R671). -/
def execDetourClear (v : Nat) (via : Via) (value : Nat) (s : State) :=
  runWrite true v via 0x4820 5 (leBytes 1 value) s

/-- CEILING_FLOOR_WRITE (R744): CEILING is subindex 2 and FLOOR subindex 3. -/
def execCeilingFloorWrite (v : Nat) (via : Via) (sub value : Nat) (s : State) :=
  runWrite (sub == 2 || sub == 3) v via 0x5000 sub (leBytes 1 value) s

/-- ATTN_ACK (R784). -/
def execAttnAck (v : Nat) (via : Via) (value : Nat) (s : State) :=
  runWrite true v via 0x5800 7 (leBytes 1 value) s

/-- OVERFLOW_CLEAR (R787). -/
def execOverflowClear (v : Nat) (via : Via) (value : Nat) (s : State) :=
  runWrite true v via 0x5820 5 (leBytes 1 value) s

/-- PERSIST_CLEAR (R791). -/
def execPersistClear (v : Nat) (via : Via) (value : Nat) (s : State) :=
  runWrite true v via 0x5820 10 (leBytes 4 value) s

/-- FW_INSTALL (R821). -/
def execFwInstall (v : Nat) (via : Via) (tensor : Nat) (s : State) :=
  runWrite true v via 0x6000 12 (leBytes 4 tensor) s

/-- BROADCAST_ENABLE (R182). -/
def execBroadcastEnable (v : Nat) (via : Via) (ch value : Nat) (s : State) :=
  runWrite (ch < 32) v via (0x7000 + ch) 1 (leBytes 1 value) s

/-- BROADCAST_MAP_WRITE (R181): MAP_k is subindex k + 2. -/
def execBroadcastMapWrite (v : Nat) (via : Via) (ch k value : Nat) (s : State) :=
  runWrite (ch < 32 && k < 16) v via (0x7020 + ch) (k + 2) (leBytes 4 value) s

/-- VOICE_RESET_ENTRY (R305): B:4 of voice `target`. -/
def execVoiceResetEntry (v : Nat) (via : Via) (target value : Nat) (s : State) :=
  runWrite (target < 16) v via (0x8000 + 0x40 * target) 4 (leBytes 4 value) s

/-- TUNNEL_WRITE (R254): B:5 of voice `target`. -/
def execTunnelWrite (v : Nat) (via : Via) (target value : Nat) (s : State) :=
  runWrite (target < 16) v via (0x8000 + 0x40 * target) 5 (leBytes 1 value) s

/-- QUOTA_WRITE (R310 to R312): B+1 of voice `target`. -/
def execQuotaWrite (v : Nat) (via : Via) (target sub value : Nat) (s : State) :=
  runWrite (target < 16 && 1 ≤ sub && sub ≤ 5) v via (0x8001 + 0x40 * target) sub (leBytes (if sub = 5 then 2 else 4) value) s

end Sys2Proof.Machine
end

