-- ==== Sys2Proof/Machine/CmdEngine.lean ====
section
/-! DEFINITION. Meanings: the memory tiers, the boot flash, faults and identity, and the governor (chapters 12, 15, 16 and 17). -/

namespace Sys2Proof.Machine

/-- TENSOR_MOVE_COMPLETE (R605 to R610). -/
def execTensorMoveComplete (tensor : Nat) (s : State) := work (fun c => c.moveDone tensor) s

/-- WRITE_BACK_COMPLETE (R611). -/
def execWriteBackComplete (tensor : Nat) (s : State) := work (fun c => c.writeBackDone tensor) s

/-- RELOCATION (R592): `target` is the new address. -/
def execRelocation (tensor tier target : Nat) (s : State) := work (fun c => c.relocation tensor tier target) s

/-- TIER2_ECC_EVENT (R630): an access to the byte address meets an ECC event. -/
def execTier2EccEvent (address : Nat) (corrected : Bool) (s : State) :=
  work (fun c => c.retireUnit (.tier2Frame (address / 0x100000)) (if corrected then 1 else 2) address) s

/-- ENGINE_TENSOR_RECREATE (R632). -/
def execEngineTensorRecreate (tensor : Nat) (s : State) := work (fun c => c.recreateEngine tensor) s

/-- STORE_COMPLETE (R167). -/
def execStoreComplete (s : State) := run (fun c => c.storeDone) s

/-- STORE_ABANDONED (R167). -/
def execStoreAbandoned (s : State) := run (fun c => c.abandonStore) s

/-- FW_INSTALL_COMPLETE (R822). -/
def execFwInstallComplete (s : State) := run (fun c => c.installDone) s

/-- FW_INSTALL_ABANDONED (R823). -/
def execFwInstallAbandoned (s : State) := run (fun c => c.abandonInstall) s

/-- SIGNATURE_COMPLETE (R795). -/
def execSignatureComplete (s : State) := run (fun c => c.signed) s

/-- ERROR_DETECTED (R773 to R777): `check` is the DETAIL of Table 16.13. -/
def execErrorDetected (unit : UnitName) (check address : Nat) (s : State) :=
  run (fun c => if unitExists unit then c.retireUnit unit check address else c) s

/-- FAULTED_ENTRY (R779, R780): for a cause of Table 16.3. A fretboard that fails its check and an image that does not verify
are found before the engine leaves BOOT (R104, R819). -/
def execFaultedEntry (cause : Nat) (s : State) :=
  run (fun c =>
    let inTime := c.engine == .boot || (c.engine != .reset && cause != 6 && cause != 10)
    if 1 ≤ cause ∧ cause ≤ 10 ∧ inTime then c.enterFaulted cause else c) s

/-- DEMAND_TICK (R750). -/
def execDemandTick (utilisation : Nat) (s : State) := run (fun c => c.demandTick utilisation) s

/-- THERMAL_TICK (R752 to R755). -/
def execThermalTick (sensors : List Int) (s : State) := run (fun c => c.thermalSample sensors) s

/-- THERMAL_RELEASE (R754). -/
def execThermalRelease (s : State) := run (fun c => c.thermalRelease) s

/-- CURRENT_LIMIT_STEP (R757). -/
def execCurrentLimitStep (icore : Nat) (s : State) := run (fun c => c.currentStep icore) s

/-- CURRENT_RELEASE (R757). -/
def execCurrentRelease (s : State) := run (fun c => c.currentRelease) s

/-- VR_SETTLE (R745). -/
def execVrSettle (s : State) := run (fun c => c.vrSettled) s

/-- IDLE_GATE_ENTRY (R761). -/
def execIdleGateEntry (s : State) := run (fun c => c.idleGate) s

/-- IDLE_GATE_EXIT (R762). -/
def execIdleGateExit (s : State) := run (fun c => c.idleGateExit) s

/-- HOLD_ENTRY_COMPLETE (R763). -/
def execHoldEntryComplete (s : State) := run (fun c => c.holdComplete) s

/-- HOLD_EXIT_COMPLETE (R767). -/
def execHoldExitComplete (s : State) := run (fun c => c.holdLeft) s

/-- THERMAL_TRIP (R764). -/
def execThermalTrip (tj : Int) (s : State) := run (fun c => c.trip tj) s

/-- TRIP_RESUME (R764). -/
def execTripResume (tj : Int) (s : State) := run (fun c => c.tripResume tj) s

/-- RAIL_LINK_FAILURE (R770). -/
def execRailLinkFailure (outputFault : Bool) (s : State) := run (fun c => c.railTrouble outputFault) s

/-- VR_ALERT_N (R770). -/
def execVrAlertN (statusWord : Nat) (s : State) := run (fun c => c.vrAlert statusWord) s

end Sys2Proof.Machine
end

