-- ==== Sys2Proof/Machine/CmdEpoch.lean ====
section
/-! DEFINITION. Meanings: the epoch and its cues (chapter 2). -/

namespace Sys2Proof.Machine

/-- LINE_EDGE (R43, R44): `interval` is the time since the previous edge of `src` in 1/256 ns. -/
def execLineEdge (src interval : Nat) (s : State) := run (fun c => c.lineEdge src interval) s

/-- FRACTION_UPDATE (R45): updates of 4 ns pass. -/
def execFractionUpdate (updates : Nat) (s : State) := run (fun c => c.passTime updates) s

/-- FRAME_START (R42). -/
def execFrameStart (src : Nat) (s : State) := run (fun c => c.frameStartEvent src) s

/-- EPOCH_FRAME_END (R47). -/
def execEpochFrameEnd (src : Nat) (s : State) := run (fun c => c.frameEnd src) s

/-- BLANKING_LINE (R47). -/
def execBlankingLine (s : State) := run (fun c => c.blankingLine) s

/-- FREEWHEEL_ENTRY (R63). -/
def execFreewheelEntry (s : State) := run (fun c => c.enterFreewheel) s

/-- FREEWHEEL_LINE (R63). -/
def execFreewheelLine (s : State) := run (fun c => c.freewheelLine) s

/-- HOLD_INTERVAL (R63). -/
def execHoldInterval (s : State) := run (fun c => c.holdInterval) s

/-- REVERSE_COUNT (R48). -/
def execReverseCount (src : Nat) (s : State) := run (fun c => c.reverseCount src) s

/-- SYNTHETIC_EDGE (R69). -/
def execSyntheticEdge (s : State) := run (fun c => c.syntheticEdge) s

/-- SOURCE_WRITE (R50): SOURCE is subindex 1 and FRAME_LINES subindex 2. -/
def execSourceWrite (v : Nat) (via : Via) (sub value : Nat) (s : State) :=
  runWrite (sub == 1 || sub == 2) v via 0x2800 sub (leBytes sub value) s

/-- VIRTUAL_RECORD_STEP (R67). -/
def execVirtualRecordStep (s : State) := run (fun c => c.recordStep) s

/-- CUE_ARM_WRITE (R91): a write of 1 to STATE. -/
def execCueArmWrite (v : Nat) (via : Via) (slot : Nat) (s : State) :=
  runWrite (slot < 1024) v via (0x2C00 + slot) 1 [1] s

/-- CUE_ARM_COMMIT (R871). -/
def execCueArmCommit (s : State) := run (fun c => if c.engine = .faulted then c else c.armNext) s

/-- CUE_CANCEL_WRITE (R80): a write of 0 to STATE. -/
def execCueCancelWrite (v : Nat) (via : Via) (slot : Nat) (s : State) :=
  runWrite (slot < 1024) v via (0x2C00 + slot) 1 [0] s

/-- CUE_FIRE (R74 to R79): one update's comparison. -/
def execCueFire (s : State) := run (fun c => c.fireCues) s

/-- TRIG_PULSE_END (R84). -/
def execTrigPulseEnd (pin : Nat) (s : State) := run (fun c => c.pulseEnd pin) s

end Sys2Proof.Machine
end

