-- ==== Sys2Proof/Machine/CmdMesh.lean ====
section
/-! DEFINITION. Meanings: strings, the mesh and its services, and the Breeze link (chapters 13 and 14). -/

namespace Sys2Proof.Machine

/-- A command of one of the six strings. -/
def strRun (p : Nat) (f : Chip → Chip) (s : State) : Host.Outcome State Fault Refusal := run (fun c => if p < 6 then f c else c) s

/-- LANE_LOCK (R643, R646): the headers that the receiver tests on the lane. -/
def execLaneLock (p : Nat) (x : LaneHeaders) (s : State) := strRun p (fun c => c.laneLocks p x.lane x.headers) s

/-- LANE_LOCK_LOSS (R644, R647): headers received on lanes within 64 block times. -/
def execLaneLockLoss (p : Nat) (lanes : List LaneHeaders) (s : State) := strRun p (fun c => c.lanesLost p lanes) s

/-- STRING_LOCKING (R645). -/
def execStringLocking (p : Nat) (s : State) := strRun p (fun c => c.stringLocks p) s

/-- LOCKING_TIMEOUT (R646). -/
def execLockingTimeout (p : Nat) (s : State) := strRun p (fun c => c.lockTimeout p) s

/-- ADDRESS_LEARN (R651). -/
def execAddressLearn (s : State) := run (fun c => c.learnAddress) s

/-- PLAN_CHECK (R652, R653): TRAIN flits as the lanes receive them. -/
def execPlanCheck (p : Nat) (flits : List LaneFlit) (s : State) := strRun p (fun c => c.trained p flits) s

/-- NO_NEIGHBOUR (R652). -/
def execNoNeighbour (p : Nat) (s : State) := strRun p (fun c => c.noNeighbour p) s

/-- MISWIRED_RETRY (R645). -/
def execMiswiredRetry (p : Nat) (s : State) := strRun p (fun c => c.miswiredRetry p) s

/-- RATE_SWITCH (R649). -/
def execRateSwitch (p : Nat) (relocked : List Nat) (s : State) := strRun p (fun c => c.rateSwitch p relocked) s

/-- LANE_TEST_COMPLETE (R649). -/
def execLaneTestComplete (p : Nat) (passed : List LaneTail) (s : State) := strRun p (fun c => c.testComplete p passed) s

/-- RT_ALIGN (R655, R656): RT_SENT, ECHO_RT and TURN of a TRAIN flit, and the cycles since its arrival. -/
def execRtAlign (p : Nat) (x : RtEcho) (elapsed : Nat) (s : State) := strRun p (fun c => c.rtAlign p x.sent x.echo x.turn elapsed) s

/-- The next block of a string that is UP comes in on the lane of R638. The block itself says which flit it is, IDLE included. -/
def flitRun (p : Nat) (block : LaneBlock) (s : State) : Host.Outcome State Fault Refusal := strRun p (fun c => c.takeBlock p block) s

/-- TRAIN_FLIT_RECEIVED (R645). -/
def execTrainFlitReceived (x : StringBlock) (s : State) := flitRun x.port x.block s

/-- DATA_FLIT_RECEIVED (R658). -/
def execDataFlitReceived (p : Nat) (header : BitVec 2) (body : BitVec 256) (s : State) := flitRun p ⟨header, body⟩ s

/-- BAD_CONTROL_FLIT (R642). -/
def execBadControlFlit (x : StringBlock) (s : State) := flitRun x.port x.block s

/-- NACK (R659). -/
def execNack (p : Nat) (block : LaneBlock) (s : State) := flitRun p block s

/-- REPLAY (R659). -/
def execReplay (p : Nat) (block : LaneBlock) (s : State) := flitRun p block s

/-- ACK (R660). -/
def execAck (p : Nat) (block : LaneBlock) (s : State) := flitRun p block s

/-- ACK_SEND (R660). -/
def execAckSend (p : Nat) (s : State) := strRun p (fun c => if c.strState p = 6 then c.ackDue p else c) s

/-- REPLAY_TIMEOUT (R661). -/
def execReplayTimeout (p : Nat) (s : State) := strRun p (fun c => if c.strState p = 6 then c.replayTimeout p else c) s

/-- CREDIT (R664). -/
def execCredit (p : Nat) (block : LaneBlock) (s : State) := flitRun p block s

/-- CREDIT_SEND (R664). -/
def execCreditSend (p : Nat) (s : State) := strRun p (fun c => if c.strState p = 6 then c.creditDue p else c) s

/-- PACKET_ROUTE (R666 to R676). -/
def execPacketRoute (pkt : Packet) (s : State) := run (fun c => c.packetIn pkt) s

/-- ROUTE_FAIL_RECEIVED (R682, R687). -/
def execRouteFailReceived (pkt : Packet) (s : State) := run (fun c => c.packetOf [4] pkt) s

/-- EPOCH_PACKET (R677, R680). -/
def execEpochPacket (pkt : Packet) (s : State) := run (fun c => c.packetOf [1] pkt) s

/-- LULL_ARRIVE (R681, R682). -/
def execLullArrive (pkt : Packet) (s : State) := run (fun c => c.packetOf [2] pkt) s

/-- LULL_RELEASE (R681, R682). -/
def execLullRelease (pkt : Packet) (s : State) := run (fun c => c.packetOf [3] pkt) s

/-- OPEN (R684, R685). -/
def execOpenTunnel (pkt : Packet) (s : State) := run (fun c => c.packetOf [0x10] pkt) s

/-- COMMAND over a tunnel (R685). -/
def execTunnelCommand (pkt : Packet) (s : State) := run (fun c => c.packetOf [0x11] pkt) s

/-- DICT_REQ (R686). -/
def execDictReq (pkt : Packet) (s : State) := runRound (.tunnel pkt) s

/-- DMA_DATA (R687). -/
def execDmaData (pkt : Packet) (s : State) := run (fun c => c.packetOf [0x16] pkt) s

/-- STORE_DATA (R688). -/
def execStoreData (pkt : Packet) (s : State) := run (fun c => c.packetOf [0x31] pkt) s

/-- CAM_DATA (R689). -/
def execCamData (pkt : Packet) (s : State) := run (fun c => c.packetOf [0x20] pkt) s

/-- IMU_SAMPLES (R690). -/
def execImuSamples (pkt : Packet) (s : State) := run (fun c => c.packetOf [0x21] pkt) s

/-- INJECT_LIST (R690). -/
def execInjectList (pkt : Packet) (s : State) := run (fun c => c.packetOf [0x22] pkt) s

/-- INJECT_RECORDS (R690). -/
def execInjectRecords (pkt : Packet) (s : State) := run (fun c => c.packetOf [0x23] pkt) s

/-- DMA_TIMEOUT (R687). -/
def execDmaTimeout (v id : Nat) (s : State) := run (fun c => c.dmaTimedOut v id) s

/-- EPOCH_RECORD_APPLY (R678 to R680). -/
def execEpochRecordApply (s : State) := run (fun c => c.applyRecords) s

/-- BEACON (R714, R726). -/
def execBeacon (s : State) := work (fun c => c.sendBeacon) s

/-- SLOT_TRANSMIT (R719, R724). -/
def execSlotTransmit (s : State) := work (fun c => c.ownSlot) s

/-- BREEZE_SYNC (R705, R706): the receiver's levels up to the last bit of a sync word, which ends in this update. -/
def execBreezeSync (levels : List Nat) (s : State) := work (fun c => c.syncWord levels) s

/-- BREEZE_HEADER (R707): the next levels, which end in this update. -/
def execBreezeHeader (levels : List Nat) (s : State) := work (fun c => c.takeHeader levels) s

/-- BREEZE_FRAME_RECEIVED (R729): the levels of payload and CRC, with CONTRAST and RSSI of R710. -/
def execBreezeFrameReceived (contrast rssi : Nat) (payload crc : List Nat) (s : State) :=
  work (fun c => c.dataFrame contrast rssi (payload ++ crc)) s

/-- BEACON_RECEIVED (R717). -/
def execBeaconReceived (contrast rssi : Nat) (payload crc : List Nat) (s : State) :=
  work (fun c => c.beaconFrame contrast rssi (payload ++ crc)) s

/-- BREEZE_ACK_SEND (R727). -/
def execBreezeAckSend (s : State) := work (fun c => c.bzSendAck) s

/-- BREEZE_ACK_RECEIVED (R724, R727). -/
def execBreezeAckReceived (contrast rssi : Nat) (payload crc : List Nat) (s : State) :=
  work (fun c => c.ackFrame contrast rssi (payload ++ crc)) s

/-- ACK_TIMEOUT (R727). -/
def execAckTimeout (s : State) := work (fun c => c.ackTimedOut) s

/-- BEACON_MISSED (R720). -/
def execBeaconMissed (s : State) := work (fun c => c.beaconMissed) s

/-- SLOT_OVERRUN (R716). -/
def execSlotOverrun (s : State) := work (fun c => c.slotOverrun) s

/-- SOURCE_FORGET (R730). -/
def execSourceForget (source : Nat) (s : State) := work (fun c => c.forgetSource source) s

end Sys2Proof.Machine
end

