-- ==== Sys2Proof/Machine/CmdRegisters.lean ====
section
/-! DEFINITION. Meanings: register accesses and the tier 1 aperture (chapters 3, 5 and 6). -/

namespace Sys2Proof.Machine

/-- REGISTER_WRITE (R119, R126 to R128): four bytes at `offset` of function `fn`, with byte enables. A write to a window whose
registers mirror entries has its place before every commit of its update (R873). -/
def execRegisterWrite (fn offset value be : Nat) (s : State) := 
  if fn = 0 ∧ 0x100000 ≤ offset ∧ offset < 0x1000000 then runRound (.mirror offset value be) s
  else run (fun c => c.regWrite fn offset value be) s

/-- WARM_RESET_REQ_WRITE (R125). -/
def execWarmResetReqWrite (value : Nat) (s : State) := run (fun c => c.regWrite 0 0x10040 value 15) s

/-- ACCESS_ERR_CLEAR (R132). -/
def execAccessErrClear (value : Nat) (s : State) := run (fun c => c.regWrite 0 0x10020 value 15) s

/-- UNMAPPED_READ (R129): a read at `offset` of function `fn`. -/
def execUnmappedRead (fn offset : Nat) (s : State) := run (fun c => c.regRead fn offset) s

/-- EPOCH_LO_READ (R93). -/
def execEpochLoRead (s : State) := run (fun c => c.regRead 0 0x140000) s

/-- BAR2_WRITE (R875); a byte without its enable is none. -/
def execBar2Write (offset : Nat) (data : List (Option Byte)) (s : State) := run (fun c => c.bar2Write offset data) s

/-- BAR2_READ (R875). -/
def execBar2Read (offset len : Nat) (s : State) := run (fun c => c.bar2Read offset len) s

end Sys2Proof.Machine
end

