-- ==== Sys2Proof/Machine/CmdResets.lean ====
section
/-! DEFINITION. Meanings: resets, pins of the board, boot and self-test (chapters 17 and 18). -/

namespace Sys2Proof.Machine

/-- MODE[1:0] strapped to 0b11: manufacturing test, which the manual does not describe (R20). -/
def manufacturing (mode : Nat) : Bool := mode % 4 == 3

/-- POWER_ON_RESET (R804, R805): PORST_N has been low and rises. Without REFCLK_25 the engine stays in RESET (R856). -/
def execPowerOnReset (mode ident : Nat) (s : State) : Host.Outcome State Fault Refusal :=
  if !s.chip.board.refclk then runReset (fun c => { c.held with board := { c.board with porstLow := false } }) s
  else if manufacturing mode then .fault .manufacturingTest
  else runReset (fun c => ({ c with board := { c.board with porstLow := false } }).coldReset mode ident) s

/-- WARMRST_N_FALL (R806). -/
def execWarmrstNFall (s : State) := runReset (fun c => c.warmReset 2) s

/-- REFCLK_25_LOSS (R856). -/
def execRefclk25Loss (s : State) := runReset (fun c => c.refclkLost) s

/-- REFCLK_25_RETURN (R856): the engine leaves RESET under R804, unless PORST_N holds it. -/
def execRefclk25Return (mode ident : Nat) (s : State) : Host.Outcome State Fault Refusal :=
  if s.chip.board.refclk then .next s
  else if s.chip.board.porstLow then runReset (fun c => { c with board := { c.board with refclk := true } }) s
  else if manufacturing mode then .fault .manufacturingTest
  else runReset (fun c => ({ c with board := { c.board with refclk := true } }).coldReset mode ident) s

/-- PFAIL_N_ASSERT (R166, R809). -/
def execPfailNAssert (s : State) := runPin (fun b => { b with pfail := true }) (fun c => c.powerFails) s

/-- PFAIL_N_RELEASE (R809). -/
def execPfailNRelease (s : State) := runPin (fun b => { b with pfail := false }) (fun c => c.powerBack) s

/-- SELFTEST (R813, R824): `failed` are the units whose tests fail. -/
def execSelftest (failed : List UnitName) (s : State) := run (fun c => c.selfTest (failed.filter unitExists)) s

/-- SELFTEST_COMPLETE (R812). -/
def execSelftestComplete (s : State) :=
  run (fun c => if c.engine = .selftest ∧ c.enterFirstConfig.engine = .config then c.enterFirstConfig.startAllStored
    else c.enterFirstConfig) s

/-- TAP_INSTRUCTION (R859): the instruction acts on the pins only, whatever the engine does. -/
def execTapInstruction (ir : TapInstruction) (s : State) :=
  runReset (fun c => { c with tap := Tap.load ir c.board.porstLow }) s

/-- PCIE_PERST_N_ASSERT (R847). -/
def execPciePerstNAssert (s : State) := run (fun c => c.perstLow) s

/-- PCIE_PERST_N_RELEASE (R847). -/
def execPciePerstNRelease (s : State) := run (fun c => c.perstHigh) s

/-- FUNCTION_LEVEL_RESET (R305). -/
def execFunctionLevelReset (fn : Nat) (s : State) := run (fun c => if fn ≤ 12 then c.functionReset fn else c) s

/-- VF_ENABLE_SET (R250). -/
def execVfEnableSet (numVfs : Nat) (s : State) := run (fun c => c.setVfs numVfs) s

/-- VF_ENABLE_CLEAR (R305). -/
def execVfEnableClear (s : State) := run (fun c => c.vfEnableClear) s

/-- D3HOT_ENTRY (R259). -/
def execD3hotEntry (fn : Nat) (s : State) := run (fun c => if fn ≤ 12 then c.enterD3 fn else c) s

/-- D0_RETURN (R259). -/
def execD0Return (fn : Nat) (s : State) := run (fun c => if fn ≤ 12 then c.leaveD3 fn else c) s

/-- HOST_MEMORY_FAILURE (R260, R314). -/
def execHostMemoryFailure (v : Nat) (x : HostFailure) (s : State) := run (fun c => c.hostTrouble v x.cause x.error) s

/-- USB_ATTACH (R848). -/
def execUsbAttach (s : State) := runPin (fun b => { b with vbus := true }) (fun c => c.vbusUp) s

/-- USB_DETACH (R848). -/
def execUsbDetach (s : State) := runPin (fun b => { b with vbus := false }) (fun c => c.vbusDown) s

/-- RCLK_IN_LOSS (R35, R648). -/
def execRclkInLoss (s : State) := runPin (fun b => { b with rclkIn := false }) (fun c => c.rclkLost) s

/-- RCLK_IN_RETURN (R648). -/
def execRclkInReturn (s : State) := runPin (fun b => { b with rclkIn := true }) (fun c => c.rclkBack) s

end Sys2Proof.Machine
end

