-- ==== Sys2Proof/Machine/CmdSensors.lean ====
section
/-! DEFINITION. Meanings: camera channels, inertial channels and encoders (chapters 7 and 8). -/

namespace Sys2Proof.Machine

/-- CSI_FRAME_START (R324, R329, R343): on each channel of the link whose VC the packet carries. -/
def execCsiFrameStart (link vc : Nat) (s : State) :=
  work (fun c => c.each (c.channelsOf link) (fun c ch =>
    if c.gated then c.dinc (camKey ch 45) else if c.dget (camKey ch 4) = vc then c.startFrame ch else c)) s

/-- CSI_LONG_PACKET (R317, R320 to R322, R325, R327, R333 to R342). -/
def execCsiLongPacket (link : Nat) (p : LongPacket) (s : State) :=
  work (fun c => c.each (c.channelsOf link) (fun c ch => c.camPacket ch p)) s

/-- CSI_FRAME_END (R323). -/
def execCsiFrameEnd (link vc : Nat) (s : State) :=
  work (fun c => c.each (c.channelsOf link) (fun c ch =>
    if c.gated then c.dinc (camKey ch 45) else if c.dget (camKey ch 4) = vc then c.endFrame ch else c)) s

/-- TRIGGER_EXPIRY (R332). -/
def execTriggerExpiry (ch : Nat) (s : State) := work (fun c => c.expireTriggers ch) s

/-- VIRTUAL_FRAME_DELIVERY (R375, R689). -/
def execVirtualFrameDelivery (ch : Nat) (s : State) := work (fun c => c.virtualDelivery ch) s

/-- EXTRACTION_RUN_START (R343, R344, R346, R352). -/
def execExtractionRunStart (ch : Nat) (s : State) := work (fun c => if c.gated then c else c.startRun ch) s

/-- PENDING_RUN_START (R346, R347). -/
def execPendingRunStart (ch : Nat) (s : State) := work (fun c => if c.gated then c else c.startPending ch) s

/-- EXTRACTION_RUN_END (R349 to R369, R372). -/
def execExtractionRunEnd (ch : Nat) (s : State) := work (fun c => if c.gated then c else c.runEnds ch) s

/-- COMB_OUTPUT_SAMPLE (R386 to R388): 16 bits of the pin, oldest first, give one chain input sample. -/
def execCombOutputSample (ch : Nat) (bs : List Bool) (s : State) :=
  work (fun c =>
    if !c.chanOn ch || c.dget (inKey ch 2) != 0 || c.gated || bs.length != 16 then c
    else
      let x := c.chan ch
      let h := (bs.reverse.map (fun b => if b then (1 : Int) else -1)) ++ x.comb
      let c1 := c.setChan ch { x with comb := h.take 45 }
      c1.enterSample ch { value := combOutput h, sat := false, held := false, cap := c.capture }) s

/-- SPI_DRDY_EDGE (R390, R394, R395): an edge of the selected direction. -/
def execSpiDrdyEdge (m : Nat) (s : State) :=
  work (fun c => if c.dget (spiKey m 50) = 0 then c else c.spiTrigger m) s

/-- SPI_BURST_END (R391, R392, R395). -/
def execSpiBurstEnd (m : Nat) (rx : List Byte) (s : State) := work (fun c => c.spiEnd m rx) s

/-- VIRTUAL_SAMPLE_ENTRY (R398). -/
def execVirtualSampleEntry (ch : Nat) (s : State) := work (fun c => c.virtualEntry ch) s

/-- COEF_LOAD_COMPLETE (R411). -/
def execCoefLoadComplete (g : Nat) (s : State) := work (fun c => c.coefDone g) s

/-- SYNC_N_FALL (R415, R416). -/
def execSyncNFall (s : State) := work Chip.resetGroups s

/-- ENCODER_EDGE (R426, R428, R879). -/
def execEncoderEdge (e : Nat) (a b : Bool) (s : State) :=
  runPin (fun p => p.withEnc e a b) (fun c =>
    let c1 := if e < 4 && c.alive then c.encEdge e a b else c
    { c1 with board := c1.board.withEnc e a b }) s

/-- OUTPUT_EMERGE (R404, R494): the channel's output is released, and reaches the instances. -/
def execOutputEmerge (ch : Nat) (s : State) :=
  work (fun c => if c.gated then c else match c.emerge ch with
    | (c1, some o) => c1.estOutput { ch, value := o.value, stamp := o.stamp, period := o.period, seq := o.seq,
                                     held := o.held, stopped := o.stopped, emerged := c.posNat }
    | (c1, none) => c1) s

/-- INDEX_EVENT (R429, R879). -/
def execIndexEvent (e : Nat) (s : State) := work (fun c => if e < 4 then c.encIndex e else c) s

end Sys2Proof.Machine
end

