-- ==== Sys2Proof/Machine/CmdVoices.lean ====
section
/-! DEFINITION. Meanings: voices, rings, commands and completions, and the USB port (chapter 6). -/

namespace Sys2Proof.Machine

/-- CMD_DOORBELL (R127, R269); the host has written `written` to its memory before. -/
def execCmdDoorbell (v tail : Nat) (written : List (Nat × List Byte)) (s : State) :=
  run (fun c => (c.hostWrites written).cmdDoorbell v tail) s

/-- CPL_DOORBELL (R270). -/
def execCplDoorbell (v head : Nat) (s : State) := run (fun c => c.cplDoorbell v head) s

/-- RING_ENABLE (R266). -/
def execRingEnable (v : Nat) (s : State) := run (fun c => c.writeRing v 1) s

/-- RING_DISABLE (R267). -/
def execRingDisable (v : Nat) (s : State) := run (fun c => c.writeRing v 0) s

/-- VOICE_DRAIN_END (R306). -/
def execVoiceDrainEnd (v : Nat) (s : State) := run (fun c => if v < 16 then c.drainEnd v else c) s

/-- DICT_GO_READ (R263). -/
def execDictGoRead (v : Nat) (s : State) := runRound (.window v 1) s

/-- DICT_GO_WRITE (R263). -/
def execDictGoWrite (v : Nat) (s : State) := runRound (.window v 2) s

/-- DICT_GO_DESCRIBE (R263). -/
def execDictGoDescribe (v : Nat) (s : State) := runRound (.window v 4) s

/-- INT_PENDING_CLEAR (R265). -/
def execIntPendingClear (v value : Nat) (s : State) := run (fun c => c.ackSources v value) s

/-- HOLDOFF_EXPIRY (R265). -/
def execHoldoffExpiry (v vector : Nat) (s : State) := run (fun c => if v < 16 then c.vectorDue v vector else c) s

/-- COMMAND_ADMISSION (R271 to R274). -/
def execCommandAdmission (s : State) := run (fun c => c.admitNext) s

/-- MOVE_TENSOR (R605): the admitted command of voice v. -/
def execMoveTensor (v : Nat) (s : State) := run (fun c => if v < 16 ∧ c.admits then c.moveTensor v else c) s

/-- PIN_TENSOR (R613): the admitted command of voice v. -/
def execPinTensor (v : Nat) (s : State) := run (fun c => if v < 16 ∧ c.admits then c.pinTensor v else c) s

/-- CUE_ARM (R280): the admitted command of voice v. -/
def execCueArm (v : Nat) (s : State) := runRound (.cueArm v) s

/-- CUE_CANCEL (R281): the admitted command of voice v. -/
def execCueCancel (v : Nat) (s : State) := run (fun c => if v < 16 ∧ c.admits then c.cmdCueCancel v else c) s

/-- DICT_OP_READ (R282): the admitted command of voice v. -/
def execDictOpRead (v : Nat) (s : State) := runRound (.command v 1) s

/-- DICT_OP_WRITE (R282): the admitted command of voice v. -/
def execDictOpWrite (v : Nat) (s : State) := runRound (.command v 2) s

/-- DICT_OP_DESCRIBE (R282): the admitted command of voice v. -/
def execDictOpDescribe (v : Nat) (s : State) := runRound (.command v 4) s

/-- FENCE (R285): the admitted command of voice v. -/
def execFence (v : Nat) (s : State) := run (fun c => if v < 16 ∧ c.admits then c.cmdFence v else c) s

/-- LULL (R681): the admitted command of voice v. -/
def execLull (v : Nat) (s : State) := run (fun c => if v < 16 ∧ c.admits then c.cmdLull v else c) s

/-- FENCE_COMPLETE (R623). -/
def execFenceComplete (v : Nat) (s : State) := run (fun c => if v < 16 then c.fenceEnds v else c) s

/-- COMPLETION_WRITE (R275). -/
def execCompletionWrite (v : Nat) (s : State) := run (fun c => if v < 16 then c.writeCompletion v else c) s

/-- WAITING_COMPLETION_WRITE (R276). -/
def execWaitingCompletionWrite (v : Nat) (s : State) := run (fun c => if v < 16 then c.writeWaiting v else c) s

/-- USB_DICT_READ (R290, R294). -/
def execUsbDictRead (setup : UsbSetup) (s : State) := runRound (.usbQuery setup 1) s

/-- USB_DICT_WRITE_DATA (R291). -/
def execUsbDictWriteData (setup : UsbSetup) (data : List Byte) (s : State) := run (fun c => c.usbWriteData setup data) s

/-- USB_DICT_WRITE_STATUS (R292). -/
def execUsbDictWriteStatus (s : State) := runRound .usbStatus s

/-- USB_DICT_DESCRIBE (R290, R294). -/
def execUsbDictDescribe (setup : UsbSetup) (s : State) := runRound (.usbQuery setup 4) s

/-- GET_ABORT (R295). -/
def execGetAbort (setup : UsbSetup) (s : State) := run (fun c => c.usbGetAbort setup) s

/-- USB_BUS_RESET (R303). -/
def execUsbBusReset (s : State) := run (fun c => c.usbBusReset) s

/-- SET_CONFIGURATION (R299). -/
def execSetConfiguration (value : Nat) (s : State) := run (fun c => c.configure value) s

/-- USB_COMMAND_RECORD (R299). -/
def execUsbCommandRecord (hdr : RecordHeader) (payload : List Byte) (s : State) :=
  run (fun c => c.onRecord hdr 1 payload (fun c => c.commandRecord payload)) s

/-- TENSOR_WRITE (R301). -/
def execTensorWrite (hdr : RecordHeader) (payload : List Byte) (s : State) :=
  run (fun c => c.onRecord hdr 3 payload (fun c => c.usbTensorWrite hdr payload)) s

/-- TENSOR_READ (R302). -/
def execTensorRead (hdr : RecordHeader) (s : State) := run (fun c => c.onRecord hdr 4 [] (fun c => c.usbTensorRead hdr)) s

/-- MAP_IMPORT (R499). -/
def execMapImportRecord (hdr : RecordHeader) (payload : List Byte) (s : State) :=
  run (fun c => c.onRecord hdr 7 payload (fun c => c.usbMapImport hdr payload)) s

/-- USB_HEADER_ERROR (R300). -/
def execUsbHeaderError (hdr : RecordHeader) (s : State) := run (fun c => c.onRecord hdr 0 [] (fun c => c)) s

/-- CLEAR_FEATURE (R300). -/
def execClearFeature (s : State) := run (fun c => c.clearHalt) s

/-- STATUS_REPORT (R289). -/
def execStatusReport (s : State) := run (fun c => c.statusReport) s

end Sys2Proof.Machine
end

