-- ==== Sys2Proof/Machine/Dispatch.lean ====
section
/-! DEFINITION. One arm per command: the meaning it calls. -/

namespace Sys2Proof.Machine

/-- The effect of a command on everything but the queue. -/
def exec (i : Instr) (s : State) : Host.Outcome State Fault Refusal :=
  match i with
  | .powerOnReset mode id => Sys2Proof.Machine.execPowerOnReset mode id s
  | .warmrstNFall => Sys2Proof.Machine.execWarmrstNFall s
  | .warmResetReqWrite value => Sys2Proof.Machine.execWarmResetReqWrite value s
  | .refclk25Loss => Sys2Proof.Machine.execRefclk25Loss s
  | .refclk25Return mode id => Sys2Proof.Machine.execRefclk25Return mode id s
  | .pfailNAssert => Sys2Proof.Machine.execPfailNAssert s
  | .selftest failed => Sys2Proof.Machine.execSelftest failed s
  | .selftestComplete => Sys2Proof.Machine.execSelftestComplete s
  | .pciePerstNAssert => Sys2Proof.Machine.execPciePerstNAssert s
  | .registerWrite fn offset value be => Sys2Proof.Machine.execRegisterWrite fn offset value be s
  | .accessErrClear value => Sys2Proof.Machine.execAccessErrClear value s
  | .unmappedRead fn offset => Sys2Proof.Machine.execUnmappedRead fn offset s
  | .epochLoRead => Sys2Proof.Machine.execEpochLoRead s
  | .bar2Write offset data => Sys2Proof.Machine.execBar2Write offset data s
  | .bar2Read offset len => Sys2Proof.Machine.execBar2Read offset len s
  | .lineEdge src interval => Sys2Proof.Machine.execLineEdge src interval s
  | .fractionUpdate updates => Sys2Proof.Machine.execFractionUpdate updates s
  | .frameStart src => Sys2Proof.Machine.execFrameStart src s
  | .epochFrameEnd src => Sys2Proof.Machine.execEpochFrameEnd src s
  | .blankingLine => Sys2Proof.Machine.execBlankingLine s
  | .freewheelEntry => Sys2Proof.Machine.execFreewheelEntry s
  | .freewheelLine => Sys2Proof.Machine.execFreewheelLine s
  | .holdInterval => Sys2Proof.Machine.execHoldInterval s
  | .reverseCount src => Sys2Proof.Machine.execReverseCount src s
  | .syntheticEdge => Sys2Proof.Machine.execSyntheticEdge s
  | .sourceWrite v via sub value => Sys2Proof.Machine.execSourceWrite v via sub value s
  | .virtualRecordStep => Sys2Proof.Machine.execVirtualRecordStep s
  | .cueArmWrite v via slot => Sys2Proof.Machine.execCueArmWrite v via slot s
  | .cueArmCommit => Sys2Proof.Machine.execCueArmCommit s
  | .cueCancelWrite v via slot => Sys2Proof.Machine.execCueCancelWrite v via slot s
  | .cueFire => Sys2Proof.Machine.execCueFire s
  | .trigPulseEnd pin => Sys2Proof.Machine.execTrigPulseEnd pin s
  | .dictRead v idx sub => Sys2Proof.Machine.execDictRead v idx sub s
  | .dictWrite v via idx sub data => Sys2Proof.Machine.execDictWrite v via idx sub data s
  | .dictDescribe v idx sub => Sys2Proof.Machine.execDictDescribe v idx sub s
  | .deferredWriteCommit v => Sys2Proof.Machine.execDeferredWriteCommit v s
  | .stateRequestReady v via => Sys2Proof.Machine.execStateRequestReady v via s
  | .stateRequestConfig v via => Sys2Proof.Machine.execStateRequestConfig v via s
  | .stateRequestRun v via target => Sys2Proof.Machine.execStateRequestRun v via target s
  | .stateRequestHold v via => Sys2Proof.Machine.execStateRequestHold v via s
  | .stateRequestHoldExit v via => Sys2Proof.Machine.execStateRequestHoldExit v via s
  | .behaviourLevelRequest v via level => Sys2Proof.Machine.execBehaviourLevelRequest v via level s
  | .store v via value => Sys2Proof.Machine.execStore v via value s
  | .storeComplete => Sys2Proof.Machine.execStoreComplete s
  | .storeAbandoned => Sys2Proof.Machine.execStoreAbandoned s
  | .restore v via value => Sys2Proof.Machine.execRestore v via value s
  | .broadcastEnable v via ch value => Sys2Proof.Machine.execBroadcastEnable v via ch value s
  | .broadcastMapWrite v via ch k value => Sys2Proof.Machine.execBroadcastMapWrite v via ch k value s
  | .canRead port frame => Sys2Proof.Machine.execCanRead port frame s
  | .canWrite port frame => Sys2Proof.Machine.execCanWrite port frame s
  | .canWriteInit port frame => Sys2Proof.Machine.execCanWriteInit port frame s
  | .canDescribe port frame => Sys2Proof.Machine.execCanDescribe port frame s
  | .canSegment port frame => Sys2Proof.Machine.execCanSegment port frame s
  | .canSegmentReq port frame => Sys2Proof.Machine.execCanSegmentReq port frame s
  | .canClientAbort port frame => Sys2Proof.Machine.execCanClientAbort port frame s
  | .transferTimeout port => Sys2Proof.Machine.execTransferTimeout port s
  | .mbRequest port mb => Sys2Proof.Machine.execMbRequest port mb s
  | .mbCancel port mb => Sys2Proof.Machine.execMbCancel port mb s
  | .canAttemptEnd port report => Sys2Proof.Machine.execCanAttemptEnd port report s
  | .canFrameReceived port frame => Sys2Proof.Machine.execCanFrameReceived port frame s
  | .rxPop port value => Sys2Proof.Machine.execRxPop port value s
  | .heartbeat port => Sys2Proof.Machine.execHeartbeat port s
  | .busOff port => Sys2Proof.Machine.execBusOff port s
  | .recover v via port value => Sys2Proof.Machine.execRecover v via port value s
  | .busOffRecoveryEnd seen => Sys2Proof.Machine.execBusOffRecoveryEnd seen s
  | .cmdDoorbell v tail written => Sys2Proof.Machine.execCmdDoorbell v tail written s
  | .cplDoorbell v head => Sys2Proof.Machine.execCplDoorbell v head s
  | .ringEnable v => Sys2Proof.Machine.execRingEnable v s
  | .ringDisable v => Sys2Proof.Machine.execRingDisable v s
  | .voiceDrainEnd v => Sys2Proof.Machine.execVoiceDrainEnd v s
  | .dictGoRead v => Sys2Proof.Machine.execDictGoRead v s
  | .dictGoWrite v => Sys2Proof.Machine.execDictGoWrite v s
  | .dictGoDescribe v => Sys2Proof.Machine.execDictGoDescribe v s
  | .intPendingClear v value => Sys2Proof.Machine.execIntPendingClear v value s
  | .commandAdmission => Sys2Proof.Machine.execCommandAdmission s
  | .runPassage v => Sys2Proof.Machine.execRunPassage v s
  | .runTablature v => Sys2Proof.Machine.execRunTablature v s
  | .solveDelta v => Sys2Proof.Machine.execSolveDelta v s
  | .moveTensor v => Sys2Proof.Machine.execMoveTensor v s
  | .pinTensor v => Sys2Proof.Machine.execPinTensor v s
  | .cueArm v => Sys2Proof.Machine.execCueArm v s
  | .cueCancel v => Sys2Proof.Machine.execCueCancel v s
  | .dictOpRead v => Sys2Proof.Machine.execDictOpRead v s
  | .dictOpWrite v => Sys2Proof.Machine.execDictOpWrite v s
  | .dictOpDescribe v => Sys2Proof.Machine.execDictOpDescribe v s
  | .fence v => Sys2Proof.Machine.execFence v s
  | .fenceComplete v => Sys2Proof.Machine.execFenceComplete v s
  | .lull v => Sys2Proof.Machine.execLull v s
  | .completionWrite v => Sys2Proof.Machine.execCompletionWrite v s
  | .waitingCompletionWrite v => Sys2Proof.Machine.execWaitingCompletionWrite v s
  | .functionLevelReset fn => Sys2Proof.Machine.execFunctionLevelReset fn s
  | .vfEnableClear => Sys2Proof.Machine.execVfEnableClear s
  | .voiceResetEntry v via target value => Sys2Proof.Machine.execVoiceResetEntry v via target value s
  | .d3hotEntry fn => Sys2Proof.Machine.execD3hotEntry fn s
  | .hostMemoryFailure v failure => Sys2Proof.Machine.execHostMemoryFailure v failure s
  | .tunnelWrite v via target value => Sys2Proof.Machine.execTunnelWrite v via target value s
  | .quotaWrite v via target sub value => Sys2Proof.Machine.execQuotaWrite v via target sub value s
  | .usbDictRead setup => Sys2Proof.Machine.execUsbDictRead setup s
  | .usbDictWriteData setup data => Sys2Proof.Machine.execUsbDictWriteData setup data s
  | .usbDictWriteStatus => Sys2Proof.Machine.execUsbDictWriteStatus s
  | .usbDictDescribe setup => Sys2Proof.Machine.execUsbDictDescribe setup s
  | .getAbort setup => Sys2Proof.Machine.execGetAbort setup s
  | .usbBusReset => Sys2Proof.Machine.execUsbBusReset s
  | .setConfiguration value => Sys2Proof.Machine.execSetConfiguration value s
  | .usbDetach => Sys2Proof.Machine.execUsbDetach s
  | .usbCommandRecord hdr payload => Sys2Proof.Machine.execUsbCommandRecord hdr payload s
  | .tensorWrite hdr payload => Sys2Proof.Machine.execTensorWrite hdr payload s
  | .tensorRead hdr => Sys2Proof.Machine.execTensorRead hdr s
  | .mapImportRecord hdr payload => Sys2Proof.Machine.execMapImportRecord hdr payload s
  | .usbHeaderError hdr => Sys2Proof.Machine.execUsbHeaderError hdr s
  | .clearFeature => Sys2Proof.Machine.execClearFeature s
  | .csiFrameStart link vc => Sys2Proof.Machine.execCsiFrameStart link vc s
  | .csiLongPacket link pkt => Sys2Proof.Machine.execCsiLongPacket link pkt s
  | .csiFrameEnd link vc => Sys2Proof.Machine.execCsiFrameEnd link vc s
  | .triggerExpiry c => Sys2Proof.Machine.execTriggerExpiry c s
  | .extractionRunStart c => Sys2Proof.Machine.execExtractionRunStart c s
  | .pendingRunStart c => Sys2Proof.Machine.execPendingRunStart c s
  | .extractionRunEnd c => Sys2Proof.Machine.execExtractionRunEnd c s
  | .cameraEnable v via c value => Sys2Proof.Machine.execCameraEnable v via c value s
  | .rectEnable v via c value => Sys2Proof.Machine.execRectEnable v via c value s
  | .cameraInject v via c tensor => Sys2Proof.Machine.execCameraInject v via c tensor s
  | .virtualFrameDelivery c => Sys2Proof.Machine.execVirtualFrameDelivery c s
  | .combOutputSample c bits => Sys2Proof.Machine.execCombOutputSample c bits s
  | .spiDrdyEdge m => Sys2Proof.Machine.execSpiDrdyEdge m s
  | .spiBurstEnd m rx => Sys2Proof.Machine.execSpiBurstEnd m rx s
  | .outputEmerge c => Sys2Proof.Machine.execOutputEmerge c s
  | .virtualSampleEntry c => Sys2Proof.Machine.execVirtualSampleEntry c s
  | .inertialInject v via c tensor => Sys2Proof.Machine.execInertialInject v via c tensor s
  | .coefLoad v via c tensor => Sys2Proof.Machine.execCoefLoad v via c tensor s
  | .coefLoadComplete g => Sys2Proof.Machine.execCoefLoadComplete g s
  | .swap v via c value => Sys2Proof.Machine.execSwap v via c value s
  | .syncNFall => Sys2Proof.Machine.execSyncNFall s
  | .syncWrite v via c value => Sys2Proof.Machine.execSyncWrite v via c value s
  | .channelRestart v via c sub value => Sys2Proof.Machine.execChannelRestart v via c sub value s
  | .encoderEdge e a b => Sys2Proof.Machine.execEncoderEdge e a b s
  | .indexEvent e => Sys2Proof.Machine.execIndexEvent e s
  | .preset v via e value => Sys2Proof.Machine.execPreset v via e value s
  | .instanceEnable v via => Sys2Proof.Machine.execInstanceEnable v via s
  | .instanceDisable v via => Sys2Proof.Machine.execInstanceDisable v via s
  | .frameProcessingStart k => Sys2Proof.Machine.execFrameProcessingStart k s
  | .closureDue k => Sys2Proof.Machine.execClosureDue k s
  | .clearMap v via value => Sys2Proof.Machine.execClearMap v via value s
  | .exportMap v via value => Sys2Proof.Machine.execExportMap v via value s
  | .exportComplete k => Sys2Proof.Machine.execExportComplete k s
  | .importMap v via tensor => Sys2Proof.Machine.execImportMap v via tensor s
  | .estimatorInject v via tensor => Sys2Proof.Machine.execEstimatorInject v via tensor s
  | .solverRequestStart lane => Sys2Proof.Machine.execSolverRequestStart lane s
  | .solverResultWrite lane => Sys2Proof.Machine.execSolverResultWrite lane s
  | .factorReevaluation lane => Sys2Proof.Machine.execFactorReevaluation lane s
  | .evict v via tensor => Sys2Proof.Machine.execEvict v via tensor s
  | .passageRunStart p => Sys2Proof.Machine.execPassageRunStart p s
  | .operatorGrant => Sys2Proof.Machine.execOperatorGrant s
  | .operatorEnd p op => Sys2Proof.Machine.execOperatorEnd p op s
  | .passageRunComplete p => Sys2Proof.Machine.execPassageRunComplete p s
  | .create v via descriptor => Sys2Proof.Machine.execCreate v via descriptor s
  | .release v via tensor => Sys2Proof.Machine.execRelease v via tensor s
  | .refresh v via tensor => Sys2Proof.Machine.execRefresh v via tensor s
  | .tensorMoveComplete tensor => Sys2Proof.Machine.execTensorMoveComplete tensor s
  | .stallMove tensor tier array => Sys2Proof.Machine.execStallMove tensor tier array s
  | .writeBackComplete tensor => Sys2Proof.Machine.execWriteBackComplete tensor s
  | .relocation tensor tier target => Sys2Proof.Machine.execRelocation tensor tier target s
  | .tier2EccEvent address corrected => Sys2Proof.Machine.execTier2EccEvent address corrected s
  | .engineTensorRecreate tensor => Sys2Proof.Machine.execEngineTensorRecreate tensor s
  | .laneLock p lane => Sys2Proof.Machine.execLaneLock p lane s
  | .laneLockLoss p lanes => Sys2Proof.Machine.execLaneLockLoss p lanes s
  | .stringLocking p => Sys2Proof.Machine.execStringLocking p s
  | .lockingTimeout p => Sys2Proof.Machine.execLockingTimeout p s
  | .addressLearn => Sys2Proof.Machine.execAddressLearn s
  | .planCheck p flits => Sys2Proof.Machine.execPlanCheck p flits s
  | .miswiredRetry p => Sys2Proof.Machine.execMiswiredRetry p s
  | .rateSwitch p relocked => Sys2Proof.Machine.execRateSwitch p relocked s
  | .laneTestComplete p passed => Sys2Proof.Machine.execLaneTestComplete p passed s
  | .requiredWidthWrite v via p value => Sys2Proof.Machine.execRequiredWidthWrite v via p value s
  | .rclkInLoss => Sys2Proof.Machine.execRclkInLoss s
  | .rclkInReturn => Sys2Proof.Machine.execRclkInReturn s
  | .rtAlign p train elapsed => Sys2Proof.Machine.execRtAlign p train elapsed s
  | .trainFlitReceived flit => Sys2Proof.Machine.execTrainFlitReceived flit s
  | .dataFlitReceived p header body => Sys2Proof.Machine.execDataFlitReceived p header body s
  | .nack p block => Sys2Proof.Machine.execNack p block s
  | .replay p block => Sys2Proof.Machine.execReplay p block s
  | .ack p block => Sys2Proof.Machine.execAck p block s
  | .ackSend p => Sys2Proof.Machine.execAckSend p s
  | .replayTimeout p => Sys2Proof.Machine.execReplayTimeout p s
  | .credit p block => Sys2Proof.Machine.execCredit p block s
  | .creditSend p => Sys2Proof.Machine.execCreditSend p s
  | .packetRoute pkt => Sys2Proof.Machine.execPacketRoute pkt s
  | .routeFailReceived pkt => Sys2Proof.Machine.execRouteFailReceived pkt s
  | .detourEntry v via value => Sys2Proof.Machine.execDetourEntry v via value s
  | .detourClear v via value => Sys2Proof.Machine.execDetourClear v via value s
  | .epochPacket pkt => Sys2Proof.Machine.execEpochPacket pkt s
  | .epochRecordApply => Sys2Proof.Machine.execEpochRecordApply s
  | .lullArrive pkt => Sys2Proof.Machine.execLullArrive pkt s
  | .lullRelease pkt => Sys2Proof.Machine.execLullRelease pkt s
  | .openTunnel pkt => Sys2Proof.Machine.execOpenTunnel pkt s
  | .tunnelCommand pkt => Sys2Proof.Machine.execTunnelCommand pkt s
  | .dictReq pkt => Sys2Proof.Machine.execDictReq pkt s
  | .dmaData pkt => Sys2Proof.Machine.execDmaData pkt s
  | .dmaTimeout v id => Sys2Proof.Machine.execDmaTimeout v id s
  | .storeData pkt => Sys2Proof.Machine.execStoreData pkt s
  | .camData pkt => Sys2Proof.Machine.execCamData pkt s
  | .imuSamples pkt => Sys2Proof.Machine.execImuSamples pkt s
  | .injectList pkt => Sys2Proof.Machine.execInjectList pkt s
  | .injectRecords pkt => Sys2Proof.Machine.execInjectRecords pkt s
  | .breezeEnable v via value => Sys2Proof.Machine.execBreezeEnable v via value s
  | .tx v via data => Sys2Proof.Machine.execTx v via data s
  | .beacon => Sys2Proof.Machine.execBeacon s
  | .slotTransmit => Sys2Proof.Machine.execSlotTransmit s
  | .breezeSync levels => Sys2Proof.Machine.execBreezeSync levels s
  | .breezeHeader levels => Sys2Proof.Machine.execBreezeHeader levels s
  | .breezeFrameReceived contrast rssi payload crc => Sys2Proof.Machine.execBreezeFrameReceived contrast rssi payload crc s
  | .beaconReceived contrast rssi payload crc => Sys2Proof.Machine.execBeaconReceived contrast rssi payload crc s
  | .breezeAckSend => Sys2Proof.Machine.execBreezeAckSend s
  | .breezeAckReceived contrast rssi payload crc => Sys2Proof.Machine.execBreezeAckReceived contrast rssi payload crc s
  | .ackTimeout => Sys2Proof.Machine.execAckTimeout s
  | .beaconMissed => Sys2Proof.Machine.execBeaconMissed s
  | .slotOverrun => Sys2Proof.Machine.execSlotOverrun s
  | .sourceForget source => Sys2Proof.Machine.execSourceForget source s
  | .demandTick utilisation => Sys2Proof.Machine.execDemandTick utilisation s
  | .thermalTick sensors => Sys2Proof.Machine.execThermalTick sensors s
  | .thermalRelease => Sys2Proof.Machine.execThermalRelease s
  | .currentLimitStep icore => Sys2Proof.Machine.execCurrentLimitStep icore s
  | .currentRelease => Sys2Proof.Machine.execCurrentRelease s
  | .ceilingFloorWrite v via sub value => Sys2Proof.Machine.execCeilingFloorWrite v via sub value s
  | .thermalTrip tj => Sys2Proof.Machine.execThermalTrip tj s
  | .tripResume tj => Sys2Proof.Machine.execTripResume tj s
  | .railLinkFailure outputFault => Sys2Proof.Machine.execRailLinkFailure outputFault s
  | .vrAlertN statusWord => Sys2Proof.Machine.execVrAlertN statusWord s
  | .errorDetected unit check address => Sys2Proof.Machine.execErrorDetected unit check address s
  | .faultedEntry cause => Sys2Proof.Machine.execFaultedEntry cause s
  | .attnAck v via value => Sys2Proof.Machine.execAttnAck v via value s
  | .overflowClear v via value => Sys2Proof.Machine.execOverflowClear v via value s
  | .persistClear v via value => Sys2Proof.Machine.execPersistClear v via value s
  | .nonce v via data => Sys2Proof.Machine.execNonce v via data s
  | .lock v via value => Sys2Proof.Machine.execLock v via value s
  | .fwInstall v via tensor => Sys2Proof.Machine.execFwInstall v via tensor s
  | .attemptStart port => Sys2Proof.Machine.execAttemptStart port s
  | .receiveError port amount => Sys2Proof.Machine.execReceiveError port amount s
  | .vfEnableSet numVfs => Sys2Proof.Machine.execVfEnableSet numVfs s
  | .d0Return fn => Sys2Proof.Machine.execD0Return fn s
  | .holdoffExpiry v vector => Sys2Proof.Machine.execHoldoffExpiry v vector s
  | .noNeighbour p => Sys2Proof.Machine.execNoNeighbour p s
  | .badControlFlit flit => Sys2Proof.Machine.execBadControlFlit flit s
  | .tapInstruction ir => Sys2Proof.Machine.execTapInstruction ir s
  | .vrSettle => Sys2Proof.Machine.execVrSettle s
  | .idleGateEntry => Sys2Proof.Machine.execIdleGateEntry s
  | .idleGateExit => Sys2Proof.Machine.execIdleGateExit s
  | .holdEntryComplete => Sys2Proof.Machine.execHoldEntryComplete s
  | .signatureComplete => Sys2Proof.Machine.execSignatureComplete s
  | .fwInstallComplete => Sys2Proof.Machine.execFwInstallComplete s
  | .fwInstallAbandoned => Sys2Proof.Machine.execFwInstallAbandoned s
  | .pciePerstNRelease => Sys2Proof.Machine.execPciePerstNRelease s
  | .usbAttach => Sys2Proof.Machine.execUsbAttach s
  | .statusReport => Sys2Proof.Machine.execStatusReport s
  | .holdExitComplete => Sys2Proof.Machine.execHoldExitComplete s
  | .pfailNRelease => Sys2Proof.Machine.execPfailNRelease s

end Sys2Proof.Machine
end

