-- ==== Sys2Proof/Safety.lean ====
section
/-! DEFINITION. What claims about the block speak of: that a command completes with an effect, the conditions under which
blocks work, and the invariant that every step keeps. -/

namespace Sys2Proof.Machine

/-- The engine is not held in RESET by PORST_N or by the monitor of REFCLK_25 (R804, R856). -/
def State.on (s : State) : Bool := !s.chip.off

/-- The engine is not held in RESET, and is in CONFIG, READY, RUN or HOLD: its blocks work (R780, R781). -/
def State.live (s : State) : Bool := s.on && s.chip.alive

/-- The command completes: the chip takes the value `c`, then what the engine does by itself follows, and the queue stays.
What the update's round remembers is left open (log entry 67). -/
def Does (i : Instr) (s : State) (c : Chip) : Prop := ∃ r : Round, exec i s = .next { s with chip := c.settled s.chip, round := r }

/-- The command completes with the chip at `c` and nothing after it; the queue stays. -/
def Leaves (i : Instr) (s : State) (c : Chip) : Prop := ∃ r : Round, exec i s = .next { s with chip := c, round := r }

/-- A write of voice `v` over `via` that arrives now stands behind every operation of its update that has taken effect, so
that it takes effect as it arrives (R156, R160, log entry 67). -/
def State.turn (s : State) (v : Nat) (via : Via) : Bool := s.round.inOrder (.write true { voice := v, via, idx := 0, sub := 0, data := [] })

/-- The server commits a write in the update in which it arrives (R151 to R160): the transport carries the voice, no check
fails, the voice has committed nothing in this update and has no earlier write waiting, and the rate of R871 holds no arm back. -/
def State.accepts (s : State) (v : Nat) (via : Via) (idx sub : Nat) (data : List Byte) : Bool :=
  let c := s.chip.callWake
  s.on && s.turn v via && goodVia v via && !s.chip.silent && c.writeCode v idx sub data == 0 && !c.committedNow v &&
  (c.keep v).deferred.isEmpty && !c.armMustWait { voice := v, via, idx, sub, data }

/-- The chip after that commit and its answer, before it settles. -/
def State.committed (s : State) (v : Nat) (via : Via) (idx sub : Nat) (data : List Byte) : Chip :=
  (s.chip.callWake.commitWrite { voice := v, via, idx, sub, data }).respond { voice := v, via, idx, sub, data } 0

/-- The chip once CAN port `p` has heard a valid frame of another node: one more in FRAMES_RX, REC as R239 has it, and no
suspend time to wait out (R240). -/
def Chip.heard (c : Chip) (p : Nat) : Chip := ((c.setPort p { c.port p with suspendAt := none }).dinc (canKey p 21)).recGood p

/-- Nothing that a cold reset clears is left (R804, R805). -/
def Chip.cleared (c : Chip) : Bool :=
  c.engine == .reset && c.request.isNone && c.dict.isEmpty && c.epoch == {} && c.cues.isEmpty && c.armQueue.isEmpty &&
  c.trig.isEmpty && c.ctl == {} && c.voices.isEmpty && c.keeps.isEmpty && c.msixSent.isEmpty && c.pcie == {} && c.usb == {} &&
  c.can.isEmpty && c.tensors.isEmpty && c.transients.isEmpty && c.ledger.isEmpty && c.moves.isEmpty && c.tier0.isEmpty &&
  c.tier1.isEmpty && c.tier2.isEmpty && c.faults.ring.isEmpty && c.faults.retired.isEmpty && c.cams.isEmpty && c.gov == {} &&
  c.inertial.isEmpty && c.groups.isEmpty && c.spi.isEmpty && c.encoders.isEmpty && c.tablatures.isEmpty && c.lanes.isEmpty &&
  c.passages.isEmpty && c.breeze == {} && c.ests.isEmpty && c.mesh == {} && c.flash.storing.isNone

/-- The invariant of the block: ID[5:0] is a strap of six bits (R191), an engine held in RESET has nothing left that a cold
reset clears (R804, R856), and FAULT_N is asserted exactly in FAULTED (R783). -/
def State.inv (s : State) : Bool :=
  decide (s.chip.straps.ident < 64) && (!s.chip.off || s.chip.cleared) &&
  (s.chip.faults.faultN == (s.chip.engine == .faulted))

/-- Nothing waits for the end of a command: no change to RUN or READY that the epoch would let pass at once (R174), no voice
over a quota, no tensor and no tablature that a voice reset released (R308, R869), no core-clocked work (R761), and FAULT_N as the engine's state has it (R783). -/
def Chip.quiet (c : Chip) : Bool :=
  !(c.request.isSome && c.epoch.st == .stopped) && (List.range 16).all (fun v => !c.overAny v && !(c.keep v).overQuota) &&
  c.tensors.all (fun (p : Nat × Tensor) => p.2.doom.isNone) && c.tablatures.all (fun (p : Nat × Tablature) => !p.2.leaving) &&
  !c.working && c.faults.faultN == (c.engine == .faulted)

/-- The address of the neighbour at port `p`, XN, XP, YN, YP, ZN or ZP, of the engine at address `here` (R668). -/
def stepTo (here p : Nat) : Nat :=
  match p with
  | 0 => here - 16 | 1 => here + 16 | 2 => here - 4 | 3 => here + 4 | 4 => here - 1 | _ => here + 1

/-- How many strings a packet crosses between two addresses: the coordinates' distances, added (R668). -/
def hopsBetween (a b : Nat) : Nat :=
  let far := fun (x y : Nat) => (x - y) + (y - x)
  far (a / 16) (b / 16) + far (a / 4 % 4) (b / 4 % 4) + far (a % 4) (b % 4)

end Sys2Proof.Machine

namespace Sys2Proof

/-- A reset whose straps select manufacturing test, which the manual does not describe (R20). -/
def Instr.testMode : Instr → Bool
  | .powerOnReset mode _ | .refclk25Return mode _ => Machine.manufacturing mode
  | _ => false

/-- A cold reset: the only way out of FAULTED, and back into service for a retired unit (R774, R782). -/
def Instr.coldReset : Instr → Bool
  | .powerOnReset _ _ | .refclk25Loss | .refclk25Return _ _ => true
  | _ => false

end Sys2Proof
end

