-- ==== Sys2Proof/Certificates/Slice0/Obligations.lean ====
section
/-! DEFINITION. The statements about the block, for the provers. The first are about every command and every step; then come
the rules of the manual; then, family by family, that every command completes with its effect, on hypotheses about the
state and the operands alone. `Does i s c` says that the command completes, that the queue stays, and that the chip is `c`
once what the engine does by itself has followed (`QuietEffectsStand` says when nothing follows); so such a statement is the
command's frame too. -/

open Sys2Proof Sys2Proof.Machine

/-- A step runs the command at the front of the queue with the rest of the queue; on an empty queue the block idles
(the model's choice, log 1). -/
def Obligations.StepRunsTheFrontCommand : Prop :=
  (∀ (i : Instr) (rest : List Instr) (c : Chip) (r : Round),
    step { pending := i :: rest, chip := c, round := r } = exec i { pending := rest, chip := c, round := r }) ∧
  (∀ (c : Chip) (r : Round), step { pending := [], chip := c, round := r } = .next { pending := [], chip := c, round := r })

/-- No command touches the queue of the waiting commands (the model's own field, log 1). -/
def Obligations.CommandsLeaveTheQueue : Prop :=
  ∀ (i : Instr) (s t : State), exec i s = .next t → t.pending = s.pending

/-- No command stops but a reset whose straps select manufacturing test, which R20 leaves undescribed. That it stops there,
and that a command whose event cannot happen completes, are the model's choices (log 9, log 4). -/
def Obligations.OnlyManufacturingTestStops : Prop :=
  ∀ (i : Instr) (s : State), (∃ t, exec i s = .next t) ∨ (exec i s = .fault .manufacturingTest ∧ i.testMode = true)

/-- R804, R856: an engine held in RESET by PORST_N or by the loss of REFCLK_25 answers nothing. Only pin levels of the board
and the test access port's answer change. -/
def Obligations.HeldEngineKeepsEverything : Prop :=
  ∀ (i : Instr) (s t : State), s.chip.off = true → i.coldReset = false → exec i s = .next t →
    t.chip = { s.chip with board := t.chip.board, tap := t.chip.tap } ∧
    t.chip.board.porstLow = s.chip.board.porstLow ∧ t.chip.board.refclk = s.chip.board.refclk

/-- R805, R856: MODE and ID are sampled when PORST_N rises. That they are sampled too when REFCLK_25 returns is read from
R856 (log 27). -/
def Obligations.StrapsAreSampledOnlyAtColdResets : Prop :=
  (∀ (i : Instr) (s t : State), (∀ mode ident, i ≠ .powerOnReset mode ident) → (∀ mode ident, i ≠ .refclk25Return mode ident) →
    exec i s = .next t → t.chip.straps = s.chip.straps) ∧
  (∀ (mode ident : Nat) (s t : State), s.chip.board.refclk = true → exec (.powerOnReset mode ident) s = .next t →
    t.chip.straps = strapsOf mode ident)

/-- R774. -/
def Obligations.RetiredUnitsStayRetired : Prop :=
  ∀ (i : Instr) (s t : State) (u : UnitName), i.coldReset = false → exec i s = .next t →
    u ∈ s.chip.faults.retired → u ∈ t.chip.faults.retired

/-- R782. -/
def Obligations.FaultedIsLeftOnlyAtAColdReset : Prop :=
  (∀ (i : Instr) (s t : State), i.coldReset = false → s.chip.engine = .faulted → exec i s = .next t → t.chip.engine = .faulted) ∧
  (∀ s : State, s.chip.engine = .faulted → Leaves .warmrstNFall s s.chip) ∧
  (∀ s : State, s.on = true → s.chip.engine = .faulted → Does (.warmResetReqWrite 0x57525354) s s.chip)

/-- The block's invariant: ID[5:0] is a strap of six bits (R191), an engine held in RESET has nothing left that a cold reset
clears (R804, R856), and FAULT_N is asserted exactly in FAULTED (R783). -/
def Obligations.EveryStepKeepsTheInvariant : Prop :=
  ∀ s t : State, s.inv = true → step s = .next t → t.inv = true

/-- The state after reset meets the invariant that every step keeps. -/
def Obligations.ResetMeetsTheInvariant : Prop :=
  State.reset.inv = true

/-- R12, R804: at power-on the engine is in RESET, the epoch is STOPPED at position 0, no unit is retired, and every
dictionary entry holds its default. -/
def Obligations.ResetLeavesTheDefaults : Prop :=
  State.reset.pending = [] ∧ State.reset.chip.engine = .reset ∧ State.reset.chip.board.porstLow = true ∧
  State.reset.chip.cleared = true ∧ State.reset.chip.epoch.st = .stopped ∧ State.reset.chip.epoch.pos = ⟨0, 0, 0⟩ ∧
  State.reset.chip.faults.faultN = false ∧ State.reset.chip.faults.retired = [] ∧
  ∀ key, State.reset.chip.dget key = dfltOf key

/-- R10, R11: of two values of a wrapping quantity of N bits, a is later than b exactly when (a − b) mod 2^N lies in
1 to 2^(N−1) − 1; at the distance 2^(N−1) it is not. -/
def Obligations.LaterIsHalfTheCircle : Prop :=
  ∀ n a b : Nat, 0 < n →
    (laterMod (2 ^ n) a b = true ↔ 1 ≤ ((a : Int) - b) % 2 ^ n ∧ ((a : Int) - b) % 2 ^ n ≤ 2 ^ (n - 1) - 1) ∧
    (((a : Int) - b) % 2 ^ n = 2 ^ (n - 1) → laterMod (2 ^ n) a b = false)

/-- R37, R38: positions add and subtract field by field with carry and borrow, which is arithmetic on counts of fraction
units modulo the whole circle; subtracting what was added gives the position back. -/
def Obligations.PositionsAddAndSubtract : Prop :=
  ∀ (lines : Nat) (p s : Pos), 0 < lines →
    ((Pos.add lines p s).frame < m32 ∧ (Pos.add lines p s).line < lines ∧ (Pos.add lines p s).frac < 0x10000 ∧
      (Pos.add lines p s).units lines = (p.units lines + s.units lines) % (m32 * lines * 0x10000)) ∧
    ((Pos.sub lines p s).frame < m32 ∧ (Pos.sub lines p s).line < lines ∧ (Pos.sub lines p s).frac < 0x10000 ∧
      (((Pos.sub lines p s).units lines : Nat) : Int) = ((p.units lines : Int) - s.units lines) % (m32 * lines * 0x10000)) ∧
    (p.frame < m32 → p.line < lines → p.frac < 0x10000 → Pos.sub lines (Pos.add lines p s) s = p)

/-- R42. -/
def Obligations.FrameStartSetsThePosition : Prop :=
  ∀ (c : Chip) (src : Nat), c.takesFrameStart src = true →
    (c.frameStartOf src).epoch.pos = ⟨(c.epoch.pos.frame + 1) % m32, 0, 0⟩ ∧ (c.frameStartOf src).epoch.st = .running

/-- R66. -/
def Obligations.StoppingReleasesTheTriggerPins : Prop :=
  ∀ c : Chip, c.epoch.st ≠ .stopped →
    c.stopEpoch.epoch.st = .stopped ∧ (∀ p ∈ c.stopEpoch.trig, p.2.asserted = false) ∧
    ∀ n x, (n, x) ∈ c.trig → x.asserted = true → (n, { x with asserted := false, rest := !x.activeHigh }) ∈ c.stopEpoch.trig

/-- R75, R74, R76: the slots that CUE_FIRE walks are exactly the armed ones whose target is reached, in ascending order; one
whose target was reached at the arm fires in a later update, and one whose arm has not had its update (R871) in none. -/
def Obligations.CuesFireInSlotOrder : Prop :=
  ∀ c : Chip, c.dueSlots.Pairwise (· < ·) ∧
    ∀ n, n ∈ c.dueSlots ↔ n < 1024 ∧ c.epoch.st ≠ .stopped ∧ (c.cue n).armed = true ∧ reached c.posNat (c.cue n).target = true ∧
      (c.cue n).waits = false ∧ ((c.cue n).late = true → (c.cue n).at_ < c.now)

/-- R143. -/
def Obligations.UnallocatedIndexAborts : Prop :=
  ∀ (s : State) (v : Nat) (via : Via) (idx sub : Nat) (data : List Byte), s.on = true → s.chip.silent = false → v < 16 →
    indexAllocated idx = false →
    (let c := s.chip.callWake
     Does (.dictRead v idx sub) s (c.noteReply v 1 idx sub 0x0A010001 [])) ∧
    (let c := s.chip.callWake
     Does (.dictDescribe v idx sub) s (c.noteReply v 4 idx sub 0x0A010001 [])) ∧
    (s.turn v via = true → goodVia v via = true →
      Does (.dictWrite v via idx sub data) s (s.chip.callWake.respond { voice := v, via, idx, sub, data } 0x0A010001))

/-- R168, R170. R168 is stated where no earlier check of R151 answers first: for RESTORE not in RUN, where R170 answers. -/
def Obligations.StoreAndRestoreTakeOnlyTheirKeys : Prop :=
  ∀ (s : State) (via : Via) (value : Nat), s.on = true → s.turn 0 via = true → goodVia 0 via = true → value < m32 →
    ((s.chip.engine = .config ∨ s.chip.engine = .ready ∨ s.chip.engine = .run) → value ≠ 0x53544F52 →
      Does (.store 0 via value) s
        (s.chip.callWake.respond { voice := 0, via, idx := 0x1100, sub := 1, data := leBytes 4 value } 0x0A030001)) ∧
    ((s.chip.engine = .config ∨ s.chip.engine = .ready) → value ≠ 0x44454641 →
      Does (.restore 0 via value) s
        (s.chip.callWake.respond { voice := 0, via, idx := 0x1101, sub := 1, data := leBytes 4 value } 0x0A030001)) ∧
    (s.chip.engine = .run →
      Does (.restore 0 via value) s
        (s.chip.callWake.respond { voice := 0, via, idx := 0x1101, sub := 1, data := leBytes 4 value } 0x0A040001))

/-- R179: the journal keeps the last eight commits, newest first, and 0x1830:2 to 0x1830:9 read them, zeros where there is none. -/
def Obligations.JournalHoldsTheLastEight : Prop :=
  (∀ (c : Chip) (q : DictReq),
    ((c.noteCommit q).keep q.voice).journal =
      (c.journalRecord (((c.keep q.voice).journalSeq + 1) % m32) q :: (c.keep q.voice).journal).take 8) ∧
  ∀ (s : State) (v k : Nat), s.live = true → v < 16 → k < 8 →
    Does (.dictRead v 0x1830 (k + 2)) s (s.chip.callWake.noteReply v 1 0x1830 (k + 2) 0
      (match (s.chip.keep v).journal[k]? with
       | some r => leBytes 32 r
       | none => List.replicate 32 0))

/-- R18: an entry marked OWN is V0's alone. Another voice's READ and WRITE abort, before every other check (R151). A locked
BINDING carries the mark no longer (Table 16.6). -/
def Obligations.OwnedEntriesAreV0sAlone : Prop :=
  ∀ (s : State) (v : Nat) (via : Via) (idx sub : Nat) (data : List Byte) (e : Entry), s.on = true → s.chip.silent = false →
    v ≠ 0 → v < 16 → findEntry idx sub = some e → bit (s.chip.accessOf idx sub e) 3 = true →
    (let c := s.chip.callWake
     Does (.dictRead v idx sub) s (c.noteReply v 1 idx sub 0x0A020003 [])) ∧
    (s.turn v via = true → goodVia v via = true →
      Does (.dictWrite v via idx sub data) s (s.chip.callWake.respond { voice := v, via, idx, sub, data } 0x0A020003))

/-- R130 to R132 for the PF outside V0's block: the first rejected access is captured and writes one event, later ones only
add their kinds, OVERFLOW and a count, and clearing the latch clears the count. -/
def Obligations.AccessErrorsLatch : Prop :=
  (∀ (c : Chip) (offset data kinds : Nat), ¬(0x1000000 ≤ offset ∧ offset < 0x1010000) → c.ctl.err.bits = 0 →
    (c.reject 0 offset data kinds).ctl.err = { bits := kinds, offset, data, count := 1 } ∧
    (c.reject 0 offset data kinds).faults.latest = (c.faults.latest + 1) % m32) ∧
  (∀ (c : Chip) (offset data kinds : Nat), ¬(0x1000000 ≤ offset ∧ offset < 0x1010000) → c.ctl.err.bits ≠ 0 →
    (c.reject 0 offset data kinds).ctl.err =
      { bits := c.ctl.err.bits ||| kinds ||| 0x80000000, offset := c.ctl.err.offset, data := c.ctl.err.data,
        count := Nat.min 0xFFFF (c.ctl.err.count + 1) } ∧
    (c.reject 0 offset data kinds).faults = c.faults) ∧
  (∀ (l : ErrLatch) (value : Nat), (l.ack value).bits = 0 → (l.ack value).count = 0)

/-- R122. -/
def Obligations.DisabledBar2ReadsZeroAndDropsWrites : Prop :=
  ∀ (s : State) (offset len : Nat) (data : List (Option Byte)), s.on = true → s.chip.answers 0 = true →
    s.chip.gov.p7 = false → s.chip.ctl.bar2Enable = false → offset + len ≤ 0x4000000 → offset + data.length ≤ 0x4000000 →
    Does (.bar2Read offset len) s { s.chip with readData := List.replicate len 0 } ∧
    ∃ c : Chip, Does (.bar2Write offset data) s c ∧ c.tier1 = s.chip.tier1 ∧ bit c.ctl.err.bits 5 = true

/-- R121, R123: BAR2 is a window on tier 1. What is written there reads back, and every other byte of tier 1 stays. -/
def Obligations.Bar2ReadsBackWhatIsWritten : Prop :=
  ∀ (c : Chip) (offset : Nat) (data : List Byte), c.answers 0 = true → c.gov.p7 = false → c.ctl.bar2Enable = true →
    offset + data.length ≤ 0x3000000 →
    (∀ a, offset ≤ a → a < offset + data.length → c.deadBank a = false ∧ c.bar2Busy a = false) →
    ((c.bar2Write offset (data.map some)).bar2Read offset data.length).readData = data ∧
    ∀ a, (a < offset ∨ offset + data.length ≤ a) → (c.bar2Write offset (data.map some)).tier1.read a = c.tier1.read a

/-- R269: a doorbell that would hold more entries than the ring has is rejected as VALUE; any other is stored. -/
def Obligations.DoorbellBeyondTheRingIsRejected : Prop :=
  ∀ (s : State) (v tail : Nat) (written : List (Nat × List Byte)), s.on = true → s.chip.ownsBlock v = true → tail ≤ 0xFFFF →
    ((((tail : Int) - (s.chip.voice v).cmdHead) % 0x10000 ≤ (2 ^ (s.chip.voice v).cmdLog2 : Nat)) →
      ∃ c : Chip, Does (.cmdDoorbell v tail written) s c ∧ c.voice v = { s.chip.voice v with cmdTail := tail }) ∧
    (((2 ^ (s.chip.voice v).cmdLog2 : Nat) < ((tail : Int) - (s.chip.voice v).cmdHead) % 0x10000) →
      ∃ c : Chip, Does (.cmdDoorbell v tail written) s c ∧ (c.voice v).cmdTail = (s.chip.voice v).cmdTail ∧
        bit (c.voice v).err.bits 4 = true)

/-- R286. -/
def Obligations.LullOutsideMeshModeFails : Prop :=
  ∀ (s : State) (v : Nat) (a : Admitted), s.on = true → v < 16 → s.chip.admits = true → s.chip.admittedAs v 10 = some a →
    s.chip.straps.mode ≠ .mesh → (s.chip.voice v).resetDrain = false →
    ∃ c : Chip, Does (.lull v) s c ∧ (c.voice v).admitted = none ∧
      (c.voice v).cpl = (s.chip.voice v).cpl ++
        [{ kind := .command, tag := a.tag, opcode := a.opcode, status := 0x0A040001, cookie := a.cookie, info := 0, data := 0,
           irq := a.irq, holds := takesEntry a.opcode }]

/-- R304; the speed after it is a free value (log 7). The port's own entries 0x1810:2, 3 and 5 (state, speed and bus resets) are the exception that their rows make. -/
def Obligations.BusResetIsNoVoiceReset : Prop :=
  ∀ s : State, s.on = true →
    ∃ c : Chip, Does .usbBusReset s c ∧ c.tensors = s.chip.tensors ∧ c.cues = s.chip.cues ∧ c.voices = s.chip.voices ∧
      c.ledger = s.chip.ledger ∧ c.moves = s.chip.moves ∧ (c.keep 15).journal = (s.chip.keep 15).journal ∧
      (c.keep 15).journalSeq = (s.chip.keep 15).journalSeq ∧
      ∀ key, key ≠ ent 0x1810 2 → key ≠ ent 0x1810 3 → key ≠ ent 0x1810 5 → c.dget key = s.chip.dget key

/-- R807. -/
def Obligations.WarmResetsWithoutEffect : Prop :=
  (∀ s : State, (s.chip.board.porstLow = true ∨ s.chip.engine = .faulted) → Leaves .warmrstNFall s s.chip) ∧
  (∀ (s : State) (value : Nat), s.chip.board.porstLow = true → exec (.warmResetReqWrite value) s = .next s) ∧
  (∀ s : State, s.on = true → s.chip.engine = .faulted → Does (.warmResetReqWrite 0x57525354) s s.chip)

/-- R828. -/
def Obligations.BootTakesTheLaterSlot : Prop :=
  ∀ f : Flash,
    ((f.slot 0).valid = true → (f.slot 1).valid = true →
      f.chooseSlot = if laterMod m32 (f.slot 1).seq (f.slot 0).seq = true then some 1 else some 0) ∧
    ((f.slot 0).valid = true → (f.slot 1).valid = false → f.chooseSlot = some 0) ∧
    ((f.slot 0).valid = false → (f.slot 1).valid = true → f.chooseSlot = some 1) ∧
    ((f.slot 0).valid = false → (f.slot 1).valid = false → f.chooseSlot = none) ∧
    ∀ (c : Chip) (level : Nat), c.flash = f → (c.loadCalibration level).flash.calDefault = f.chooseSlot.isNone ∧
      (c.loadCalibration level).dget (ent 0x6000 1) = f.chooseSlot.getD 0xFF

/-- R796. What is signed follows R794; that an unlocked binding counts as zeros is the model's choice (log 8). -/
def Obligations.TheLatestNonceIsSigned : Prop :=
  ∀ (c : Chip) (old new : List Byte),
    ((c.takeNonce old).takeNonce new).faults.signing = true ∧ ((c.takeNonce old).takeNonce new).faults.signature = [] ∧
    ((c.takeNonce old).takeNonce new).signed.faults.signature = padTo 64 (Config.signature (asciiBytes "KEACEN-ID" ++
      leBytes 16 Config.serial ++ leBytes 16 (c.flash.binding.getD 0) ++ padTo 32 new)) ∧
    ((c.takeNonce old).takeNonce new).signed.faults.signing = false

/-- R786, R787. -/
def Obligations.TheEventRingHoldsTheLatest4096 : Prop :=
  ∀ (c : Chip) (code block inst detail detail2 : Nat),
    (c.log code block inst detail detail2).faults.ring.length = Nat.min 4096 (c.faults.ring.length + 1) ∧
    (c.log code block inst detail detail2).faults.latest = (c.faults.latest + 1) % m32 ∧
    (c.log code block inst detail detail2).dget (ent 0x5820 4) =
      if 4096 ≤ c.faults.ring.length then Nat.min 0xFFFFFFFF (c.dget (ent 0x5820 4) + 1) else c.dget (ent 0x5820 4)

/-- R209: the FIFO keeps its 64 frames, and a frame that some filter accepts adds one to RX_OVERFLOW. -/
def Obligations.FullFifoDropsTheFrame : Prop :=
  ∀ (c : Chip) (p : Nat) (f : CanFrame), (c.port p).fifo.length = 64 →
    (c.toFifo p f).can = c.can ∧
    (((List.range 64).any (fun k => (c.port p).matchesFilter f k) = true) →
      (c.toFifo p f).dget (canKey p 25) = (c.dget (canKey p 25) + 1) % m32)

/-- R662: while 512 data flits are unacknowledged, no packet starts and no data flit is sent. -/
def Obligations.ARetryBufferThatIsFullHoldsDataBack : Prop :=
  ∀ (c : Chip) (p : Nat), 512 ≤ (c.str p).retry.length → c.drain p = c

/-- R614. -/
def Obligations.ChargesRoundUpToTheGranule : Prop :=
  ∀ tier size : Nat, charge tier size % granule tier = 0 ∧ size ≤ charge tier size ∧ charge tier size < size + granule tier

/-- R529, R530, R531. -/
def Obligations.PivotsAreRegularised : Prop :=
  ∀ (t : Tabl) (h d : Nat),
    let tau := add64 (mul64 (to64 t.pivotRel) (Fmt.f64.abs h)) (to64 t.pivotAbs)
    (Fmt.f64.isNan d = true → (pivot t h d).1 = tau) ∧
    (Fmt.f64.isNan d = false → t.kind = 0 → (pivot t h d).1 = if Fmt.f64.lt d tau then tau else d) ∧
    (Fmt.f64.isNan d = false → t.kind ≠ 0 → Fmt.f64.lt (Fmt.f64.abs d) tau = true → Fmt.f64.lt d 0 = false → (pivot t h d).1 = tau) ∧
    (Fmt.f64.isNan d = false → t.kind ≠ 0 → Fmt.f64.lt (Fmt.f64.abs d) tau = true → Fmt.f64.lt d 0 = true → (pivot t h d).1 = neg64 tau) ∧
    (Fmt.f64.isNan d = false → t.kind ≠ 0 → Fmt.f64.lt (Fmt.f64.abs d) tau = false → (pivot t h d).1 = d)

/-- R668: dimension order comes one string nearer at every hop, and without a detour a packet takes that port or none. -/
def Obligations.DimensionOrderReachesTheDestination : Prop :=
  (∀ here dest : Nat, here < 1024 → dest < 1024 →
    (fun h => if h = dest then h else stepTo h (dimensionPort h dest))^[hopsBetween here dest] here = dest) ∧
  ∀ (c : Chip) (here dest : Nat), tabGet 0 c.mesh.detours dest < 0x80 → 
    c.routeOf here dest = if c.usable (dimensionPort here dest) = true then some (dimensionPort here dest, false) else none

/-- R743. -/
def Obligations.TheAppliedLevelIsTheSlowest : Prop :=
  ∀ c : Chip, c.gov.p7 = false → c.engine ≠ .hold → c.gov.started = true →
    let level := c.relevel.dget (govKey 1)
    Nat.min c.floor (Nat.max c.ceiling (c.dget (govKey 4))) ≤ level ∧ c.tl ≤ level ∧ c.cl ≤ level ∧
    (level = Nat.min c.floor (Nat.max c.ceiling (c.dget (govKey 4))) ∨ level = c.tl ∨ level = c.cl)

/-- R311. -/
def Obligations.QuotasFitTheCapacity : Prop :=
  ∀ (s : State) (via : Via) (w k value : Nat), s.on = true → s.turn 0 via = true → goodVia 0 via = true →
    (s.chip.engine = .config ∨ s.chip.engine = .ready ∨ s.chip.engine = .run) → 1 ≤ w → w ≤ 15 → k < 5 →
    (∀ e, findEntry (vIdx w 1) (k + 1) = some e → e.inRange value = true) → value < 256 ^ (if k = 4 then 2 else 4) →
    s.chip.capacity k < ((rangeFrom 1 15).map (fun x => if x = w then value else s.chip.dget (ent (vIdx x 1) (k + 1)))).foldl (· + ·) 0 →
    Does (.dictWrite 0 via (vIdx w 1) (k + 1) (leBytes (if k = 4 then 2 else 4) value)) s
      (s.chip.callWake.respond { voice := 0, via, idx := vIdx w 1, sub := k + 1, data := leBytes (if k = 4 then 2 else 4) value } 0x0A030003)

/-- When nothing waits for the end of a command (R174, R311, R761, R783, R869), settling leaves the effect as it is. So a
statement that a command completes with an effect is that command's frame too. -/
def Obligations.QuietEffectsStand : Prop :=
  ∀ c old : Chip, c.quiet = true → c.straps = old.straps → c.grade = old.grade → c.lp5x = old.lp5x → c.engine = old.engine →
    c.board.porstLow = old.board.porstLow → c.board.refclk = old.board.refclk → c.faults.retired = old.faults.retired →
    c.errorRegister = old.errorRegister → c.cams = old.cams → c.inertial = old.inertial → c.lanes = old.lanes →
    c.passages = old.passages → c.moves = old.moves → c.tensors = old.tensors → c.ests = old.ests →
    c.settled old = c

/-- Frames: on a quiet chip each of these commands changes the fields its rule names and nothing else of the whole state. -/
def Obligations.QuietCommandsChangeOnlyTheirTargets : Prop :=
  ∀ s : State, s.on = true → s.chip.quiet = true →
    (s.chip.answers 0 = true → ∀ value, value < m32 →
      exec (.registerWrite 0 0x10014 value 15) s =
        .next { s with round := {}, chip := { s.chip with ctl := { s.chip.ctl with scratch := value } } }) ∧
    (s.chip.answers 0 = true →
      exec .epochLoRead s =
        .next { s with round := {}, chip := { s.chip with epochHi := s.chip.posNat / m32, readData := leBytes 4 (s.chip.posNat % m32) } }) ∧
    (s.chip.answers 0 = true → s.chip.gov.p7 = false → s.chip.ctl.bar2Enable = true → ∀ offset len, offset + len ≤ 0x3000000 →
      exec (.bar2Read offset len) s =
        .next { s with round := {}, chip := { s.chip with readData := (rangeFrom offset len).map (fun a => if s.chip.deadBank a then 0 else s.chip.tier1.read a) } }) ∧
    (s.chip.answers 0 = true → s.chip.gov.p7 = false → s.chip.ctl.bar2Enable = true → ∀ offset data,
      offset + data.length ≤ 0x4000000 →
      (∀ p ∈ bar2Bytes offset data, p.1 < 0x3000000 ∧ s.chip.deadBank p.1 = false ∧ s.chip.bar2Busy p.1 = false) →
      exec (.bar2Write offset data) s =
        .next { s with round := {}, chip := { s.chip with tier1 := (bar2Bytes offset data).foldl (fun m p => m.write p.1 p.2) s.chip.tier1 } }) ∧
    (∀ p, p < 2 →
      exec (.rxPop p 1) s = .next { s with round := {}, chip := s.chip.setPort p { s.chip.port p with fifo := (s.chip.port p).fifo.drop 1 } }) ∧
    (∀ pin, (s.chip.pin pin).asserted = true → (s.chip.pin pin).at_ < s.chip.now → (s.chip.pin pin).atOnce = true →
      exec (.trigPulseEnd pin) s =
        .next { s with round := {}, chip := s.chip.setPin pin { s.chip.pin pin with asserted := false, rest := !(s.chip.pin pin).activeHigh } })

/-- Every epoch command completes with its effect. Where the manual leaves a convention open, a clause
rests on the model's choice of log entries 3, 4, 25, 66. -/
def Obligations.EpochCommandsComplete : Prop :=
  -- LINE_EDGE (lineGlitch)
  (∀ (s : State) (src m : Nat), s.on = true → s.chip.takesFrameStart src = true → src ≠ 0x30 → src ≠ 0x31 →
     (s.chip.epoch.active = some src ∨ src = 0x20) → isGlitch src m s.chip.epoch.estimate = true →
     (isCameraSource src = false ∨ s.chip.epoch.headerSeen = true) →
     (isEncoderSource src = false ∨ s.chip.epoch.st = .stopped) →
     Does (.lineEdge src m) s (s.chip.dinc (ent 0x2801 7))) ∧
  -- LINE_EDGE (lineGlitchCounted)
  (∀ (s : State) (src m : Nat), s.on = true → s.chip.takesFrameStart src = true → isEncoderSource src = true →
     s.chip.epoch.active = some src → isGlitch src m s.chip.epoch.estimate = true → s.chip.epoch.st = .running →
     Does (.lineEdge src m) s (let c := s.chip.dinc (ent 0x2801 7); { c with epoch := { c.epoch with encRaw := c.epoch.encRaw + 1, encMax := if c.epoch.encMax < c.epoch.encRaw + 1 then c.epoch.encRaw + 1 else c.epoch.encMax } })) ∧
  -- LINE_EDGE (line)
  (∀ (s : State) (src m : Nat), s.on = true → s.chip.takesFrameStart src = true → src ≠ 0x30 → src ≠ 0x31 →
     (isGlitch src m s.chip.epoch.estimate = false ∨ (isCameraSource src = true ∧ s.chip.epoch.headerSeen = false) ∨
       (s.chip.epoch.active ≠ some src ∧ src ≠ 0x20)) →
     Does (.lineEdge src m) s (s.chip.takeLine src m)) ∧
  -- FRACTION_UPDATE (time)
  (∀ (s : State) (n : Nat), s.on = true → Does (.fractionUpdate n) s (s.chip.passTime n)) ∧
  -- FRAME_START (frameStart)
  (∀ (s : State) (src : Nat), s.on = true → (isCameraSource src || isEncoderSource src) = true →
     Does (.frameStart src) s (s.chip.startEpochFrame src)) ∧
  -- EPOCH_FRAME_END (frameEnd)
  (∀ (s : State) (src : Nat), s.on = true → isCameraSource src = true → s.chip.epoch.active = some src →
     (s.chip.epoch.st = .running ∨ s.chip.epoch.st = .freewheel) →
     Does (.epochFrameEnd src) s ({ s.chip with epoch := { s.chip.epoch with st := .blanking, measurable := false, synthAt := if s.chip.epoch.estimate = 0 then 0 else (s.chip.epoch.elapsed / s.chip.epoch.estimate + 1) * s.chip.epoch.estimate } })) ∧
  -- BLANKING_LINE (blanking)
  (∀ (s : State), s.on = true → s.chip.epoch.st = .blanking → s.chip.epoch.estimate ≠ 0 →
     s.chip.epoch.synthAt ≤ s.chip.epoch.elapsed → s.chip.epoch.pos.line + 1 < s.chip.epoch.frameLines →
     Does .blankingLine s ({ s.chip with epoch := { s.chip.epoch with synthAt := s.chip.epoch.synthAt + s.chip.epoch.estimate, pos := { s.chip.epoch.pos with line := s.chip.epoch.pos.line + 1, frac := 0 } } })) ∧
  -- BLANKING_LINE (blankingHeld)
  (∀ (s : State), s.on = true → s.chip.epoch.st = .blanking → s.chip.epoch.estimate ≠ 0 →
     s.chip.epoch.synthAt ≤ s.chip.epoch.elapsed → s.chip.epoch.frameLines ≤ s.chip.epoch.pos.line + 1 →
     Does .blankingLine s ({ s.chip with epoch := { s.chip.epoch with elapsed := s.chip.epoch.elapsed - s.chip.epoch.synthAt, st := .held, why := .endOfFrame, pos := { s.chip.epoch.pos with line := s.chip.epoch.frameLines - 1, frac := 0xFFFF } } })) ∧
  -- FREEWHEEL_ENTRY (freewheelStops)
  (∀ (s : State), s.on = true → s.chip.linesMissing = true → s.chip.dget (ent 0x2800 4) = 0 →
     Does .freewheelEntry s s.chip.stopEpoch) ∧
  -- FREEWHEEL_ENTRY (freewheelHeld)
  (∀ (s : State), s.on = true → s.chip.linesMissing = true → s.chip.dget (ent 0x2800 4) ≠ 0 →
     s.chip.epoch.frameLines ≤ s.chip.epoch.pos.line + 1 →
     Does .freewheelEntry s (Chip.holdEpoch { s.chip with epoch := { s.chip.epoch with elapsed := s.chip.epoch.elapsed - 2 * s.chip.epoch.estimate, measurable := false } })) ∧
  -- FREEWHEEL_ENTRY (freewheelEntry)
  (∀ (s : State), s.on = true → s.chip.linesMissing = true → s.chip.dget (ent 0x2800 4) ≠ 0 →
     s.chip.epoch.pos.line + 1 < s.chip.epoch.frameLines →
     Does .freewheelEntry s (Chip.countFreewheel ((Chip.dinc { s.chip with epoch := { s.chip.epoch with elapsed := s.chip.epoch.elapsed - 2 * s.chip.epoch.estimate, measurable := false, st := .freewheel, pos := { s.chip.epoch.pos with line := s.chip.epoch.pos.line + 1, frac := 0 } } } (ent 0x2801 6)).log 0x0501 0x0013 0xFFFF 0 0))) ∧
  -- FREEWHEEL_LINE (freewheelLine)
  (∀ (s : State), s.on = true → s.chip.epoch.st = .freewheel → s.chip.epoch.estimate ≠ 0 →
     s.chip.epoch.estimate ≤ s.chip.epoch.elapsed →
     Does .freewheelLine s (Chip.freewheelOne { s.chip with epoch := { s.chip.epoch with elapsed := s.chip.epoch.elapsed - s.chip.epoch.estimate } })) ∧
  -- HOLD_INTERVAL (holdInterval)
  (∀ (s : State), s.on = true → s.chip.epoch.st = .held → s.chip.epoch.why = .endOfFrame → s.chip.epoch.estimate ≠ 0 →
     s.chip.epoch.estimate ≤ s.chip.epoch.elapsed → s.chip.dget (ent 0x2800 4) ≠ 0 →
     Does .holdInterval s (Chip.countFreewheel { s.chip with epoch := { s.chip.epoch with elapsed := s.chip.epoch.elapsed - s.chip.epoch.estimate } })) ∧
  -- HOLD_INTERVAL (holdUncounted)
  (∀ (s : State), s.on = true → s.chip.epoch.st = .held → s.chip.epoch.why = .endOfFrame → s.chip.epoch.estimate ≠ 0 →
     s.chip.epoch.estimate ≤ s.chip.epoch.elapsed → s.chip.dget (ent 0x2800 4) = 0 →
     Does .holdInterval s ({ s.chip with epoch := { s.chip.epoch with elapsed := s.chip.epoch.elapsed - s.chip.epoch.estimate } })) ∧
  -- REVERSE_COUNT (reverse)
  (∀ (s : State) (src : Nat), s.on = true → isEncoderSource src = true → s.chip.epoch.active = some src →
     (s.chip.epoch.st = .running ∨ s.chip.epoch.st = .freewheel) →
     Does (.reverseCount src) s ({ s.chip with epoch := { s.chip.epoch with encRaw := s.chip.epoch.encRaw - 1, st := .held, why := .reverse } })) ∧
  -- SYNTHETIC_EDGE (syntheticLine)
  (∀ (s : State), s.on = true → s.chip.epoch.synthOn = true → s.chip.takesFrameStart 0x31 = true →
     s.chip.epoch.synthPeriod ≤ s.chip.epoch.synthElapsed → s.chip.edgeStartsFrame 0x31 = false →
     Does .syntheticEdge s (let p := s.chip.dget (ent 0x2800 6); (s.chip.realLine p).synthBegins (s.chip.epoch.synthElapsed - s.chip.epoch.synthPeriod) p)) ∧
  -- SYNTHETIC_EDGE (syntheticFrame)
  (∀ (s : State), s.on = true → s.chip.epoch.synthOn = true → s.chip.takesFrameStart 0x31 = true →
     s.chip.epoch.synthPeriod ≤ s.chip.epoch.synthElapsed → s.chip.edgeStartsFrame 0x31 = true →
     Does .syntheticEdge s (let p := s.chip.dget (ent 0x2800 6); (s.chip.startEpochFrame 0x31).synthBegins (s.chip.epoch.synthElapsed - s.chip.epoch.synthPeriod) p)) ∧
  -- VIRTUAL_RECORD_STEP (recordLine)
  (∀ (s : State) (target period : Nat), s.on = true → s.chip.epoch.virtual = some (target, period) →
     s.chip.takesFrameStart 0x30 = true → s.chip.epoch.pendingSource ≠ some 0x30 → s.chip.epoch.st ≠ .stopped →
     s.chip.epoch.pos.line + 1 < s.chip.epoch.frameLines →
     Does .virtualRecordStep s (Chip.recordDone { s.chip with epoch := { s.chip.epoch with estimate := period, fresh := false, st := .running, pos := { s.chip.epoch.pos with line := s.chip.epoch.pos.line + 1, frac := 0 }, elapsed := 0, freewheelCount := 0 } } target))

/-- Every cue command completes with its effect. Where the manual leaves a convention open, a clause
rests on the model's choice of log entries 17, 18, 50, 66. -/
def Obligations.CueCommandsComplete : Prop :=
  -- CUE_ARM_COMMIT (armCommanded)
  (∀ (s : State) (w : ArmWait) (rest : List ArmWait), s.on = true → s.chip.engine ≠ .faulted → s.chip.armRateFree = true →
     s.chip.armQueue = w :: rest → w.write = none → w.engine = false →
     Does .cueArmCommit s (let c := Chip.armCommand { s.chip with armQueue := [] } w; { c with armQueue := rest })) ∧
  -- CUE_ARM_COMMIT (armOwn)
  (∀ (s : State) (w : ArmWait) (rest : List ArmWait), s.on = true → s.chip.engine ≠ .faulted → s.chip.armRateFree = true →
     s.chip.armQueue = w :: rest → w.write = none → w.engine = true →
     Does .cueArmCommit s (let c := Chip.armTakes { s.chip with armQueue := [] } w.slot; { c with armQueue := rest })) ∧
  -- CUE_ARM_COMMIT (armWritten)
  (∀ (s : State) (w : ArmWait) (rest : List ArmWait) (q : DictReq), s.on = true → s.chip.engine ≠ .faulted →
     s.chip.armRateFree = true → s.chip.armQueue = w :: rest → w.write = some q →
     Chip.codeOf { s.chip with armQueue := [] } q = 0 →
     Does .cueArmCommit s (let c := (Chip.commitWrite { s.chip with armQueue := [] } q).respond q 0; { c with armQueue := rest })) ∧
  -- CUE_FIRE (fire)
  (∀ (s : State), s.on = true →
     Does .cueFire s (s.chip.each s.chip.dueSlots (fun c n => if c.slotDue n && c.engine != .faulted then (c.fireSlot n).cueAction n (c.cue n) else c))) ∧
  -- TRIG_PULSE_END (pulseEnd)
  (∀ (s : State) (pin : Nat), s.on = true → (s.chip.pin pin).asserted = true → (s.chip.pin pin).at_ < s.chip.now →
     ((s.chip.pin pin).atOnce = true ∨ (reached s.chip.posNat (s.chip.pin pin).endPos = true ∧ s.chip.epoch.st ≠ .stopped)) →
     Does (.trigPulseEnd pin) s (s.chip.setPin pin (s.chip.pin pin).release))

/-- Resets, board pins, boot and self-test complete with their effects; manufacturing test stops. Where the manual leaves a convention open, a clause
rests on the model's choice of log entries 5, 9, 10, 27, 41, 47. -/
def Obligations.ResetsAndPinsComplete : Prop :=
  -- POWER_ON_RESET (por)
  (∀ (s : State) (mode ident : Nat), s.chip.board.refclk = true → mode % 4 ≠ 3 →
     Leaves (.powerOnReset mode ident) s (Chip.coldReset { s.chip with board := { s.chip.board with porstLow := false } } mode ident)) ∧
  -- POWER_ON_RESET (porNoClock)
  (∀ (s : State) (mode ident : Nat), s.chip.board.refclk = false →
     Leaves (.powerOnReset mode ident) s ({ s.chip.held with board := { s.chip.board with porstLow := false } })) ∧
  -- POWER_ON_RESET (porTest)
  (∀ (s : State) (mode ident : Nat), s.chip.board.refclk = true → mode % 4 = 3 →
     exec (.powerOnReset mode ident) s = .fault .manufacturingTest) ∧
  -- REFCLK_25_LOSS (refLoss)
  (∀ (s : State), Leaves .refclk25Loss s s.chip.refclkLost) ∧
  -- REFCLK_25_RETURN (refReturn)
  (∀ (s : State) (mode ident : Nat), s.chip.board.refclk = false → s.chip.board.porstLow = false → mode % 4 ≠ 3 →
     Leaves (.refclk25Return mode ident) s (Chip.coldReset { s.chip with board := { s.chip.board with refclk := true } } mode ident)) ∧
  -- REFCLK_25_RETURN (refReturnHeld)
  (∀ (s : State) (mode ident : Nat), s.chip.board.refclk = false → s.chip.board.porstLow = true →
     Leaves (.refclk25Return mode ident) s ({ s.chip with board := { s.chip.board with refclk := true } })) ∧
  -- WARMRST_N_FALL (warm)
  (∀ (s : State), Leaves .warmrstNFall s (s.chip.warmReset 2)) ∧
  -- WARMRST_N_FALL (warmFaulted)
  (∀ (s : State), s.chip.engine = .faulted → Leaves .warmrstNFall s s.chip) ∧
  -- WARM_RESET_REQ_WRITE (warmReq)
  (∀ (s : State), s.on = true → s.chip.answers 0 = true → Does (.warmResetReqWrite 0x57525354) s (s.chip.warmReset 3)) ∧
  -- WARM_RESET_REQ_WRITE (warmReqBad)
  (∀ (s : State) (value : Nat), s.on = true → s.chip.answers 0 = true → value < m32 → value ≠ 0x57525354 →
     Does (.warmResetReqWrite value) s (s.chip.reject 0 0x10040 value 16)) ∧
  -- ACCESS_ERR_CLEAR (accessClear)
  (∀ (s : State) (value : Nat), s.on = true → s.chip.answers 0 = true → value < m32 →
     Does (.accessErrClear value) s (let r := s.chip.ctl.err.write 0 value 0x7FFFFF00; if r.2 = 0 then { s.chip with ctl := { s.chip.ctl with err := r.1 } } else s.chip.reject 0 0x10020 value r.2)) ∧
  -- PFAIL_N_ASSERT (pfail)
  (∀ (s : State), s.on = true → s.chip.board.pfail = false →
     Does .pfailNAssert s (Chip.abandonInstall (Chip.abandonStore { s.chip with board := { s.chip.board with pfail := true } }))) ∧
  -- PFAIL_N_RELEASE (pfailBack)
  (∀ (s : State), s.on = true → Does .pfailNRelease s ({ s.chip with board := { s.chip.board with pfail := false } })) ∧
  -- SELFTEST (selftestCold)
  (∀ (s : State) (failed : List UnitName), s.on = true → s.chip.engine = .boot → s.chip.gov.bootHot = false →
     s.chip.flash.cold = true →
     Does (.selftest failed) s (Chip.each { s.chip with engine := .selftest } (failed.filter unitExists) (fun c u => c.retireUnit u 6 0))) ∧
  -- SELFTEST (selftestWarm)
  (∀ (s : State) (failed : List UnitName), s.on = true → s.chip.engine = .boot → s.chip.gov.bootHot = false →
     s.chip.flash.cold = false → Does (.selftest failed) s ({ s.chip with engine := .selftest })) ∧
  -- SELFTEST_COMPLETE (selftestDone)
  (∀ (s : State), s.on = true → s.chip.engine = .selftest → s.chip.enterFirstConfig.engine = .config →
     Does .selftestComplete s s.chip.enterFirstConfig.startAllStored) ∧
  -- TAP_INSTRUCTION (tap)
  (∀ (s : State) (ir : TapInstruction), Leaves (.tapInstruction ir) s ({ s.chip with tap := Tap.load ir s.chip.board.porstLow })) ∧
  -- TAP_INSTRUCTION (tapHigh)
  (∀ (s : State) (ir : TapInstruction), s.chip.board.porstLow = false → (ir = .extest ∨ ir = .clamp ∨ ir = .highz) →
     Leaves (.tapInstruction ir) s ({ s.chip with tap := { acting := .bypass, captured := some 0 } })) ∧
  -- TAP_INSTRUCTION (tapIdcode)
  (∀ (s : State), Leaves (.tapInstruction .idcode) s ({ s.chip with tap := { acting := .idcode, captured := some 0x10480C5B } }))

/-- Register and BAR2 accesses complete with their effects. Where the manual leaves a convention open, a clause
rests on the model's choice of log entries 56, 57. -/
def Obligations.RegisterAccessesComplete : Prop :=
  -- REGISTER_WRITE (write)
  (∀ (s : State) (fn offset value : Nat), s.on = true → s.chip.answers fn = true → offset % 4 = 0 → offset < barSize fn →
     (fn = 0 ∨ s.chip.onTunnel fn = false) → value < m32 →
     Does (.registerWrite fn offset value 15) s (s.chip.writeDword fn offset value 15)) ∧
  -- REGISTER_WRITE (scratch)
  (∀ (s : State) (value : Nat), s.on = true → s.chip.answers 0 = true → value < m32 →
     Does (.registerWrite 0 0x10014 value 15) s ({ s.chip with ctl := { s.chip.ctl with scratch := value } })) ∧
  -- REGISTER_WRITE (writeNarrow)
  (∀ (s : State) (value be : Nat), s.on = true → s.chip.answers 0 = true → value < m32 → 0 < be → be < 15 →
     Does (.registerWrite 0 0x10014 value be) s (s.chip.reject 0 0x10014 value 4)) ∧
  -- REGISTER_WRITE (writeHole)
  (∀ (s : State) (offset value : Nat), s.on = true → s.chip.answers 0 = true → offset % 4 = 0 → offset < 0x4000000 →
     value < m32 → pfWindow s.chip.grade offset = none →
     Does (.registerWrite 0 offset value 15) s (s.chip.reject 0 offset value 2)) ∧
  -- UNMAPPED_READ (readHole)
  (∀ (s : State) (offset : Nat), s.on = true → s.chip.answers 0 = true → offset % 4 = 0 → offset < 0x4000000 →
     pfWindow s.chip.grade offset = none →
     Does (.unmappedRead 0 offset) s ({ s.chip.reject 0 offset 0 1 with readData := [0, 0, 0, 0] })) ∧
  -- UNMAPPED_READ (readMapped)
  (∀ (s : State) (offset ty n o : Nat), s.on = true → s.chip.answers 0 = true → offset % 4 = 0 → offset < 0x4000000 →
     pfWindow s.chip.grade offset = some (ty, n, o) → s.chip.gov.p7 = false → s.chip.onTunnel 0 = false →
     Does (.unmappedRead 0 offset) s (let r := s.chip.windowRead ty n o; { r.1 with readData := leBytes 4 r.2 })) ∧
  -- EPOCH_LO_READ (epochLo)
  (∀ (s : State), s.on = true → s.chip.answers 0 = true →
     Does .epochLoRead s ({ s.chip with epochHi := s.chip.posNat / m32, readData := leBytes 4 (s.chip.posNat % m32) })) ∧
  -- BAR2_WRITE (bar2Write)
  (∀ (s : State) (offset : Nat) (data : List (Option Byte)), s.on = true → s.chip.answers 0 = true →
     offset + data.length ≤ 0x4000000 → s.chip.gov.p7 = false → s.chip.ctl.bar2Enable = true →
     (∀ p ∈ bar2Bytes offset data, p.1 < 0x3000000 ∧ s.chip.deadBank p.1 = false ∧ s.chip.bar2Busy p.1 = false) →
     Does (.bar2Write offset data) s ({ s.chip with tier1 := (bar2Bytes offset data).foldl (fun m p => m.write p.1 p.2) s.chip.tier1 })) ∧
  -- BAR2_READ (bar2Read)
  (∀ (s : State) (offset len : Nat), s.on = true → s.chip.answers 0 = true → offset + len ≤ 0x3000000 →
     s.chip.gov.p7 = false → s.chip.ctl.bar2Enable = true →
     Does (.bar2Read offset len) s ({ s.chip with readData := (rangeFrom offset len).map (fun a => if s.chip.deadBank a then 0 else s.chip.tier1.read a) })) ∧
  -- BAR2_WRITE (bar2Off)
  (∀ (s : State) (offset : Nat) (data : List (Option Byte)), s.on = true → s.chip.answers 0 = true →
     offset + data.length ≤ 0x4000000 → s.chip.gov.p7 = false → s.chip.ctl.bar2Enable = false →
     Does (.bar2Write offset data) s (s.chip.reject 0 (offset + 0x80000000) (leNat ((data.take 4).map (fun b => b.getD 0))) 32))

/-- READ, WRITE, DESCRIBE and deferred writes complete with their answers. Where the manual leaves a convention open, a clause
rests on the model's choice of log entries 16, 23, 67. -/
def Obligations.DictionaryServiceCompletes : Prop :=
  -- DICT_READ (read)
  (∀ (s : State) (v idx sub : Nat), s.on = true → s.chip.silent = false → v < 16 →
     Does (.dictRead v idx sub) s (let r := s.chip.callWake.dictRead v idx sub; s.chip.callWake.noteReply v 1 idx sub r.1 r.2)) ∧
  -- DICT_DESCRIBE (describe)
  (∀ (s : State) (v idx sub : Nat), s.on = true → s.chip.silent = false → v < 16 →
     Does (.dictDescribe v idx sub) s (let r := s.chip.callWake.dictDescribe v idx sub; s.chip.callWake.noteReply v 4 idx sub r.1 r.2)) ∧
  -- DICT_WRITE (write)
  (∀ (s : State) (v : Nat) (via : Via) (idx sub : Nat) (data : List Byte), s.accepts v via idx sub data = true →
     Does (.dictWrite v via idx sub data) s (s.committed v via idx sub data)) ∧
  -- DICT_WRITE (refusedWrite)
  (∀ (s : State) (v : Nat) (via : Via) (idx sub : Nat) (data : List Byte), s.on = true → s.turn v via = true →
     goodVia v via = true → s.chip.silent = false → s.chip.callWake.writeCode v idx sub data ≠ 0 →
     Does (.dictWrite v via idx sub data) s (s.chip.callWake.respond { voice := v, via, idx, sub, data } (s.chip.callWake.writeCode v idx sub data))) ∧
  -- DEFERRED_WRITE_COMMIT (deferred)
  (∀ (s : State) (v : Nat) (q : DictReq), s.on = true → s.round.inOrder (.deferred v) = true → v < 16 → s.chip.silent = false →
     s.chip.committedNow v = false → (s.chip.keep v).deferred = [q] → q.via.transport ≤ 255 →
     (s.chip.setKeep v { s.chip.keep v with deferred := [] }).codeOf q = 0 →
     (s.chip.setKeep v { s.chip.keep v with deferred := [] }).armMustWait q = false →
     Does (.deferredWriteCommit v) s (((s.chip.setKeep v { s.chip.keep v with deferred := [] }).commitWrite q).respond q 0)) ∧
  -- DICT_WRITE (lateWrite)
  (∀ (s : State) (v : Nat) (via : Via) (idx sub : Nat) (data : List Byte), s.on = true → s.turn v via = false →
     Leaves (.dictWrite v via idx sub data) s (let r := s.round.push s.chip (.write (goodVia v via) { voice := v, via, idx, sub, data }); (r.base.replay r.ops).untilColdReset s.chip)) ∧
  -- the order of an update (R156, R158, R160, R873)
  (∀ (r : Round) (c : Chip) (o : RoundOp), r.ops.Pairwise (fun x y => x.place ≤ y.place) →
     (r.push c o).ops.Pairwise (fun x y => x.place ≤ y.place) ∧ (r.push c o).ops.Perm (o :: r.ops))

/-- Every write to an entry that has a command of its own completes with its commit. Where the manual leaves a convention open, a clause
rests on the model's choice of log entries 16, 22, 62, 67. -/
def Obligations.DictionaryRowsComplete : Prop :=
  -- SOURCE_WRITE (row_sourceWrite)
  (∀ (s : State) (v : Nat) (via : Via) (sub value : Nat), (sub == 1 || sub == 2) = true →
     s.accepts v via 0x2800 sub (leBytes sub value) = true →
     Does (.sourceWrite v via sub value) s (s.committed v via 0x2800 sub (leBytes sub value))) ∧
  -- CUE_ARM_WRITE (row_cueArmWrite)
  (∀ (s : State) (v : Nat) (via : Via) (slot : Nat), slot < 1024 → s.accepts v via (0x2C00 + slot) 1 [1] = true →
     Does (.cueArmWrite v via slot) s (s.committed v via (0x2C00 + slot) 1 [1])) ∧
  -- CUE_CANCEL_WRITE (row_cueCancelWrite)
  (∀ (s : State) (v : Nat) (via : Via) (slot : Nat), slot < 1024 → s.accepts v via (0x2C00 + slot) 1 [0] = true →
     Does (.cueCancelWrite v via slot) s (s.committed v via (0x2C00 + slot) 1 [0])) ∧
  -- STATE_REQUEST_READY (row_stateRequestReady)
  (∀ (s : State) (v : Nat) (via : Via), s.accepts v via 0x1001 2 [4] = true →
     Does (.stateRequestReady v via) s (s.committed v via 0x1001 2 [4])) ∧
  -- STATE_REQUEST_CONFIG (row_stateRequestConfig)
  (∀ (s : State) (v : Nat) (via : Via), s.accepts v via 0x1001 2 [3] = true →
     Does (.stateRequestConfig v via) s (s.committed v via 0x1001 2 [3])) ∧
  -- STATE_REQUEST_RUN (row_stateRequestRun)
  (∀ (s : State) (v : Nat) (via : Via) (target : Nat), s.accepts v via 0x1001 2 (leBytes 1 target) = true →
     Does (.stateRequestRun v via target) s (s.committed v via 0x1001 2 (leBytes 1 target))) ∧
  -- STATE_REQUEST_HOLD (row_stateRequestHold)
  (∀ (s : State) (v : Nat) (via : Via), s.accepts v via 0x1001 2 [6] = true →
     Does (.stateRequestHold v via) s (s.committed v via 0x1001 2 [6])) ∧
  -- STATE_REQUEST_HOLD_EXIT (row_stateRequestHoldExit)
  (∀ (s : State) (v : Nat) (via : Via), s.accepts v via 0x1001 2 [4] = true →
     Does (.stateRequestHoldExit v via) s (s.committed v via 0x1001 2 [4])) ∧
  -- BEHAVIOUR_LEVEL_REQUEST (row_behaviourLevelRequest)
  (∀ (s : State) (v : Nat) (via : Via) (level : Nat), s.accepts v via 0x1018 3 (leBytes 1 level) = true →
     Does (.behaviourLevelRequest v via level) s (s.committed v via 0x1018 3 (leBytes 1 level))) ∧
  -- STORE (row_store)
  (∀ (s : State) (v : Nat) (via : Via) (value : Nat), s.accepts v via 0x1100 1 (leBytes 4 value) = true →
     Does (.store v via value) s (s.committed v via 0x1100 1 (leBytes 4 value))) ∧
  -- RESTORE (row_restore)
  (∀ (s : State) (v : Nat) (via : Via) (value : Nat), s.accepts v via 0x1101 1 (leBytes 4 value) = true →
     Does (.restore v via value) s (s.committed v via 0x1101 1 (leBytes 4 value))) ∧
  -- BROADCAST_ENABLE (row_broadcastEnable)
  (∀ (s : State) (v : Nat) (via : Via) (ch value : Nat), ch < 32 →
     s.accepts v via (0x7000 + ch) 1 (leBytes 1 value) = true →
     Does (.broadcastEnable v via ch value) s (s.committed v via (0x7000 + ch) 1 (leBytes 1 value))) ∧
  -- BROADCAST_MAP_WRITE (row_broadcastMapWrite)
  (∀ (s : State) (v : Nat) (via : Via) (ch k value : Nat), (ch < 32 && k < 16) = true →
     s.accepts v via (0x7020 + ch) (k + 2) (leBytes 4 value) = true →
     Does (.broadcastMapWrite v via ch k value) s (s.committed v via (0x7020 + ch) (k + 2) (leBytes 4 value))) ∧
  -- RECOVER (row_recover)
  (∀ (s : State) (v : Nat) (via : Via) (port value : Nat), port < 2 →
     s.accepts v via (0x1800 + port) 12 (leBytes 1 value) = true →
     Does (.recover v via port value) s (s.committed v via (0x1800 + port) 12 (leBytes 1 value))) ∧
  -- VOICE_RESET_ENTRY (row_voiceResetEntry)
  (∀ (s : State) (v : Nat) (via : Via) (target value : Nat), target < 16 →
     s.accepts v via (0x8000 + 0x40 * target) 4 (leBytes 4 value) = true →
     Does (.voiceResetEntry v via target value) s (s.committed v via (0x8000 + 0x40 * target) 4 (leBytes 4 value))) ∧
  -- TUNNEL_WRITE (row_tunnelWrite)
  (∀ (s : State) (v : Nat) (via : Via) (target value : Nat), target < 16 →
     s.accepts v via (0x8000 + 0x40 * target) 5 (leBytes 1 value) = true →
     Does (.tunnelWrite v via target value) s (s.committed v via (0x8000 + 0x40 * target) 5 (leBytes 1 value))) ∧
  -- QUOTA_WRITE (row_quotaWrite)
  (∀ (s : State) (v : Nat) (via : Via) (target sub value : Nat), (target < 16 && 1 ≤ sub && sub ≤ 5) = true →
     s.accepts v via (0x8001 + 0x40 * target) sub (leBytes (if sub = 5 then 2 else 4) value) = true →
     Does (.quotaWrite v via target sub value) s (s.committed v via (0x8001 + 0x40 * target) sub (leBytes (if sub = 5 then 2 else 4) value))) ∧
  -- CAMERA_ENABLE (row_cameraEnable)
  (∀ (s : State) (v : Nat) (via : Via) (ch value : Nat), ch < 6 →
     s.accepts v via (0x2000 + ch) 1 (leBytes 1 value) = true →
     Does (.cameraEnable v via ch value) s (s.committed v via (0x2000 + ch) 1 (leBytes 1 value))) ∧
  -- RECT_ENABLE (row_rectEnable)
  (∀ (s : State) (v : Nat) (via : Via) (ch value : Nat), ch < 6 →
     s.accepts v via (0x2000 + ch) 11 (leBytes 1 value) = true →
     Does (.rectEnable v via ch value) s (s.committed v via (0x2000 + ch) 11 (leBytes 1 value))) ∧
  -- CAMERA_INJECT (row_cameraInject)
  (∀ (s : State) (v : Nat) (via : Via) (ch tensor : Nat), ch < 6 →
     s.accepts v via (0x2000 + ch) 36 (leBytes 4 tensor) = true →
     Does (.cameraInject v via ch tensor) s (s.committed v via (0x2000 + ch) 36 (leBytes 4 tensor))) ∧
  -- INERTIAL_INJECT (row_inertialInject)
  (∀ (s : State) (v : Nat) (via : Via) (ch tensor : Nat), ch < 16 →
     s.accepts v via (0x2100 + ch) 12 (leBytes 4 tensor) = true →
     Does (.inertialInject v via ch tensor) s (s.committed v via (0x2100 + ch) 12 (leBytes 4 tensor))) ∧
  -- COEF_LOAD (row_coefLoad)
  (∀ (s : State) (v : Nat) (via : Via) (ch tensor : Nat), ch < 16 →
     s.accepts v via (0x2100 + ch) 30 (leBytes 4 tensor) = true →
     Does (.coefLoad v via ch tensor) s (s.committed v via (0x2100 + ch) 30 (leBytes 4 tensor))) ∧
  -- SWAP (row_swap)
  (∀ (s : State) (v : Nat) (via : Via) (ch value : Nat), ch < 16 →
     s.accepts v via (0x2100 + ch) 31 (leBytes 1 value) = true →
     Does (.swap v via ch value) s (s.committed v via (0x2100 + ch) 31 (leBytes 1 value))) ∧
  -- SYNC_WRITE (row_syncWrite)
  (∀ (s : State) (v : Nat) (via : Via) (ch value : Nat), ch < 16 →
     s.accepts v via (0x2100 + ch) 33 (leBytes 1 value) = true →
     Does (.syncWrite v via ch value) s (s.committed v via (0x2100 + ch) 33 (leBytes 1 value))) ∧
  -- CHANNEL_RESTART (row_channelRestart)
  (∀ (s : State) (v : Nat) (via : Via) (ch sub value : Nat), (ch < 16 && (sub == 1 || sub == 8 || sub == 9)) = true →
     s.accepts v via (0x2100 + ch) sub (leBytes (if sub = 8 then 2 else 1) value) = true →
     Does (.channelRestart v via ch sub value) s (s.committed v via (0x2100 + ch) sub (leBytes (if sub = 8 then 2 else 1) value))) ∧
  -- PRESET (row_preset)
  (∀ (s : State) (v : Nat) (via : Via) (e value : Nat), e < 4 → s.accepts v via (0x2180 + e) 7 (leBytes 4 value) = true →
     Does (.preset v via e value) s (s.committed v via (0x2180 + e) 7 (leBytes 4 value))) ∧
  -- INSTANCE_ENABLE (row_instanceEnable)
  (∀ (s : State) (v : Nat) (via : Via), s.accepts v via 0x3000 2 [1] = true →
     Does (.instanceEnable v via) s (s.committed v via 0x3000 2 [1])) ∧
  -- INSTANCE_DISABLE (row_instanceDisable)
  (∀ (s : State) (v : Nat) (via : Via), s.accepts v via 0x3000 2 [0] = true →
     Does (.instanceDisable v via) s (s.committed v via 0x3000 2 [0])) ∧
  -- CLEAR (row_clearMap)
  (∀ (s : State) (v : Nat) (via : Via) (value : Nat), s.accepts v via 0x3020 4 (leBytes 1 value) = true →
     Does (.clearMap v via value) s (s.committed v via 0x3020 4 (leBytes 1 value))) ∧
  -- EXPORT (row_exportMap)
  (∀ (s : State) (v : Nat) (via : Via) (value : Nat), s.accepts v via 0x3020 5 (leBytes 1 value) = true →
     Does (.exportMap v via value) s (s.committed v via 0x3020 5 (leBytes 1 value))) ∧
  -- IMPORT (row_importMap)
  (∀ (s : State) (v : Nat) (via : Via) (tensor : Nat), s.accepts v via 0x3020 8 (leBytes 4 tensor) = true →
     Does (.importMap v via tensor) s (s.committed v via 0x3020 8 (leBytes 4 tensor))) ∧
  -- ESTIMATOR_INJECT (row_estimatorInject)
  (∀ (s : State) (v : Nat) (via : Via) (tensor : Nat), s.accepts v via 0x3000 10 (leBytes 4 tensor) = true →
     Does (.estimatorInject v via tensor) s (s.committed v via 0x3000 10 (leBytes 4 tensor))) ∧
  -- EVICT (row_evict)
  (∀ (s : State) (v : Nat) (via : Via) (tensor : Nat), s.accepts v via 0x3800 21 (leBytes 4 tensor) = true →
     Does (.evict v via tensor) s (s.committed v via 0x3800 21 (leBytes 4 tensor))) ∧
  -- CREATE (row_create)
  (∀ (s : State) (v : Nat) (via : Via) (descriptor : List Byte), s.accepts v via 0x4100 11 descriptor = true →
     Does (.create v via descriptor) s (s.committed v via 0x4100 11 descriptor)) ∧
  -- RELEASE (row_release)
  (∀ (s : State) (v : Nat) (via : Via) (tensor : Nat), s.accepts v via 0x4100 12 (leBytes 4 tensor) = true →
     Does (.release v via tensor) s (s.committed v via 0x4100 12 (leBytes 4 tensor))) ∧
  -- REFRESH (row_refresh)
  (∀ (s : State) (v : Nat) (via : Via) (tensor : Nat), s.accepts v via 0x4100 13 (leBytes 4 tensor) = true →
     Does (.refresh v via tensor) s (s.committed v via 0x4100 13 (leBytes 4 tensor))) ∧
  -- REQUIRED_WIDTH_WRITE (row_requiredWidthWrite)
  (∀ (s : State) (v : Nat) (via : Via) (p value : Nat), p < 6 → s.accepts v via (0x4800 + p) 3 (leBytes 1 value) = true →
     Does (.requiredWidthWrite v via p value) s (s.committed v via (0x4800 + p) 3 (leBytes 1 value))) ∧
  -- DETOUR_ENTRY (row_detourEntry)
  (∀ (s : State) (v : Nat) (via : Via) (value : Nat), s.accepts v via 0x4820 4 (leBytes 1 value) = true →
     Does (.detourEntry v via value) s (s.committed v via 0x4820 4 (leBytes 1 value))) ∧
  -- DETOUR_CLEAR (row_detourClear)
  (∀ (s : State) (v : Nat) (via : Via) (value : Nat), s.accepts v via 0x4820 5 (leBytes 1 value) = true →
     Does (.detourClear v via value) s (s.committed v via 0x4820 5 (leBytes 1 value))) ∧
  -- BREEZE_ENABLE (row_breezeEnable)
  (∀ (s : State) (v : Nat) (via : Via) (value : Nat), s.accepts v via 0x1820 1 (leBytes 1 value) = true →
     Does (.breezeEnable v via value) s (s.committed v via 0x1820 1 (leBytes 1 value))) ∧
  -- TX (row_tx)
  (∀ (s : State) (v : Nat) (via : Via) (data : List Byte), s.accepts v via 0x1820 16 data = true →
     Does (.tx v via data) s (s.committed v via 0x1820 16 data)) ∧
  -- CEILING_FLOOR_WRITE (row_ceilingFloorWrite)
  (∀ (s : State) (v : Nat) (via : Via) (sub value : Nat), (sub == 2 || sub == 3) = true →
     s.accepts v via 0x5000 sub (leBytes 1 value) = true →
     Does (.ceilingFloorWrite v via sub value) s (s.committed v via 0x5000 sub (leBytes 1 value))) ∧
  -- ATTN_ACK (row_attnAck)
  (∀ (s : State) (v : Nat) (via : Via) (value : Nat), s.accepts v via 0x5800 7 (leBytes 1 value) = true →
     Does (.attnAck v via value) s (s.committed v via 0x5800 7 (leBytes 1 value))) ∧
  -- OVERFLOW_CLEAR (row_overflowClear)
  (∀ (s : State) (v : Nat) (via : Via) (value : Nat), s.accepts v via 0x5820 5 (leBytes 1 value) = true →
     Does (.overflowClear v via value) s (s.committed v via 0x5820 5 (leBytes 1 value))) ∧
  -- PERSIST_CLEAR (row_persistClear)
  (∀ (s : State) (v : Nat) (via : Via) (value : Nat), s.accepts v via 0x5820 10 (leBytes 4 value) = true →
     Does (.persistClear v via value) s (s.committed v via 0x5820 10 (leBytes 4 value))) ∧
  -- NONCE (row_nonce)
  (∀ (s : State) (v : Nat) (via : Via) (data : List Byte), s.accepts v via 0x1011 1 data = true →
     Does (.nonce v via data) s (s.committed v via 0x1011 1 data)) ∧
  -- LOCK (row_lock)
  (∀ (s : State) (v : Nat) (via : Via) (value : Nat), s.accepts v via 0x1020 2 (leBytes 4 value) = true →
     Does (.lock v via value) s (s.committed v via 0x1020 2 (leBytes 4 value))) ∧
  -- FW_INSTALL (row_fwInstall)
  (∀ (s : State) (v : Nat) (via : Via) (tensor : Nat), s.on = true → s.turn v via = true → goodVia v via = true →
     s.chip.silent = false → s.chip.callWake.committedNow v = false → (s.chip.callWake.keep v).deferred = [] →
     s.chip.callWake.armMustWait { voice := v, via, idx := 0x6000, sub := 12, data := leBytes 4 tensor } = false →
     Does (.fwInstall v via tensor) s (let code := s.chip.callWake.writeCode v 0x6000 12 (leBytes 4 tensor); if code = 0 then s.committed v via 0x6000 12 (leBytes 4 tensor) else s.chip.callWake.respond { voice := v, via, idx := 0x6000, sub := 12, data := leBytes 4 tensor } code))

/-- Every CAN protocol request completes with the server's effect. Where the manual leaves a convention open, a clause
rests on the model's choice of log entries 4, 58, 68. -/
def Obligations.CanProtocolCompletes : Prop :=
  -- CAN_READ (canRead)
  (∀ (s : State) (p : Nat) (f : CanFrame), s.on = true → p < 2 → s.chip.onBus p = true → f.rtr = false →
     s.chip.isRequest p f = true → (s.chip.heard p).isRequest p f = true → (f.data.getD 0 0).toNat / 16 = 1 →
     (s.chip.heard p).silent = false → ((s.chip.heard p).port p).lastReq.any (sameFrame f) = false →
     layoutLength 1 f.data ≤ f.data.length → f.data.length ≠ 0 →
     Does (.canRead p f) s ((s.chip.heard p).canNewRequest p 1 (frameTag f) f)) ∧
  -- CAN_WRITE (canWrite)
  (∀ (s : State) (p : Nat) (f : CanFrame), s.on = true → s.turn (canVoice p) ⟨3, 0⟩ = true → p < 2 → s.chip.onBus p = true → f.rtr = false →
     s.chip.isRequest p f = true → (s.chip.heard p).isRequest p f = true → (f.data.getD 0 0).toNat / 16 = 2 →
     (s.chip.heard p).silent = false → ((s.chip.heard p).port p).lastReq.any (sameFrame f) = false →
     layoutLength 2 f.data ≤ f.data.length → f.data.length ≠ 0 →
     Does (.canWrite p f) s ((s.chip.heard p).canNewRequest p 2 (frameTag f) f)) ∧
  -- CAN_WRITE_INIT (canWriteInit)
  (∀ (s : State) (p : Nat) (f : CanFrame), s.on = true → s.turn (canVoice p) ⟨3, 0⟩ = true → p < 2 → s.chip.onBus p = true → f.rtr = false →
     s.chip.isRequest p f = true → (s.chip.heard p).isRequest p f = true → (f.data.getD 0 0).toNat / 16 = 3 →
     (s.chip.heard p).silent = false → ((s.chip.heard p).port p).lastReq.any (sameFrame f) = false →
     layoutLength 3 f.data ≤ f.data.length → f.data.length ≠ 0 →
     Does (.canWriteInit p f) s ((s.chip.heard p).canNewRequest p 3 (frameTag f) f)) ∧
  -- CAN_DESCRIBE (canDescribe)
  (∀ (s : State) (p : Nat) (f : CanFrame), s.on = true → p < 2 → s.chip.onBus p = true → f.rtr = false →
     s.chip.isRequest p f = true → (s.chip.heard p).isRequest p f = true → (f.data.getD 0 0).toNat / 16 = 4 →
     (s.chip.heard p).silent = false → ((s.chip.heard p).port p).lastReq.any (sameFrame f) = false →
     layoutLength 4 f.data ≤ f.data.length → f.data.length ≠ 0 →
     Does (.canDescribe p f) s ((s.chip.heard p).canNewRequest p 4 (frameTag f) f)) ∧
  -- CAN_SEGMENT (canSegment)
  (∀ (s : State) (p : Nat) (f : CanFrame), s.on = true → s.turn (canVoice p) ⟨3, 0⟩ = true → p < 2 → s.chip.onBus p = true → f.rtr = false →
     s.chip.isRequest p f = true → (s.chip.heard p).isRequest p f = true → (f.data.getD 0 0).toNat / 16 = 5 →
     (s.chip.heard p).silent = false → ((s.chip.heard p).port p).lastReq.any (sameFrame f) = false →
     layoutLength 5 f.data ≤ f.data.length → f.data.length ≠ 0 →
     Does (.canSegment p f) s ((s.chip.heard p).canTakeSegment p f)) ∧
  -- CAN_SEGMENT_REQ (canSegmentReq)
  (∀ (s : State) (p : Nat) (f : CanFrame), s.on = true → p < 2 → s.chip.onBus p = true → f.rtr = false →
     s.chip.isRequest p f = true → (s.chip.heard p).isRequest p f = true → (f.data.getD 0 0).toNat / 16 = 6 →
     (s.chip.heard p).silent = false → ((s.chip.heard p).port p).lastReq.any (sameFrame f) = false →
     layoutLength 6 f.data ≤ f.data.length → f.data.length ≠ 0 →
     Does (.canSegmentReq p f) s ((s.chip.heard p).canGiveSegment p f)) ∧
  -- CAN_CLIENT_ABORT (canClientAbort)
  (∀ (s : State) (p : Nat) (f : CanFrame) (t : Transfer), s.on = true → s.turn (canVoice p) ⟨3, 0⟩ = true → p < 2 → s.chip.onBus p = true → f.rtr = false →
     s.chip.isRequest p f = true → (s.chip.heard p).isRequest p f = true → (f.data.getD 0 0).toNat / 16 = 14 →
     (s.chip.heard p).silent = false → ((s.chip.heard p).port p).lastReq.any (sameFrame f) = false →
     layoutLength 14 f.data ≤ f.data.length → f.data.length ≠ 0 →
     ((s.chip.heard p).port p).transfer = some t → t.tag = frameTag f →
     Does (.canClientAbort p f) s ((s.chip.heard p).setPort p { (s.chip.heard p).port p with transfer := none })) ∧
  -- TRANSFER_TIMEOUT (transferTimeout)
  (∀ (s : State) (p : Nat) (t : Transfer), s.on = true → p < 2 → (s.chip.port p).transfer = some t →
     t.at_ + s.chip.dget (canKey p 19) * 250000 ≤ s.chip.now →
     Does (.transferTimeout p) s (s.chip.canRefuse p t.tag t.idx t.sub 0x0A060002)) ∧
  -- CAN_FRAME_RECEIVED (frameServed)
  (∀ (s : State) (p : Nat) (f : CanFrame), s.on = true → s.turn (canVoice p) ⟨3, 0⟩ = true → p < 2 → s.chip.onBus p = true →
     f.rtr = false → s.chip.isRequest p f = true → (s.chip.heard p).isRequest p f = true →
     Does (.canFrameReceived p f) s ((s.chip.heard p).canServe p f)) ∧
  -- CAN_READ (replayed, R222)
  (∀ (s : State) (p : Nat) (f rsp : CanFrame), s.on = true → p < 2 → s.chip.onBus p = true → f.rtr = false →
     s.chip.isRequest p f = true → (s.chip.heard p).isRequest p f = true → (f.data.getD 0 0).toNat / 16 = 1 →
     (s.chip.heard p).silent = false → ((s.chip.heard p).port p).lastReq.any (sameFrame f) = true →
     ((s.chip.heard p).port p).lastRsp = some rsp →
     Does (.canRead p f) s (((s.chip.heard p).canRespond p rsp).dinc (canKey p 27)))

/-- Mailboxes, attempts, received frames, heartbeat and bus-off complete with their effects. Where the manual leaves a convention open, a clause
rests on the model's choice of log entries 4, 7, 58, 68. -/
def Obligations.CanBusCommandsComplete : Prop :=
  -- MB_REQUEST (mbRequest)
  (∀ (s : State) (p m : Nat), s.on = true → p < 2 → m < 32 → s.chip.mbRefusal p m false = 0 →
     Does (.mbRequest p m) s (s.chip.setPort p ((s.chip.port p).setMb m { (s.chip.port p).mb m with st := .pending, cancelLate := false, cancelOut := false }))) ∧
  -- MB_CANCEL (mbCancelPending)
  (∀ (s : State) (p m : Nat), s.on = true → p < 2 → m < 32 → s.chip.mbRefusal p m true = 0 →
     ((s.chip.port p).mb m).st = .pending →
     Does (.mbCancel p m) s (s.chip.setPort p ((s.chip.port p).setMb m { (s.chip.port p).mb m with st := .cancelled }))) ∧
  -- MB_CANCEL (mbCancelActive)
  (∀ (s : State) (p m : Nat), s.on = true → p < 2 → m < 32 → s.chip.mbRefusal p m true = 0 →
     ((s.chip.port p).mb m).st = .active →
     Does (.mbCancel p m) s (s.chip.setPort p ((s.chip.port p).setMb m { (s.chip.port p).mb m with cancelOut := true }))) ∧
  -- ATTEMPT_START (attemptStart)
  (∀ (s : State) (p m : Nat), s.on = true → p < 2 → s.chip.onBus p = true → (s.chip.port p).attempt = none →
     s.chip.suspended p = false → (s.chip.port p).winner = some m →
     Does (.attemptStart p) s ((s.chip.setPort p { (s.chip.port p).setMb m { (s.chip.port p).mb m with st := .active, tried := true } with attempt := some m, suspendAt := none, txFrame := some (s.chip.frameOf p ((s.chip.port p).mb m)) }).busStateUpdate p)) ∧
  -- CAN_ATTEMPT_END (attemptSent)
  (∀ (s : State) (p m dominant : Nat) (tdcv : Option Nat), s.on = true → p < 2 → (s.chip.port p).attempt = some m →
     Does (.canAttemptEnd p ⟨.success, tdcv, dominant⟩) s (((s.chip.measured p ((s.chip.port p).mb m) tdcv).sent p m).transmitted p)) ∧
  -- CAN_ATTEMPT_END (attemptLost)
  (∀ (s : State) (p m dominant : Nat), s.on = true → p < 2 → (s.chip.port p).attempt = some m →
     ((s.chip.port p).mb m).cancelOut = false → s.chip.abandoned p m = false → (s.chip.port p).channelOf m = none →
     Does (.canAttemptEnd p ⟨.lost, none, dominant⟩) s (s.chip.setPort p (CanPort.setMb { s.chip.port p with attempt := none } m { (s.chip.port p).mb m with st := .pending }))) ∧
  -- CAN_ATTEMPT_END (attemptStuff)
  (∀ (s : State) (p m : Nat), s.on = true → p < 2 → (s.chip.port p).attempt = some m →
     Does (.canAttemptEnd p ⟨.arbitrationStuff, none, 0⟩) s ((((s.chip.attemptFails p m).dinc (canKey p 22)).tecRises p 0).transmitted p)) ∧
  -- CAN_FRAME_RECEIVED (frameToFifo)
  (∀ (s : State) (p : Nat) (f : CanFrame), s.on = true → p < 2 → s.chip.onBus p = true → f.rtr = false →
     s.chip.isRequest p f = false → (s.chip.heard p).isRequest p f = false →
     ((s.chip.heard p).isMarker p f = false ∨ (s.chip.heard p).dbool (canKey p 17) = true) →
     Does (.canFrameReceived p f) s ((s.chip.heard p).toFifo p f)) ∧
  -- CAN_FRAME_RECEIVED (frameMarker)
  (∀ (s : State) (p : Nat) (f : CanFrame), s.on = true → p < 2 → s.chip.onBus p = true → f.rtr = false →
     s.chip.isRequest p f = false → (s.chip.heard p).isRequest p f = false → (s.chip.heard p).isMarker p f = true →
     (s.chip.heard p).dbool (canKey p 17) = false →
     Does (.canFrameReceived p f) s ((s.chip.heard p).captureMarker p f)) ∧
  -- CAN_FRAME_RECEIVED (frameRemote)
  (∀ (s : State) (p : Nat) (f : CanFrame), s.on = true → p < 2 → s.chip.onBus p = true → s.chip.isRequest p f = false →
     f.rtr = true → Does (.canFrameReceived p f) s (s.chip.heard p)) ∧
  -- RX_POP (rxPop)
  (∀ (s : State) (p : Nat), s.on = true → p < 2 →
     Does (.rxPop p 1) s (s.chip.setPort p { s.chip.port p with fifo := (s.chip.port p).fifo.drop 1 })) ∧
  -- RX_POP (rxPopBad)
  (∀ (s : State) (p value : Nat), s.on = true → p < 2 → 1 < value →
     Does (.rxPop p value) s (s.chip.reject 0 (0x610000 + p * 0x1000 + 0xE60) value 8)) ∧
  -- HEARTBEAT (heartbeat)
  (∀ (s : State) (p : Nat), s.on = true → p < 2 → s.chip.canServes p = true → s.chip.dget (canKey p 16) ≠ 0 →
     s.chip.beatDue p = true →
     Does (.heartbeat p) s ((s.chip.setPort p { s.chip.port p with beats := ((s.chip.port p).beats + 1) % 0x10000, beatAt := some s.chip.now }).queueService p 4 0x760 ([BitVec.ofNat 8 s.chip.engine.code, BitVec.ofNat 8 s.chip.epoch.st.code] ++ leBytes 2 (s.chip.port p).beats))) ∧
  -- RECEIVE_ERROR (receiveError)
  (∀ (s : State) (p amount : Nat), s.on = true → p < 2 → s.chip.onBus p = true →
     Does (.receiveError p amount) s (((s.chip.dset (canKey p 15) (Nat.min 255 (s.chip.dget (canKey p 15) + amount))).dinc (canKey p 22)).busStateUpdate p)) ∧
  -- BUS_OFF (busOff)
  (∀ (s : State) (p : Nat), s.on = true → p < 2 → s.chip.onBus p = true → s.chip.dget (canKey p 14) = 256 →
     Does (.busOff p) s (s.chip.goBusOff p)) ∧
  -- BUS_OFF_RECOVERY_END (busOffEnd)
  (∀ (s : State) (p count : Nat), s.on = true → p < 2 → s.chip.dget (canKey p 13) = 3 → (s.chip.port p).recovering = true →
     128 ≤ (s.chip.port p).recovery + count → 128 * Nat.max 1 (s.chip.elevenBits p) ≤ s.chip.now - (s.chip.port p).recoverAt →
     Does (.busOffRecoveryEnd ⟨p, count⟩) s ((s.chip.recessive p count).leaveBusOff p)) ∧
  -- BUS_OFF_RECOVERY_END (busOffGoesOn)
  (∀ (s : State) (p count : Nat), s.on = true → p < 2 → s.chip.dget (canKey p 13) = 3 → (s.chip.port p).recovering = true →
     ((s.chip.recessive p count).port p).recovery < 128 →
     Does (.busOffRecoveryEnd ⟨p, count⟩) s (s.chip.recessive p count))

/-- Doorbells, ring enables, DICT_GO, interrupts and completion writes complete with their effects. Where the manual leaves a convention open, a clause
rests on the model's choice of log entries 3, 19, 21. -/
def Obligations.RingsAndCompletionsComplete : Prop :=
  -- CMD_DOORBELL (cmdDoorbell)
  (∀ (s : State) (v tail : Nat) (written : List (Nat × List Byte)), s.on = true →
     (s.chip.hostWrites written).ownsBlock v = true → tail ≤ 0xFFFF →
     (tail + 0x10000 - (s.chip.voice v).cmdHead % 0x10000) % 0x10000 ≤ 2 ^ (s.chip.voice v).cmdLog2 →
     Does (.cmdDoorbell v tail written) s ((s.chip.hostWrites written).callWake.setVoice v { s.chip.voice v with cmdTail := tail })) ∧
  -- CMD_DOORBELL (cmdDoorbellFar)
  (∀ (s : State) (v tail : Nat) (written : List (Nat × List Byte)), s.on = true →
     (s.chip.hostWrites written).ownsBlock v = true → tail ≤ 0xFFFF →
     2 ^ (s.chip.voice v).cmdLog2 < (tail + 0x10000 - (s.chip.voice v).cmdHead % 0x10000) % 0x10000 →
     Does (.cmdDoorbell v tail written) s ((s.chip.hostWrites written).callWake.rejectOwn v 0x40 tail 16)) ∧
  -- CPL_DOORBELL (cplDoorbell)
  (∀ (s : State) (v head : Nat), s.on = true → s.chip.ownsBlock v = true → head ≤ 0xFFFF →
     ((s.chip.voice v).cplTail + 0x10000 - head) % 0x10000 ≤ 2 ^ (s.chip.voice v).cplLog2 →
     Does (.cplDoorbell v head) s (s.chip.setVoice v { s.chip.voice v with cplHead := head })) ∧
  -- CPL_DOORBELL (cplDoorbellFar)
  (∀ (s : State) (v head : Nat), s.on = true → s.chip.ownsBlock v = true → head ≤ 0xFFFF →
     2 ^ (s.chip.voice v).cplLog2 < ((s.chip.voice v).cplTail + 0x10000 - head) % 0x10000 →
     Does (.cplDoorbell v head) s (s.chip.rejectOwn v 0x44 head 16)) ∧
  -- CMD_DOORBELL, CPL_DOORBELL (doorbellReserved, R127)
  (∀ (s : State) (v w : Nat), s.on = true → s.chip.ownsBlock v = true → 0xFFFF < w →
     Does (.cmdDoorbell v w []) s ((s.chip.callWake).rejectOwn v 0x40 w (8 + if (s.chip.voice v).tailTooFar (w % 0x10000) then 16 else 0)) ∧
     Does (.cplDoorbell v w) s (s.chip.rejectOwn v 0x44 w (8 + if (s.chip.voice v).headTooFar (w % 0x10000) then 16 else 0))) ∧
  -- RING_ENABLE (ringEnable)
  (∀ (s : State) (v : Nat), s.on = true → s.chip.ownsBlock v = true → (s.chip.voice v).mayEnable = true →
     (s.chip.keep v).notice = false →
     Does (.ringEnable v) s (s.chip.setVoice v { s.chip.voice v with state := .active, ringEnable := true, cmdHead := 0, cmdTail := 0, cplTail := 0, cplHead := 0, phase := true })) ∧
  -- RING_ENABLE (ringEnableNotice)
  (∀ (s : State) (v : Nat), s.on = true → s.chip.ownsBlock v = true → (s.chip.voice v).mayEnable = true →
     (s.chip.keep v).notice = true →
     Does (.ringEnable v) s (let c1 := s.chip.setVoice v { s.chip.voice v with state := .active, ringEnable := true, cmdHead := 0, cmdTail := 0, cplTail := 0, cplHead := 0, phase := true }; (c1.setKeep v { c1.keep v with notice := false }).notice v 1)) ∧
  -- RING_DISABLE (ringDisable)
  (∀ (s : State) (v : Nat), s.on = true → s.chip.ownsBlock v = true → (s.chip.voice v).state = .active →
     Does (.ringDisable v) s (s.chip.setVoice v { s.chip.voice v with ringEnable := false, state := .draining })) ∧
  -- VOICE_DRAIN_END (drainEnd)
  (∀ (s : State) (v : Nat), s.on = true → v < 16 → (s.chip.voice v).state = .draining →
     (s.chip.voice v).resetDrain = false → s.chip.ringEmpty v = true →
     Does (.voiceDrainEnd v) s (s.chip.setVoice v { s.chip.voice v with state := .idle })) ∧
  -- VOICE_DRAIN_END (drainEndBusy)
  (∀ (s : State) (v : Nat), s.on = true → v < 16 → (s.chip.voice v).resetDrain = false → s.chip.ringEmpty v = false →
     Does (.voiceDrainEnd v) s s.chip) ∧
  -- VOICE_DRAIN_END (drainEndReset)
  (∀ (s : State) (v : Nat), s.on = true → v < 16 → (s.chip.voice v).state = .draining →
     (s.chip.voice v).resetDrain = true → s.chip.engine ≠ .hold → (v ≠ 15 ∨ s.chip.usb.ringOn = false) →
     (s.chip.tunnel v).opened = false →
     Does (.voiceDrainEnd v) s (let c1 : Chip := { s.chip with ledger := s.chip.ledger.filter (fun e => !(e.voice == v && e.source != LedgerSource.reserve)) }; let c2 := c1.setVoice v { s.chip.voice v with state := .idle, resetDrain := false }; (c2.setKeep v { c2.keep v with notice := true }).dinc (ent (vIdx v 3) 7))) ∧
  -- DICT_GO_READ (goRead)
  (∀ (s : State) (v idx sub : Nat), s.on = true → s.chip.ownsBlock v = true → (s.chip.voice v).dictBusy = false →
     s.chip.silent = false → idx = (s.chip.voice v).dictAddr / 0x10000 → sub = (s.chip.voice v).dictAddr / 0x100 % 0x100 →
     (s.chip.dictRead v idx sub).1 = 0 →
     Does (.dictGoRead v) s (let r := s.chip.dictRead v idx sub; let c1 := s.chip.callWake.noteReply v 1 idx sub 0 r.2; c1.setVoice v { c1.voice v with dictAbort := 0, dictLength := r.2.length, dictBuf := (c1.voice v).dictBuf.writeBytes 0 r.2 })) ∧
  -- DICT_GO_READ (goBadRead)
  (∀ (s : State) (v idx sub : Nat), s.on = true → s.chip.ownsBlock v = true → (s.chip.voice v).dictBusy = false →
     s.chip.silent = false → idx = (s.chip.voice v).dictAddr / 0x10000 → sub = (s.chip.voice v).dictAddr / 0x100 % 0x100 →
     (s.chip.dictRead v idx sub).1 ≠ 0 →
     Does (.dictGoRead v) s (let r := s.chip.dictRead v idx sub; let c1 := s.chip.callWake.noteReply v 1 idx sub r.1 r.2; c1.setVoice v { c1.voice v with dictAbort := r.1 })) ∧
  -- DICT_GO_DESCRIBE (goDescribe)
  (∀ (s : State) (v idx sub : Nat), s.on = true → s.chip.ownsBlock v = true → (s.chip.voice v).dictBusy = false →
     s.chip.silent = false → idx = (s.chip.voice v).dictAddr / 0x10000 → sub = (s.chip.voice v).dictAddr / 0x100 % 0x100 →
     (s.chip.dictDescribe v idx sub).1 = 0 →
     Does (.dictGoDescribe v) s (let r := s.chip.dictDescribe v idx sub; let c1 := s.chip.callWake.noteReply v 4 idx sub 0 r.2; c1.setVoice v { c1.voice v with dictAbort := 0, dictLength := r.2.length, dictBuf := (c1.voice v).dictBuf.writeBytes 0 r.2 })) ∧
  -- DICT_GO_DESCRIBE (goBadDescribe)
  (∀ (s : State) (v idx sub : Nat), s.on = true → s.chip.ownsBlock v = true → (s.chip.voice v).dictBusy = false →
     s.chip.silent = false → idx = (s.chip.voice v).dictAddr / 0x10000 → sub = (s.chip.voice v).dictAddr / 0x100 % 0x100 →
     (s.chip.dictDescribe v idx sub).1 ≠ 0 →
     Does (.dictGoDescribe v) s (let r := s.chip.dictDescribe v idx sub; let c1 := s.chip.callWake.noteReply v 4 idx sub r.1 r.2; c1.setVoice v { c1.voice v with dictAbort := r.1 })) ∧
  -- DICT_GO_WRITE (goWrite)
  (∀ (s : State) (v : Nat), s.on = true → s.turn v ⟨1, 0⟩ = true → s.chip.ownsBlock v = true →
     (s.chip.voice v).dictBusy = false → s.chip.silent = false →
     Does (.dictGoWrite v) s (let x := s.chip.voice v; (s.chip.setVoice v { x with dictBusy := true }).submit { voice := v, via := ⟨1, 0⟩, idx := x.dictAddr / 0x10000, sub := x.dictAddr / 0x100 % 0x100, data := x.dictBuf.readBytes 0 x.dictLen })) ∧
  -- DICT_GO_READ (goBusyRead)
  (∀ (s : State) (v : Nat), s.on = true → s.chip.ownsBlock v = true → (s.chip.voice v).dictBusy = true →
     Does (.dictGoRead v) s (s.chip.rejectOwn v 0x208 1 16)) ∧
  -- DICT_GO_WRITE (goBusyWrite)
  (∀ (s : State) (v : Nat), s.on = true → s.turn v ⟨1, 0⟩ = true → s.chip.ownsBlock v = true → (s.chip.voice v).dictBusy = true →
     Does (.dictGoWrite v) s (s.chip.rejectOwn v 0x208 2 16)) ∧
  -- DICT_GO_DESCRIBE (goBusyDescribe)
  (∀ (s : State) (v : Nat), s.on = true → s.chip.ownsBlock v = true → (s.chip.voice v).dictBusy = true →
     Does (.dictGoDescribe v) s (s.chip.rejectOwn v 0x208 4 16)) ∧
  -- INT_PENDING_CLEAR (intClear)
  (∀ (s : State) (v value : Nat), s.on = true → s.chip.ownsBlock v = true → value ≤ 0xFF →
     Does (.intPendingClear v value) s (s.chip.setVoice v { s.chip.voice v with intPending := (s.chip.voice v).intPending - ((s.chip.voice v).intPending &&& value) })) ∧
  -- COMPLETION_WRITE (cplWrite)
  (∀ (s : State) (v : Nat) (k : Completion) (rest : List Completion), s.on = true → v < 16 →
     (s.chip.voice v).cpl = k :: rest → (s.chip.voice v).state ≠ .idle → s.chip.engineRing v = false →
     (s.chip.voice v).cplFull = false → (s.chip.voice v).waiting = [] →
     Does (.completionWrite v) s ((s.chip.setVoice v { s.chip.voice v with cpl := rest }).writeSlot v k)) ∧
  -- COMPLETION_WRITE (cplWaits)
  (∀ (s : State) (v : Nat) (k : Completion) (rest : List Completion), s.on = true → v < 16 →
     (s.chip.voice v).cpl = k :: rest → (s.chip.voice v).state ≠ .idle → s.chip.engineRing v = false → k.kind = .command →
     ((s.chip.voice v).cplFull = true ∨ (s.chip.voice v).waiting ≠ []) →
     Does (.completionWrite v) s ((s.chip.setVoice v { s.chip.voice v with cpl := rest }).setVoice v { s.chip.voice v with cpl := rest, waiting := (s.chip.voice v).waiting ++ [k] })) ∧
  -- COMPLETION_WRITE (cplEngine)
  (∀ (s : State) (v : Nat) (k : Completion) (rest : List Completion), s.on = true → v < 16 →
     (s.chip.voice v).cpl = k :: rest → (s.chip.voice v).state ≠ .idle → s.chip.engineRing v = true →
     Does (.completionWrite v) s ((s.chip.setVoice v { s.chip.voice v with cpl := rest }).sendCompletion v k)) ∧
  -- COMPLETION_WRITE (cplDropped)
  (∀ (s : State) (v : Nat) (k : Completion) (rest : List Completion), s.on = true → v < 16 →
     (s.chip.voice v).cpl = k :: rest → (s.chip.voice v).state ≠ .idle → s.chip.engineRing v = false → k.kind ≠ .command →
     (s.chip.voice v).cplFull = true →
     Does (.completionWrite v) s (((s.chip.setVoice v { s.chip.voice v with cpl := rest }).dinc (ent (vIdx v 3) 5)).raise v 7)) ∧
  -- WAITING_COMPLETION_WRITE (waitWrite)
  (∀ (s : State) (v : Nat) (k : Completion) (rest : List Completion), s.on = true → v < 16 →
     (s.chip.voice v).waiting = k :: rest → (s.chip.voice v).cplFull = false →
     Does (.waitingCompletionWrite v) s ((s.chip.setVoice v { s.chip.voice v with waiting := rest }).writeSlot v k)) ∧
  -- WAITING_COMPLETION_WRITE (waitFull)
  (∀ (s : State) (v : Nat), s.on = true → v < 16 → (s.chip.voice v).cplFull = true →
     Does (.waitingCompletionWrite v) s s.chip) ∧
  -- HOLDOFF_EXPIRY (holdoff)
  (∀ (s : State) (v vector : Nat), s.on = true → v < 16 → vector ∈ (s.chip.voice v).waitMsg →
     bit (s.chip.voice v).intCtrl 16 = true → Does (.holdoffExpiry v vector) s (s.chip.sendVector v vector))

/-- Admission and the voice commands complete with their effects. Where the manual leaves a convention open, a clause
rests on the model's choice of log entries 20, 21, 35, 54, 55. -/
def Obligations.VoiceCommandsComplete : Prop :=
  -- COMMAND_ADMISSION (admission)
  (∀ (s : State) (v : Nat) (b : List Byte), s.on = true → s.chip.admits = true →
     ((List.range 16).map (fun k => (s.chip.countWaits.arbiter + k) % 16)).find? (fun v => (s.chip.countWaits.readyHead v).isSome) = some v →
     s.chip.countWaits.readyHead v = some b → Does .commandAdmission s (s.chip.countWaits.admitCommand v b)) ∧
  -- FENCE (fence)
  (∀ (s : State) (v : Nat) (a : Admitted), s.on = true → v < 16 → s.chip.admits = true →
     (s.chip.voice v).admitted = some a → a.opcode = 9 →
     Does (.fence v) s ((s.chip.takeUp v).setVoice v { (s.chip.takeUp v).voice v with fence := some { kind := .command, tag := a.tag, opcode := 9, cookie := a.cookie, irq := a.irq } })) ∧
  -- FENCE_COMPLETE (fenceEnd)
  (∀ (s : State) (v : Nat) (k : Completion), s.on = true → v < 16 → (s.chip.voice v).fence = some k →
     s.chip.ledger.all (fun e => !(e.voice == v && e.source == LedgerSource.ring)) = true →
     (s.chip.voice v).cpl.all (fun k => k.kind != .command) = true → (s.chip.voice v).waiting = [] → s.chip.commandWaits v = false →
     Does (.fenceComplete v) s ((s.chip.setVoice v { s.chip.voice v with fence := none }).post v k)) ∧
  -- FENCE_COMPLETE (fenceHeld)
  (∀ (s : State) (v : Nat), s.on = true → v < 16 →
     (s.chip.ledger.any (fun e => e.voice == v && e.source == LedgerSource.ring) = true ∨ (s.chip.voice v).waiting ≠ [] ∨
       s.chip.commandWaits v = true) →
     Does (.fenceComplete v) s s.chip) ∧
  -- LULL (lull)
  (∀ (s : State) (v : Nat) (a : Admitted), s.on = true → v < 16 → s.chip.admits = true →
     (s.chip.voice v).admitted = some a → a.opcode = 10 → s.chip.straps.mode ≠ .mesh →
     Does (.lull v) s (s.chip.finish v a 0x0A040001 0 0)) ∧
  -- LULL (lullMesh)
  (∀ (s : State) (v : Nat) (a : Admitted) (c1 c3 : Chip) (fate : Fate), s.on = true → v < 16 → s.chip.admits = true →
     (s.chip.voice v).admitted = some a → a.opcode = 10 → s.chip.straps.mode = .mesh → s.chip.dget (ent 0x4830 1) ≠ 0xFFFF →
     c1 = (s.chip.takeUp v).dinc (ent 0x4830 4) →
     Chip.route { c1 with mesh := { c1.mesh with waits := c1.mesh.waits ++ [⟨v, { kind := .command, tag := a.tag, opcode := 10, cookie := a.cookie, irq := a.irq, holds := true }, a.arg 8 4, s.chip.dget (ent 0x4830 1)⟩] } } { dest := s.chip.dget (ent 0x4830 1), src := s.chip.address.getD 0, slice := if v = 0 ∧ s.chip.onTunnel 0 then 0xFF else s.chip.slice, class_ := 0, ptype := 2, hops := 0, exit := 0xFF, entry := 0xFF, tag := 0, arg := a.arg 8 4, payload := [], input := 6 } = (c3, fate) →
     Does (.lull v) s (match fate with | .mine => c3.arrival (c3.address.getD 0) (a.arg 8 4) | .failed => c3.packetLost 2 (s.chip.dget (ent 0x4830 1)) 0 | .gone => c3)) ∧
  -- MOVE_TENSOR (move)
  (∀ (s : State) (v : Nat) (a : Admitted) (x : Tensor) (kind : MoveKind), s.on = true → v < 16 → s.chip.admits = true →
     (s.chip.voice v).admitted = some a → a.opcode = 4 → s.chip.tensor? (a.arg 8 4) = some x →
     x.moveKind (a.arg 0x0C 1) (a.arg 0x0D 1) (a.arg 0x10 8) = some kind →
     s.chip.moveCheck v (a.arg 8 4) (a.arg 0x0C 1) (a.arg 0x0D 1) (a.arg 0x10 8) a.born = 0 →
     Does (.moveTensor v) s (let c1 := (s.chip.takeUp v).ledgerName v .ring a.tag [a.arg 8 4]; { c1 with moves := c1.moves ++ [{ tensor := a.arg 8 4, kind, voice := v, cpl := some { kind := .command, tag := a.tag, opcode := 4, cookie := a.cookie, irq := a.irq, holds := true } }] })) ∧
  -- MOVE_TENSOR (moveBad)
  (∀ (s : State) (v : Nat) (a : Admitted), s.on = true → v < 16 → s.chip.admits = true →
     (s.chip.voice v).admitted = some a → a.opcode = 4 →
     s.chip.moveCheck v (a.arg 8 4) (a.arg 0x0C 1) (a.arg 0x0D 1) (a.arg 0x10 8) a.born ≠ 0 →
     Does (.moveTensor v) s (s.chip.finish v a (s.chip.moveCheck v (a.arg 8 4) (a.arg 0x0C 1) (a.arg 0x0D 1) (a.arg 0x10 8) a.born) 0 0)) ∧
  -- PIN_TENSOR (pin)
  (∀ (s : State) (v : Nat) (a : Admitted) (x : Tensor) (tier : Nat), s.on = true → v < 16 → s.chip.admits = true →
     (s.chip.voice v).admitted = some a → a.opcode = 5 → s.chip.tensor? (a.arg 8 4) = some x →
     s.chip.writeCheck v (a.arg 8 4) = 0 → tier = a.arg 0x0C 1 → tier ≤ 2 → a.arg 0x0D 1 = 1 →
     (x.home = tier ∨ x.work = tier) → (x.pinTier = 0xFF ∨ x.pinTier = tier) →
     Does (.pinTensor v) s ((s.chip.setTensor (a.arg 8 4) { x with pinTier := tier, voicePin := true }).finish v a 0 0 0)) ∧
  -- PIN_TENSOR (unpin)
  (∀ (s : State) (v : Nat) (a : Admitted) (x : Tensor), s.on = true → v < 16 → s.chip.admits = true →
     (s.chip.voice v).admitted = some a → a.opcode = 5 → s.chip.tensor? (a.arg 8 4) = some x →
     s.chip.writeCheck v (a.arg 8 4) = 0 → a.arg 0x0C 1 ≤ 2 → a.arg 0x0D 1 = 0 → x.pinTier = a.arg 0x0C 1 →
     Does (.pinTensor v) s ((s.chip.setTensor (a.arg 8 4) { x with pinTier := if s.chip.lutHeld (a.arg 8 4) then x.pinTier else 0xFF, voicePin := false }).finish v a 0 0 0)) ∧
  -- CUE_ARM (cueArm)
  (∀ (s : State) (v : Nat) (a : Admitted), s.on = true → s.turn v ⟨2, 0⟩ = true → v < 16 → s.chip.admits = true →
     (s.chip.voice v).admitted = some a → a.opcode = 6 → s.chip.armRateFree = true → s.chip.armQueue = [] →
     Does (.cueArm v) s ((s.chip.takeUp v).armCommand { voice := v, slot := a.arg 8 2, write := none, tag := a.tag, cookie := a.cookie, irq := a.irq, action := a.arg 10 1, remaining := a.arg 12 4, target := a.arg 16 8, period := a.arg 24 8, arg := a.arg 32 8 })) ∧
  -- CUE_ARM (cueArmLater)
  (∀ (s : State) (v : Nat) (a : Admitted), s.on = true → s.turn v ⟨2, 0⟩ = true → v < 16 → s.chip.admits = true →
     (s.chip.voice v).admitted = some a → a.opcode = 6 → (s.chip.armRateFree = false ∨ s.chip.armQueue ≠ []) →
     Does (.cueArm v) s ((s.chip.takeUp v).queueArm { voice := v, slot := a.arg 8 2, write := none, tag := a.tag, cookie := a.cookie, irq := a.irq, action := a.arg 10 1, remaining := a.arg 12 4, target := a.arg 16 8, period := a.arg 24 8, arg := a.arg 32 8 })) ∧
  -- CUE_CANCEL (cueCancel)
  (∀ (s : State) (v : Nat) (a : Admitted) (c1 : Chip) (gone : Bool), s.on = true → v < 16 → s.chip.admits = true →
     (s.chip.voice v).admitted = some a → a.opcode = 7 → 256 ≤ a.arg 8 2 → a.arg 8 2 < 1024 →
     s.chip.cancelSlot v (a.arg 8 2) = some (c1, gone) →
     Does (.cueCancel v) s (c1.finish v a (if gone then 0x0C050001 else 0) 0 0)) ∧
  -- CUE_CANCEL (cueCancelBad)
  (∀ (s : State) (v : Nat) (a : Admitted), s.on = true → v < 16 → s.chip.admits = true →
     (s.chip.voice v).admitted = some a → a.opcode = 7 → a.arg 8 2 < 256 →
     Does (.cueCancel v) s (s.chip.finish v a 0x0A020001 0 0)) ∧
  -- DICT_OP_READ (opRead)
  (∀ (s : State) (v : Nat) (a : Admitted) (d : List Byte), s.on = true → v < 15 → s.chip.admits = true →
     (s.chip.voice v).admitted = some a → a.opcode = 8 → a.arg 8 1 = 1 → dictOpCode v a = 0 →
     s.chip.callWake.dictRead v (a.arg 10 2) (a.arg 9 1) = (0, d) →
     Does (.dictOpRead v) s (let c1 := s.chip.callWake.noteReply v 1 (a.arg 10 2) (a.arg 9 1) 0 d; (Chip.hostWritten { c1 with hostMem := c1.hostMem.writeBytes (a.arg 16 8) d } v (a.arg 16 8) d.length).finish v a 0 d.length (if d.length ≤ 8 then leNat d else 0))) ∧
  -- DICT_OP_DESCRIBE (opDescribe)
  (∀ (s : State) (v : Nat) (a : Admitted) (d : List Byte), s.on = true → v < 15 → s.chip.admits = true →
     (s.chip.voice v).admitted = some a → a.opcode = 8 → a.arg 8 1 = 4 → dictOpCode v a = 0 →
     s.chip.callWake.dictDescribe v (a.arg 10 2) (a.arg 9 1) = (0, d) →
     Does (.dictOpDescribe v) s (let c1 := s.chip.callWake.noteReply v 4 (a.arg 10 2) (a.arg 9 1) 0 d; (Chip.hostWritten { c1 with hostMem := c1.hostMem.writeBytes (a.arg 16 8) d } v (a.arg 16 8) d.length).finish v a 0 d.length (if d.length ≤ 8 then leNat d else 0))) ∧
  -- DICT_OP_READ (opReadUsb)
  (∀ (s : State) (a : Admitted) (d : List Byte), s.on = true → s.chip.admits = true →
     (s.chip.voice 15).admitted = some a → a.opcode = 8 → a.arg 8 1 = 1 → dictOpCode 15 a = 0 →
     s.chip.callWake.dictRead 15 (a.arg 10 2) (a.arg 9 1) = (0, d) → d.length ≤ 8 →
     Does (.dictOpRead 15) s ((s.chip.callWake.noteReply 15 1 (a.arg 10 2) (a.arg 9 1) 0 d).finish 15 a 0 d.length (leNat d))) ∧
  -- DICT_OP_WRITE (opWriteInline)
  (∀ (s : State) (v : Nat) (a : Admitted), s.on = true → s.turn v ⟨2, 0⟩ = true → v < 16 → s.chip.admits = true →
     (s.chip.voice v).admitted = some a → a.opcode = 8 → a.arg 8 1 = 2 → dictOpCode v a = 0 → a.arg 14 1 = 1 →
     Does (.dictOpWrite v) s ((s.chip.takeUp v).submit { voice := v, via := ⟨2, a.tag⟩, idx := a.arg 10 2, sub := a.arg 9 1, data := (a.bytes.drop 32).take (a.arg 12 2), cookie := a.cookie, irq := a.irq })) ∧
  -- DICT_OP_WRITE (opWrite)
  (∀ (s : State) (v : Nat) (a : Admitted), s.on = true → s.turn v ⟨2, 0⟩ = true → v < 16 → s.chip.admits = true →
     (s.chip.voice v).admitted = some a → a.opcode = 8 → a.arg 8 1 = 2 → dictOpCode v a = 0 → a.arg 14 1 ≠ 1 →
     s.chip.remote v (a.arg 16 8) = false →
     Does (.dictOpWrite v) s ((s.chip.takeUp v).submit { voice := v, via := ⟨2, a.tag⟩, idx := a.arg 10 2, sub := a.arg 9 1, data := s.chip.hostMem.readBytes (a.arg 16 8) (a.arg 12 2), cookie := a.cookie, irq := a.irq }))

/-- PCI Express resets, functions, power states and host memory failures complete with their effects. Where the manual leaves a convention open, a clause
rests on the model's choice of log entries 49, 60. -/
def Obligations.PcieEventsComplete : Prop :=
  -- PCIE_PERST_N_ASSERT (perstLow)
  (∀ (s : State), s.on = true → s.chip.pcie.perstLow = false →
     Does .pciePerstNAssert s (let c1 := (s.chip.moves.filter (fun m => s.chip.onPcie m.voice && s.chip.usesHost m)).foldl Chip.moveFails s.chip; Chip.each { c1 with pcie := { c1.pcie with perstLow := true, trained := false, vfEnable := false, numVfs := 0, fns := [] } } (List.range 13) (fun (c : Chip) v => let d := c.setKeep v { c.keep v with d3 := false }; if v ≠ 0 ∧ (d.keep v).binding = 1 then d.unbind v else d))) ∧
  -- PCIE_PERST_N_RELEASE (perstHigh)
  (∀ (s : State), s.on = true →
     ∃ width rate, width ∈ [1, 2, 4] ∧ rate ∈ [25, 50, 80, 160] ∧
       Does .pciePerstNRelease s (let c := ((s.chip.fresh .link).1.fresh .link).1; { c with pcie := { s.chip.pcie with perstLow := false, trained := true, width, rate } })) ∧
  -- FUNCTION_LEVEL_RESET (flrPf)
  (∀ (s : State), s.on = true → s.chip.isRetired .pcie = false → s.chip.pcie.trained = true →
     Does (.functionLevelReset 0) s (let c1 := (((s.chip.each s.chip.vfVoices Chip.voiceReset).clearVfs).voiceReset 0).resetFn 0; c1.setKeep 0 { c1.keep 0 with d3 := false })) ∧
  -- FUNCTION_LEVEL_RESET (flrVf)
  (∀ (s : State) (fn : Nat), s.on = true → s.chip.isRetired .pcie = false → s.chip.pcie.trained = true →
     s.chip.pcie.vfEnable = true → 1 ≤ fn → fn ≤ s.chip.pcie.numVfs → s.chip.pcie.numVfs ≤ 12 →
     Does (.functionLevelReset fn) s (let c1 := (s.chip.voiceReset fn).resetFn fn; c1.setKeep fn { c1.keep fn with d3 := false })) ∧
  -- VF_ENABLE_CLEAR (vfClear)
  (∀ (s : State), s.on = true → s.chip.pcie.vfEnable = true →
     Does .vfEnableClear s ((s.chip.each s.chip.vfVoices Chip.voiceReset).clearVfs)) ∧
  -- VF_ENABLE_SET (vfSet)
  (∀ (s : State) (n : Nat), s.on = true → s.chip.pcie.vfEnable = false → s.chip.isRetired .pcie = false → n ≤ s.chip.pcie.identity.totalVfs →
     s.chip.pcie.trained = true →
     Does (.vfEnableSet n) s (Chip.each { s.chip with pcie := { s.chip.pcie with vfEnable := true, numVfs := n } } (rangeFrom 1 12) Chip.rebind)) ∧
  -- D3HOT_ENTRY (d3)
  (∀ (s : State) (fn : Nat), s.on = true → fn ≤ 12 → s.chip.hasFn fn = true → s.chip.onPcie fn = true →
     Does (.d3hotEntry fn) s ((s.chip.ringStop fn).setKeep fn { (s.chip.ringStop fn).keep fn with d3 := true })) ∧
  -- D3HOT_ENTRY (d3tunnel)
  (∀ (s : State) (fn : Nat), s.on = true → fn ≤ 12 → s.chip.hasFn fn = true → s.chip.onPcie fn = false →
     Does (.d3hotEntry fn) s (s.chip.setKeep fn { s.chip.keep fn with d3 := true })) ∧
  -- D0_RETURN (d0)
  (∀ (s : State) (fn : Nat), s.on = true → fn ≤ 12 → s.chip.hasFn fn = true →
     Does (.d0Return fn) s (s.chip.setKeep fn { s.chip.keep fn with d3 := false })) ∧
  -- HOST_MEMORY_FAILURE (hostFailure)
  (∀ (s : State) (v cause : Nat) (e : HostError), s.on = true → v < 16 → 1 ≤ cause → cause ≤ 3 → s.chip.onPcie v = true →
     (cause ≠ 3 ∨ s.chip.moves.find? (fun m => m.voice == v && s.chip.usesHost m) = none) →
     Does (.hostMemoryFailure v ⟨cause, e⟩) s ((s.chip.reportError v e).hostFailure v cause)) ∧
  -- HOST_MEMORY_FAILURE (hostFailureTunnel)
  (∀ (s : State) (v cause : Nat) (e : HostError), s.on = true → v < 16 → 1 ≤ cause → cause ≤ 3 → s.chip.onPcie v = false →
     (cause ≠ 3 ∨ s.chip.moves.find? (fun m => m.voice == v && s.chip.usesHost m) = none) →
     Does (.hostMemoryFailure v ⟨cause, e⟩) s (s.chip.hostFailure v cause)) ∧
  -- HOST_MEMORY_FAILURE (hostFailureMove)
  (∀ (s : State) (v : Nat) (e : HostError) (m : Move), s.on = true → v < 16 → s.chip.onPcie v = true →
     s.chip.moves.find? (fun m => m.voice == v && s.chip.usesHost m) = some m →
     Does (.hostMemoryFailure v ⟨3, e⟩) s (((s.chip.reportError v e).moveEnds m 0x0C040001).hostFailure m.voice 3))

/-- USB control requests, bus events and bulk records complete with their effects. Where the manual leaves a convention open, a clause
rests on the model's choice of log entries 7, 13, 48. -/
def Obligations.UsbPortCompletes : Prop :=
  -- USB_DICT_READ (usbRead)
  (∀ (s : State) (u : UsbSetup) (d : List Byte), s.on = true → s.chip.usbServes = true → goodRequest u = true →
     u.request = 1 → s.chip.usb.lastReq ≠ some (u, []) → s.chip.usbRefuse.tagRepeats u = false →
     s.chip.usbRefuse.callWake.dictRead 15 u.value (usbSub u) = (0, d) → d.length ≤ u.length →
     Does (.usbDictRead u) s ((s.chip.usbRefuse.callWake.noteReply 15 1 u.value (usbSub u) 0 d).usbAnswer (u, []) d)) ∧
  -- USB_DICT_DESCRIBE (usbDescribe)
  (∀ (s : State) (u : UsbSetup) (d : List Byte), s.on = true → s.chip.usbServes = true → goodRequest u = true →
     u.request = 4 → s.chip.usb.lastReq ≠ some (u, []) → s.chip.usbRefuse.tagRepeats u = false →
     s.chip.usbRefuse.callWake.dictDescribe 15 u.value (usbSub u) = (0, d) → d.length ≤ u.length →
     Does (.usbDictDescribe u) s ((s.chip.usbRefuse.callWake.noteReply 15 4 u.value (usbSub u) 0 d).usbAnswer (u, []) d)) ∧
  -- USB_DICT_WRITE_DATA (usbWriteData)
  (∀ (s : State) (u : UsbSetup) (data : List Byte), s.on = true → s.chip.usbServes = true → goodRequest u = true →
     u.request = 2 → data.length = u.length → s.chip.usb.lastReq ≠ some (u, data) → s.chip.usbRefuse.tagRepeats u = false →
     s.chip.usbRefuse.writeCode 15 u.value (usbSub u) data = 0 →
     Does (.usbDictWriteData u data) s ({ s.chip.usbRefuse with usb := { s.chip.usbRefuse.usb with pendingWrite := some (u, data) } })) ∧
  -- USB_DICT_WRITE_STATUS (usbWriteStatus)
  (∀ (s : State) (u : UsbSetup) (data : List Byte), s.on = true → s.turn 15 ⟨4, 0⟩ = true → s.chip.usbServes = true →
     s.chip.usb.pendingWrite = some (u, data) → s.chip.usb.lastReq ≠ some (u, data) → s.chip.usbWaits u data = false →
     Does .usbDictWriteStatus s (Chip.submit { s.chip with usb := { s.chip.usb with pendingWrite := none, statusWaits := true } } { voice := 15, via := ⟨4, usbTag u⟩, idx := u.value, sub := usbSub u, data, opened := true })) ∧
  -- USB_DICT_READ, USB_DICT_DESCRIBE, USB_DICT_WRITE_DATA, GET_ABORT (usbUndefined, R290)
  (∀ (s : State) (u : UsbSetup), s.on = true → s.chip.usbServes = true → definedRequest u = false →
     Does (.usbDictRead u) s s.chip.usbRefuse ∧ Does (.usbDictDescribe u) s s.chip.usbRefuse ∧
     Does (.getAbort u) s s.chip.usbRefuse ∧
     ∀ data : List Byte, data.length = u.length → Does (.usbDictWriteData u data) s s.chip.usbRefuse) ∧
  -- GET_ABORT (getAbort)
  (∀ (s : State) (u : UsbSetup), s.on = true → s.chip.usbServes = true → goodRequest u = true → u.request = 15 →
     Does (.getAbort u) s ({ s.chip.usbRefuse with usb := { s.chip.usbRefuse.usb with reply := some ((padTo 8 s.chip.usb.abort).take u.length) } })) ∧
  -- GET_ABORT (usbBadRequest)
  (∀ (s : State) (u : UsbSetup), s.on = true → s.chip.usbServes = true → goodRequest u = false → u.request = 15 →
     Does (.getAbort u) s s.chip.usbRefuse) ∧
  -- USB_BUS_RESET (busReset)
  (∀ (s : State), s.on = true → s.chip.usb.attached = true →
     Does .usbBusReset s (let f := s.chip.usbUnconfigure.fresh .usbSpeed; (f.1.dset (ent 0x1810 2) (1 + f.2 % 2)).dinc (ent 0x1810 5))) ∧
  -- SET_CONFIGURATION (configureAgain)
  (∀ (s : State), s.on = true → s.chip.usb.attached = true → s.chip.usb.configured = true → s.chip.usb.ringOn = true →
     Does (.setConfiguration 1) s ((Chip.rebind { s.chip.usbSetup with usb := { s.chip.usbSetup.usb with halted := false } } 15).sendUnsent)) ∧
  -- SET_CONFIGURATION (configure)
  (∀ (s : State), s.on = true → s.chip.usb.attached = true → s.chip.usb.configured = false → s.chip.usb.ringOn = false →
     (s.chip.voice 15).state = .idle →
     Does (.setConfiguration 1) s (let f := s.chip.usbSetup.fresh .usbAddress; let c1 := f.1.dset (ent 0x1810 3) (1 + f.2 % 127); let c2 := Chip.rebind { c1 with usb := { c1.usb with configured := true, halted := false } } 15; let c3 := Chip.setVoice { c2 with usb := { c2.usb with ringOn := true } } 15 { c2.voice 15 with queue := [], tags := 0 }; (c3.ringStart 15).sendUnsent)) ∧
  -- SET_CONFIGURATION (deconfigure)
  (∀ (s : State), s.on = true → s.chip.usb.attached = true → Does (.setConfiguration 0) s s.chip.usbSetup.usbUnconfigure) ∧
  -- USB_ATTACH (attach)
  (∀ (s : State), s.on = true →
     Does .usbAttach s (Chip.usbThere { s.chip with board := { s.chip.board with vbus := true } })) ∧
  -- USB_DETACH (detach)
  (∀ (s : State), s.on = true → Does .usbDetach s ({ s.chip.usbGone with board := { s.chip.board with vbus := false } })) ∧
  -- USB_COMMAND_RECORD (recCommand)
  (∀ (s : State) (r : RecordHeader) (d : List Byte), s.on = true → s.chip.usbServes = true → s.chip.usb.halted = false →
     s.chip.gov.p6 = false → s.chip.gov.p7 = false → goodHeader r = true → r.rtype = 1 → d.length = r.length →
     s.chip.usb.ringOn = true → (s.chip.voice 15).queue.length < 256 →
     Does (.usbCommandRecord r d) s (s.chip.takeCommand 15 d)) ∧
  -- TENSOR_READ (recRead)
  (∀ (s : State) (r : RecordHeader) (x : Tensor), s.on = true → s.chip.usbServes = true → s.chip.usb.halted = false →
     s.chip.gov.p6 = false → s.chip.gov.p7 = false → goodHeader r = true → r.rtype = 4 → r.length = 0 →
     s.chip.tensor? r.ident = some x → s.chip.readCheck 15 r.ident = 0 → r.offset ≤ x.size →
     ¬ (0xFF2000 ≤ r.ident ∧ r.ident < 0xFF2008) →
     Does (.tensorRead r) s ({ s.chip with usb := { s.chip.usb with inRecords := s.chip.usb.inRecords ++ recordsFor 5 r.ident (s.chip.tensorRead x 0 r.offset) } })) ∧
  -- TENSOR_READ (recReadMap)
  (∀ (s : State) (r : RecordHeader) (x : Tensor), s.on = true → s.chip.usbServes = true → s.chip.usb.halted = false →
     s.chip.gov.p6 = false → s.chip.gov.p7 = false → goodHeader r = true → r.rtype = 4 → r.length = 0 →
     s.chip.tensor? r.ident = some x → s.chip.readCheck 15 r.ident = 0 → r.offset ≤ x.size → 0xFF2000 ≤ r.ident →
     r.ident < 0xFF2008 →
     Does (.tensorRead r) s ({ s.chip with usb := { s.chip.usb with inRecords := s.chip.usb.inRecords ++ recordsFor 6 (r.ident - 0xFF2000) (s.chip.tensorRead x 0 r.offset) } })) ∧
  -- TENSOR_READ (recReadGone)
  (∀ (s : State) (r : RecordHeader), s.on = true → s.chip.usbServes = true → s.chip.usb.halted = false →
     s.chip.gov.p6 = false → s.chip.gov.p7 = false → goodHeader r = true → r.rtype = 4 → r.length = 0 →
     s.chip.tensor? r.ident = none → Does (.tensorRead r) s s.chip.discardRecord) ∧
  -- TENSOR_WRITE (recWrite)
  (∀ (s : State) (r : RecordHeader) (d : List Byte) (x : Tensor) (c1 : Chip), s.on = true → s.chip.usbServes = true →
     s.chip.usb.halted = false → s.chip.gov.p6 = false → s.chip.gov.p7 = false → goodHeader r = true → r.rtype = 3 →
     d.length = r.length → r.flags = 0 → s.chip.tensor? r.ident = some x → s.chip.writeCheck 15 r.ident = 0 →
     s.chip.inFlight r.ident = false → r.offset + d.length ≤ x.size →
     s.chip.resultSpace r.ident 15 (usbRun r.ident) = (c1, 0) → c1.transients.length = s.chip.transients.length →
     Does (.tensorWrite r d) s ({ c1 with tier1 := c1.tier1.writeBytes (c1.usbPlace r.ident x + r.offset) d })) ∧
  -- TENSOR_WRITE (recWriteLast)
  (∀ (s : State) (r : RecordHeader) (d : List Byte) (x : Tensor) (c1 c3 : Chip), s.on = true → s.chip.usbServes = true →
     s.chip.usb.halted = false → s.chip.gov.p6 = false → s.chip.gov.p7 = false → goodHeader r = true → r.rtype = 3 →
     d.length = r.length → r.flags = 1 → s.chip.tensor? r.ident = some x → s.chip.writeCheck 15 r.ident = 0 →
     s.chip.inFlight r.ident = false → r.offset + d.length ≤ x.size →
     s.chip.resultSpace r.ident 15 (usbRun r.ident) = (c1, 0) →
     c3 = (let c2 : Chip := if c1.transients.length = s.chip.transients.length then c1 else { c1 with tier1 := c1.tier1.writeBytes (c1.usbPlace r.ident x) (c1.tensorRead x 0 x.size) }; { c2 with tier1 := c2.tier1.writeBytes (c1.usbPlace r.ident x + r.offset) d }) →
     Does (.tensorWrite r d) s ((c3.newContents r.ident 1 0xFF (c1.usbPlace r.ident x) (c3.tier1.readBytes (c1.usbPlace r.ident x) x.size)).endTransients (usbRun r.ident))) ∧
  -- TENSOR_WRITE (recWriteBad)
  (∀ (s : State) (r : RecordHeader) (d : List Byte), s.on = true → s.chip.usbServes = true → s.chip.usb.halted = false →
     s.chip.gov.p6 = false → s.chip.gov.p7 = false → goodHeader r = true → r.rtype = 3 → d.length = r.length →
     s.chip.tensor? r.ident = none → Does (.tensorWrite r d) s s.chip.discardRecord) ∧
  -- MAP_IMPORT (recImport)
  (∀ (s : State) (r : RecordHeader) (d : List Byte), s.on = true → s.chip.usbServes = true → s.chip.usb.halted = false →
     s.chip.gov.p6 = false → s.chip.gov.p7 = false → goodHeader r = true → r.rtype = 7 → d.length = r.length → r.ident < 8 →
     s.chip.estVoice r.ident = 15 → r.flags = 0 →
     Does (.mapImportRecord r d) s ({ s.chip with usb := { s.chip.usb with imports := tabSet s.chip.usb.imports r.ident (tabGet [] s.chip.usb.imports r.ident ++ [(r.offset, d)]) } })) ∧
  -- MAP_IMPORT (recImportLast)
  (∀ (s : State) (r : RecordHeader) (d : List Byte), s.on = true → s.chip.usbServes = true → s.chip.usb.halted = false →
     s.chip.gov.p6 = false → s.chip.gov.p7 = false → goodHeader r = true → r.rtype = 7 → d.length = r.length → r.ident < 8 →
     s.chip.estVoice r.ident = 15 → r.flags ≠ 0 →
     Does (.mapImportRecord r d) s (let bytes := joinChunks (tabGet [] s.chip.usb.imports r.ident ++ [(r.offset, d)]); let c1 : Chip := { s.chip with usb := { s.chip.usb with imports := tabDel s.chip.usb.imports r.ident } }; if c1.importCheck r.ident bytes ≠ 0 then c1.discardRecord else c1.estImport r.ident bytes)) ∧
  -- USB_HEADER_ERROR (recBad)
  (∀ (s : State) (r : RecordHeader), s.on = true → s.chip.usbServes = true → s.chip.usb.halted = false →
     s.chip.gov.p6 = false → s.chip.gov.p7 = false → goodHeader r = false →
     Does (.usbHeaderError r) s ({ s.chip with usb := { s.chip.usb with halted := true } })) ∧
  -- CLEAR_FEATURE (clearHalt)
  (∀ (s : State), s.on = true → Does .clearFeature s ({ s.chip.usbSetup with usb := { s.chip.usbSetup.usb with halted := false } })) ∧
  -- STATUS_REPORT (report)
  (∀ (s : State), s.on = true → s.chip.usbServes = true →
     Does .statusReport s (let r := [(1 : Byte), BitVec.ofNat 8 s.chip.engine.code, BitVec.ofNat 8 s.chip.epoch.st.code, 0] ++ leBytes 4 s.chip.errorRegister ++ leBytes 8 s.chip.posNat; { s.chip with usb := { s.chip.usb with ep2 := s.chip.usb.ep2 ++ [r], lastReport := r } }))

/-- Camera packets, triggers, runs and virtual frames complete with their effects. Where the manual leaves a convention open, a clause
rests on the model's choice of log entries 4, 26, 28, 29. -/
def Obligations.CameraCommandsComplete : Prop :=
  -- CSI_FRAME_START (fs)
  (∀ (s : State) (link vc ch : Nat), s.live = true → s.chip.gated = false → s.chip.channelsOf link = [ch] →
     s.chip.dget (camKey ch 4) = vc → Does (.csiFrameStart link vc) s (s.chip.startFrame ch)) ∧
  -- CSI_FRAME_START (fsGated)
  (∀ (s : State) (link vc ch : Nat), s.live = true → s.chip.gated = true → s.chip.channelsOf link = [ch] →
     Does (.csiFrameStart link vc) s (s.chip.dinc (camKey ch 45))) ∧
  -- CSI_FRAME_END (fe)
  (∀ (s : State) (link vc ch : Nat), s.live = true → s.chip.gated = false → s.chip.channelsOf link = [ch] →
     s.chip.dget (camKey ch 4) = vc → Does (.csiFrameEnd link vc) s (s.chip.endFrame ch)) ∧
  -- CSI_FRAME_END (feGated)
  (∀ (s : State) (link vc ch : Nat), s.live = true → s.chip.gated = true → s.chip.channelsOf link = [ch] →
     Does (.csiFrameEnd link vc) s (s.chip.dinc (camKey ch 45))) ∧
  -- CSI_LONG_PACKET (packet)
  (∀ (s : State) (link ch : Nat) (p : LongPacket), s.live = true → s.chip.channelsOf link = [ch] →
     Does (.csiLongPacket link p) s (s.chip.camPacket ch p)) ∧
  -- CSI_LONG_PACKET (packetRow)
  (∀ (s : State) (link ch d : Nat) (p : LongPacket), s.live = true → s.chip.channelsOf link = [ch] →
     s.chip.gated = false → p.eccMulti = false → p.vc = s.chip.dget (camKey ch 4) → p.format = s.chip.dget (camKey ch 5) →
     (s.chip.cam ch).current = some d → p.crcOk = true → (unpackRow p.format p.payload).length = s.chip.camWidth ch →
     Does (.csiLongPacket link p) s (s.chip.acceptRow ch (s.chip.convertRow ch (tabGet {} (s.chip.cam ch).frames d).black (unpackRow p.format p.payload)) false)) ∧
  -- CSI_LONG_PACKET (packetCrc)
  (∀ (s : State) (link ch d : Nat) (p : LongPacket), s.live = true → s.chip.channelsOf link = [ch] →
     s.chip.gated = false → p.eccMulti = false → p.vc = s.chip.dget (camKey ch 4) → p.format = s.chip.dget (camKey ch 5) →
     (s.chip.cam ch).current = some d → p.crcOk = false →
     (unpackRow p.format p.payload).length = s.chip.camWidth ch →
     Does (.csiLongPacket link p) s (let c := s.chip.dinc (camKey ch 41); c.acceptRow ch (List.replicate (c.camWidth ch) 0) true)) ∧
  -- CSI_LONG_PACKET (packetLength): a row of another length than WIDTH is counted, and padded or cut
  (∀ (s : State) (link ch d : Nat) (p : LongPacket), s.live = true → s.chip.channelsOf link = [ch] →
     s.chip.gated = false → p.eccMulti = false → p.vc = s.chip.dget (camKey ch 4) → p.format = s.chip.dget (camKey ch 5) →
     (s.chip.cam ch).current = some d → p.crcOk = true → (unpackRow p.format p.payload).length ≠ s.chip.camWidth ch →
     Does (.csiLongPacket link p) s (let c := s.chip.dinc (camKey ch 42); c.acceptRow ch (c.convertRow ch (tabGet {} (s.chip.cam ch).frames d).black (unpackRow p.format p.payload)) false)) ∧
  -- CSI_LONG_PACKET (packetEcc)
  (∀ (s : State) (link ch : Nat) (p : LongPacket), s.live = true → s.chip.channelsOf link = [ch] → s.chip.gated = false →
     p.eccMulti = true → Does (.csiLongPacket link p) s (s.chip.dinc (camKey ch 40))) ∧
  -- CSI_LONG_PACKET (packetOther)
  (∀ (s : State) (link ch : Nat) (p : LongPacket), s.live = true → s.chip.channelsOf link = [ch] → s.chip.gated = false →
     p.eccMulti = false →
     (p.vc ≠ s.chip.dget (camKey ch 4) ∨ p.format ≠ s.chip.dget (camKey ch 5) ∨ (s.chip.cam ch).current = none) →
     Does (.csiLongPacket link p) s (s.chip.dinc (camKey ch 45))) ∧
  -- TRIGGER_EXPIRY (triggerExpiry)
  (∀ (s : State) (ch : Nat), s.live = true →
     Does (.triggerExpiry ch) s (let old := fun (t : Nat × Bool) => reached s.chip.posNat (addPos s.chip.epoch.frameLines t.1 m32); (s.chip.setCam ch { s.chip.cam ch with triggers := (s.chip.cam ch).triggers.filter (fun t => !old t) }).dadd (camKey ch 48) ((s.chip.cam ch).triggers.countP old))) ∧
  -- EXTRACTION_RUN_START (runStart)
  (∀ (s : State) (ch : Nat) (r : CamRun), s.live = true → s.chip.gated = false → (s.chip.cam ch).asked = some r →
     s.chip.camOn ch = true → (s.chip.cam ch).run = none →
     Does (.extractionRunStart ch) s (s.chip.setCam ch { s.chip.cam ch with asked := none, run := some (s.chip.readParams ch r.slot r.serial) })) ∧
  -- EXTRACTION_RUN_START (runPending)
  (∀ (s : State) (ch : Nat) (r : CamRun), s.live = true → s.chip.gated = false → (s.chip.cam ch).asked = some r →
     s.chip.camOn ch = true → (s.chip.cam ch).run.isSome = true → (s.chip.cam ch).waiting = none →
     Does (.extractionRunStart ch) s (s.chip.setCam ch { s.chip.cam ch with asked := none, waiting := some r })) ∧
  -- EXTRACTION_RUN_START (runReplaces)
  (∀ (s : State) (ch : Nat) (r : CamRun), s.live = true → s.chip.gated = false → (s.chip.cam ch).asked = some r →
     s.chip.camOn ch = true → (s.chip.cam ch).run.isSome = true → (s.chip.cam ch).waiting.isSome = true →
     Does (.extractionRunStart ch) s ((s.chip.setCam ch { s.chip.cam ch with asked := none, waiting := some r }).dinc (camKey ch 49))) ∧
  -- PENDING_RUN_START (pendingStart)
  (∀ (s : State) (ch : Nat) (r : CamRun), s.live = true → s.chip.gated = false → (s.chip.cam ch).waiting = some r →
     (s.chip.cam ch).run = none → (tabGet {} (s.chip.cam ch).frames r.slot).serial = r.serial →
     Does (.pendingRunStart ch) s (let c1 := s.chip.setCam ch { s.chip.cam ch with waiting := none }; c1.setCam ch { s.chip.cam ch with waiting := none, run := some (s.chip.readParams ch r.slot r.serial) })) ∧
  -- PENDING_RUN_START (pendingGone)
  (∀ (s : State) (ch : Nat) (r : CamRun), s.live = true → s.chip.gated = false → (s.chip.cam ch).waiting = some r →
     (s.chip.cam ch).run = none → (tabGet {} (s.chip.cam ch).frames r.slot).serial ≠ r.serial →
     Does (.pendingRunStart ch) s ((s.chip.setCam ch { s.chip.cam ch with waiting := none }).dinc (camKey ch 50))) ∧
  -- EXTRACTION_RUN_END (runEnd)
  (∀ (s : State) (ch : Nat) (r : CamRun), s.live = true → s.chip.gated = false → (s.chip.cam ch).run = some r →
     s.chip.camOn ch = true → s.chip.frameThere ch r.slot r.serial = true →
     (tabGet {} (s.chip.cam ch).frames r.slot).ended ≠ none → Does (.extractionRunEnd ch) s (let c1 := s.chip.endRun ch; match (c1.cam ch).prev with | some l => if (c1.cam ch).nextList ≠ (s.chip.cam ch).nextList then c1.estTakeList ch l.list r.slot else c1 | none => c1)) ∧
  -- EXTRACTION_RUN_END (runEndEarly)
  (∀ (s : State) (ch : Nat) (r : CamRun), s.live = true → s.chip.gated = false → (s.chip.cam ch).run = some r →
     s.chip.camOn ch = true → s.chip.frameThere ch r.slot r.serial = true →
     (tabGet {} (s.chip.cam ch).frames r.slot).ended = none → Does (.extractionRunEnd ch) s s.chip) ∧
  -- EXTRACTION_RUN_END (runEndGone)
  (∀ (s : State) (ch : Nat) (r : CamRun), s.live = true → s.chip.gated = false → (s.chip.cam ch).run = some r →
     (s.chip.camOn ch = false ∨ s.chip.frameThere ch r.slot r.serial = false) →
     Does (.extractionRunEnd ch) s (s.chip.setCam ch { s.chip.cam ch with run := none })) ∧
  -- VIRTUAL_FRAME_DELIVERY (virtualStart)
  (∀ (s : State) (ch : Nat), s.live = true → s.chip.camOn ch = true → s.chip.dget (camKey ch 34) = 1 →
     s.chip.gated = false → s.chip.straps.mode ≠ .mesh → (s.chip.cam ch).named ≠ [] →
     laterMod m32 s.chip.epoch.pos.frame ((s.chip.cam ch).namedAt / m32) = true →
     Does (.virtualFrameDelivery ch) s (let c0 := s.chip.startFrame ch; (c0.setCam ch { c0.cam ch with virtualFrame := some s.chip.epoch.pos.frame, bands := (c0.cam ch).named, named := [] }).deliverRows ch s.chip.epoch.pos.frame)) ∧
  -- VIRTUAL_FRAME_DELIVERY (virtualRows)
  (∀ (s : State) (ch f : Nat), s.live = true → s.chip.camOn ch = true → s.chip.dget (camKey ch 34) = 1 →
     s.chip.gated = false → s.chip.straps.mode ≠ .mesh → (s.chip.cam ch).named = [] →
     (s.chip.cam ch).virtualFrame = some f → Does (.virtualFrameDelivery ch) s (s.chip.deliverRows ch f))

/-- Inertial samples, bursts, outputs, coefficient loads, resets and encoders complete with their effects. Where the manual leaves a convention open, a clause
rests on the model's choice of log entries 7, 30. -/
def Obligations.InertialAndEncoderCommandsComplete : Prop :=
  -- COMB_OUTPUT_SAMPLE (comb)
  (∀ (s : State) (ch : Nat) (bs : List Bool) (h : List Int), s.live = true → s.chip.chanOn ch = true →
     s.chip.dget (inKey ch 2) = 0 → s.chip.gated = false → bs.length = 16 →
     h = bs.reverse.map (fun b => if b then (1 : Int) else -1) ++ (s.chip.chan ch).comb →
     Does (.combOutputSample ch bs) s ((s.chip.setChan ch { s.chip.chan ch with comb := h.take 45 }).enterSample ch { value := combOutput h, sat := false, held := false, cap := s.chip.capture })) ∧
  -- SPI_DRDY_EDGE (drdyIdle)
  (∀ (s : State) (m : Nat), s.live = true → s.chip.dget (spiKey m 50) ≠ 0 → s.chip.isRetired (.spiMaster m) = false →
     s.chip.gated = false → (s.chip.master m).running = none →
     Does (.spiDrdyEdge m) s (s.chip.setMaster m { s.chip.master m with running := some s.chip.capture, rxLen := s.chip.dget (spiKey m 55), mosi := leBytes (s.chip.dget (spiKey m 53)) (s.chip.dget (spiKey m 54)) })) ∧
  -- SPI_DRDY_EDGE (drdyWaits)
  (∀ (s : State) (m : Nat), s.live = true → s.chip.dget (spiKey m 50) ≠ 0 → s.chip.isRetired (.spiMaster m) = false →
     s.chip.gated = false → (s.chip.master m).running.isSome = true → (s.chip.master m).waiting = none →
     Does (.spiDrdyEdge m) s (s.chip.setMaster m { s.chip.master m with waiting := some s.chip.capture })) ∧
  -- SPI_DRDY_EDGE (drdyOver)
  (∀ (s : State) (m : Nat) (old : Capture), s.live = true → s.chip.dget (spiKey m 50) ≠ 0 →
     s.chip.isRetired (.spiMaster m) = false → s.chip.gated = false → (s.chip.master m).running.isSome = true →
     (s.chip.master m).waiting = some old →
     Does (.spiDrdyEdge m) s ((s.chip.setMaster m { s.chip.master m with waiting := some s.chip.capture, skipped := (s.chip.master m).skipped ++ [old] }).dinc (spiKey m 57))) ∧
  -- SPI_DRDY_EDGE (drdyOff)
  (∀ (s : State) (m : Nat), s.live = true → s.chip.dget (spiKey m 50) = 0 → Does (.spiDrdyEdge m) s s.chip) ∧
  -- SPI_BURST_END (burstEnd): the first RX_LEN bytes reach every channel of the master
  (∀ (s : State) (m : Nat) (rx : List Byte) (cap : Capture), s.live = true → (s.chip.master m).running = some cap →
     Does (.spiBurstEnd m rx) s (s.chip.spiEnd m (rx.take (s.chip.master m).rxLen))) ∧
  -- SPI_BURST_END (burstEndGated)
  (∀ (s : State) (m : Nat) (rx : List Byte) (cap : Capture), s.live = true → (s.chip.master m).running = some cap →
     (s.chip.master m).waiting = none → ((s.chip.dinc (spiKey m 56)).setMaster m {}).gated = true →
     Does (.spiBurstEnd m rx) s ((s.chip.dinc (spiKey m 56)).setMaster m {})) ∧
  -- SPI_BURST_END (burstEndNoChannel)
  (∀ (s : State) (m : Nat) (rx : List Byte) (cap : Capture) (c1 : Chip), s.live = true →
     (s.chip.master m).running = some cap → (s.chip.master m).waiting = none →
     c1 = (s.chip.dinc (spiKey m 56)).setMaster m {} → c1.gated = false →
     c1.channelsOfMaster m = [] → (s.chip.master m).skipped = [] → Does (.spiBurstEnd m rx) s c1) ∧
  -- SPI_BURST_END (burstEndNext): the pending trigger starts the next burst
  (∀ (s : State) (m : Nat) (rx : List Byte) (cap next : Capture) (c1 : Chip), s.live = true →
     (s.chip.master m).running = some cap → (s.chip.master m).waiting = some next →
     c1 = (s.chip.dinc (spiKey m 56)).startBurst m {} next → c1.gated = false →
     c1.channelsOfMaster m = [] → (s.chip.master m).skipped = [] → Does (.spiBurstEnd m rx) s c1) ∧
  -- OUTPUT_EMERGE (emergeUnsettled)
  (∀ (s : State) (ch : Nat) (o : InOut) (r : List InOut), s.live = true → s.chip.gated = false →
     (s.chip.chan ch).emerging = o :: r → s.chip.chanOn ch = true → o.settled = false →
     Does (.outputEmerge ch) s ((s.chip.setChan ch { s.chip.chan ch with emerging := r }).dinc (inKey ch 42))) ∧
  -- OUTPUT_EMERGE (emerge)
  (∀ (s : State) (ch : Nat) (o : InOut) (r : List InOut), s.live = true → s.chip.gated = false →
     (s.chip.chan ch).emerging = o :: r → s.chip.chanOn ch = true → o.settled = true →
     Does (.outputEmerge ch) s ((s.chip.emerge ch).1.estOutput { ch, value := o.value, stamp := o.stamp, period := o.period, seq := o.seq, held := o.held, stopped := o.stopped, emerged := s.chip.posNat })) ∧
  -- VIRTUAL_SAMPLE_ENTRY (virtualSample)
  (∀ (s : State) (ch : Nat) (x : VirtualSample) (r : List VirtualSample), s.live = true → (s.chip.chan ch).virt = x :: r →
     s.chip.chanOn ch = true → s.chip.dget (inKey ch 2) = 2 → s.chip.gated = false → reached s.chip.posNat x.pos = true →
     -0x800000 ≤ toSigned 32 x.value → toSigned 32 x.value ≤ 0x7FFFFF →
     Does (.virtualSampleEntry ch) s ((s.chip.setChan ch { s.chip.chan ch with virt := r }).enterSample ch { value := toSigned 32 x.value, sat := false, held := false, cap := ⟨x.pos, x.period, s.chip.epochNotRunning⟩ })) ∧
  -- VIRTUAL_SAMPLE_ENTRY (virtualLater)
  (∀ (s : State) (ch : Nat) (x : VirtualSample) (r : List VirtualSample), s.live = true → (s.chip.chan ch).virt = x :: r →
     reached s.chip.posNat x.pos = false → Does (.virtualSampleEntry ch) s s.chip) ∧
  -- COEF_LOAD_COMPLETE (coef1)
  (∀ (s : State) (g : Nat) (vs : List Int), s.live = true → (s.chip.grp g).loading = some vs → (s.chip.grp g).active = 0 →
     Does (.coefLoadComplete g) s (s.chip.setGrp g { s.chip.grp g with bank1 := some vs, loading := none })) ∧
  -- COEF_LOAD_COMPLETE (coef0)
  (∀ (s : State) (g : Nat) (vs : List Int), s.live = true → (s.chip.grp g).loading = some vs → (s.chip.grp g).active ≠ 0 →
     Does (.coefLoadComplete g) s (s.chip.setGrp g { s.chip.grp g with bank0 := some vs, loading := none })) ∧
  -- SYNC_N_FALL (sync)
  (∀ (s : State), s.live = true → Does .syncNFall s (s.chip.each (List.range 4) Chip.groupReset)) ∧
  -- ENCODER_EDGE (encUp)
  (∀ (s : State) (e : Nat) (a b : Bool), s.live = true → e < 4 → s.chip.encCounts e = true →
     (quadrature a b + 4 - quadrature (s.chip.board.encLevels e).1 (s.chip.board.encLevels e).2) % 4 = 1 →
     s.chip.dbool (encKey e 2) = false →
     Does (.encoderEdge e a b) s (let c1 := (s.chip.setEnc e { s.chip.enc e with raw := (s.chip.enc e).raw + 1, reverse := false }).dset (encKey e 8) ((s.chip.dget (encKey e 8) + 1) % m32); { c1 with board := c1.board.withEnc e a b })) ∧
  -- ENCODER_EDGE (encDown)
  (∀ (s : State) (e : Nat) (a b : Bool), s.live = true → e < 4 → s.chip.encCounts e = true →
     (quadrature a b + 4 - quadrature (s.chip.board.encLevels e).1 (s.chip.board.encLevels e).2) % 4 = 3 →
     s.chip.dbool (encKey e 2) = false →
     Does (.encoderEdge e a b) s (let c1 := (s.chip.setEnc e { s.chip.enc e with raw := (s.chip.enc e).raw - 1, reverse := true }).dset (encKey e 8) ((s.chip.dget (encKey e 8) + 0xFFFFFFFF) % m32); { c1 with board := c1.board.withEnc e a b })) ∧
  -- ENCODER_EDGE (encBoth)
  (∀ (s : State) (e : Nat) (a b : Bool), s.live = true → e < 4 → s.chip.encCounts e = true →
     (quadrature a b + 4 - quadrature (s.chip.board.encLevels e).1 (s.chip.board.encLevels e).2) % 4 = 2 →
     Does (.encoderEdge e a b) s (let c1 := s.chip.dinc (encKey e 13); { c1 with board := c1.board.withEnc e a b })) ∧
  -- ENCODER_EDGE (encOff)
  (∀ (s : State) (e : Nat) (a b : Bool), s.live = true → e < 4 → s.chip.encCounts e = false →
     Does (.encoderEdge e a b) s ({ s.chip with board := s.chip.board.withEnc e a b })) ∧
  -- INDEX_EVENT (index1)
  (∀ (s : State) (e : Nat), s.live = true → e < 4 → s.chip.dbool (encKey e 1) = true → s.chip.encAlive e = true →
     s.chip.dget (encKey e 3) = 1 → (s.chip.dget (encKey e 4) ≠ 1 ∨ s.chip.board.encLevels e = (true, true)) →
     s.chip.gov.p6 = false → s.chip.gov.p7 = false →
     Does (.indexEvent e) s (let p := s.chip.dget (encKey e 8); let c1 := (s.chip.dset (encKey e 9) p).dinc (encKey e 12); let c2 := c1; c2.encWrite e s.chip.posNat p p 2)) ∧
  -- INDEX_EVENT (index2)
  (∀ (s : State) (e : Nat), s.live = true → e < 4 → s.chip.dbool (encKey e 1) = true → s.chip.encAlive e = true →
     s.chip.dget (encKey e 3) = 2 → (s.chip.dget (encKey e 4) ≠ 1 ∨ s.chip.board.encLevels e = (true, true)) →
     s.chip.gov.p6 = false → s.chip.gov.p7 = false →
     Does (.indexEvent e) s (let p := s.chip.dget (encKey e 8); let c1 := (s.chip.dset (encKey e 9) p).dinc (encKey e 12); let c2 := c1.dset (encKey e 8) 0; c2.encWrite e s.chip.posNat p p 2))

/-- Estimator steps, closures and exports complete with their effects. Where the manual leaves a convention open, a clause
rests on the model's choice of log entries 11, 31, 32. -/
def Obligations.EstimatorCommandsComplete : Prop :=
  -- FRAME_PROCESSING_START (frameIdle)
  (∀ (s : State) (i : Nat), s.live = true → i < 8 → (((s.chip.takeInjected i).sendClosure i).est i).mode ≠ .init →
     (((s.chip.takeInjected i).sendClosure i).est i).mode ≠ .tracking →
     (((s.chip.takeInjected i).sendClosure i).est i).mode ≠ .lost →
     Does (.frameProcessingStart i) s (((s.chip.takeInjected i).sendClosure i))) ∧
  -- FRAME_PROCESSING_START (frameBegin)
  (∀ (s : State) (i : Nat), s.live = true → i < 8 → (((s.chip.takeInjected i).sendClosure i).est i).mode = .tracking →
     ((s.chip.takeInjected i).sendClosure i).computeGated = false →
     (((s.chip.takeInjected i).sendClosure i).est i).cur = none →
     Does (.frameProcessingStart i) s (((s.chip.takeInjected i).sendClosure i).beginFrame i)) ∧
  -- FRAME_PROCESSING_START (frameResume)
  (∀ (s : State) (i : Nat) (f : EstFrame), s.live = true → i < 8 →
     (((s.chip.takeInjected i).sendClosure i).est i).mode = .tracking →
     ((s.chip.takeInjected i).sendClosure i).computeGated = false →
     (((s.chip.takeInjected i).sendClosure i).est i).cur = some f → f.stage = .describe →
     Does (.frameProcessingStart i) s (((s.chip.takeInjected i).sendClosure i).describeStep i f)) ∧
  -- CLOSURE_DUE (closureMet)
  (∀ (s : State) (i tok : Nat) (q : EstClosure), s.live = true → i < 8 → (s.chip.est i).closure = some q →
     reached s.chip.posNat q.due = true → q.solved = some tok →
     Does (.closureDue i) s (((s.chip.estClosed i true).setEst i { s.chip.est i with closure := none, apply := some (tok, q), loopFlag := some s.chip.now }).dinc (entEst i 0x3030 17))) ∧
  -- CLOSURE_DUE (closureMissed)
  (∀ (s : State) (i : Nat) (q : EstClosure), s.live = true → i < 8 → (s.chip.est i).closure = some q →
     reached s.chip.posNat q.due = true → q.solved = none →
     Does (.closureDue i) s (((s.chip.estClosed i true).setEst i { s.chip.est i with closure := none, edges := (s.chip.est i).edges.filter (fun x => !(x.loop && x.first == q.first && x.second == q.second)) }).dinc (entEst i 0x3030 15))) ∧
  -- CLOSURE_DUE (closureEarly)
  (∀ (s : State) (i : Nat) (q : EstClosure), s.live = true → i < 8 → (s.chip.est i).closure = some q →
     reached s.chip.posNat q.due = false → Does (.closureDue i) s s.chip) ∧
  -- EXPORT_COMPLETE (export)
  (∀ (s : State) (i : Nat) (bs : List Byte), s.live = true → i < 8 → (s.chip.est i).snapshot = some bs →
     Does (.exportComplete i) s (let c1 := (s.chip.engineWrite (exportTensor i) 0 bs 0x0020 i).1; (c1.setEst i { c1.est i with snapshot := none }).dset (entEst i 0x3020 6) 2))

/-- Solver requests and passage runs complete with their effects. Where the manual leaves a convention open, a clause
rests on the model's choice of log entries 7, 15, 33, 34. -/
def Obligations.SolverAndArrayCommandsComplete : Prop :=
  -- SOLVER_REQUEST_START (solveStart)
  (∀ (s : State) (l : Nat) (r : SolveReq), s.live = true → s.chip.computeGated = false →
     s.chip.isRetired (.lane l) = false → (s.chip.lane l).running = some r → r.started = false → r.est = none →
     Does (.solverRequestStart l) s (s.chip.startRequest l r)) ∧
  -- SOLVER_REQUEST_START (solveStartEst)
  (∀ (s : State) (l : Nat) (r : SolveReq), s.live = true → s.chip.computeGated = false →
     s.chip.isRetired (.lane l) = false → (s.chip.lane l).running = some r → r.started = false → r.est ≠ none →
     Does (.solverRequestStart l) s (s.chip.setLane l { s.chip.lane l with running := some { r with started := true } })) ∧
  -- SOLVER_RESULT_WRITE (result)
  (∀ (s : State) (l : Nat) (r : SolveReq) (x : Tablature), s.live = true → (s.chip.lane l).running = some r →
     s.chip.canWrite l r = true → r.est = none → s.chip.tablature? r.tab = some x → s.chip.writeCheck r.voice r.result = 0 →
     Does (.solverResultWrite l) s (s.chip.writeSolved l r x)) ∧
  -- SOLVER_RESULT_WRITE (resultLost)
  (∀ (s : State) (l : Nat) (r : SolveReq) (x : Tablature), s.live = true → (s.chip.lane l).running = some r →
     s.chip.canWrite l r = true → r.est = none → s.chip.tablature? r.tab = some x → s.chip.writeCheck r.voice r.result ≠ 0 →
     Does (.solverResultWrite l) s (s.chip.failRequest l r (s.chip.writeCheck r.voice r.result))) ∧
  -- SOLVER_RESULT_WRITE (resultEst)
  (∀ (s : State) (l i f : Nat) (kind : EstSolve) (r : SolveReq), s.live = true → (s.chip.lane l).running = some r → s.chip.canWrite l r = true →
     r.est = some (i, kind, f) →
     Does (.solverResultWrite l) s (let f1 := s.chip.fresh (.estSolve i); let f2 := f1.1.fresh (.estSolve i); let f3 := f2.1.fresh (.estSolve i); let f4 := f3.1.fresh (.estSolve i); ((((f4.1.countSolved l (f1.2 % m32) (f2.2 % m32) f3.2 f4.2).closeRequest r 0 0).nextRequest l).estSolved r))) ∧
  -- SOLVER_RESULT_WRITE (resultWaits)
  (∀ (s : State) (l : Nat) (r : SolveReq), s.live = true → (s.chip.lane l).running = some r →
     s.chip.canWrite l r = false → Does (.solverResultWrite l) s s.chip) ∧
  -- FACTOR_REEVALUATION (reeval)
  (∀ (s : State) (l : Nat) (r : SolveReq), s.live = true → (s.chip.lane l).running = some r → r.est.isSome = true →
     r.started = true → s.chip.computeGated = false → r.evals + 1 < r.iterations →
     Does (.factorReevaluation l) s (s.chip.setLane l { s.chip.lane l with running := some { r with evals := r.evals + 1 } })) ∧
  -- FACTOR_REEVALUATION (reevalLast)
  (∀ (s : State) (l : Nat) (r : SolveReq), s.live = true → (s.chip.lane l).running = some r → r.iterations ≤ r.evals + 1 →
     Does (.factorReevaluation l) s s.chip) ∧
  -- RUN_PASSAGE (runPassage)
  (∀ (s : State) (v : Nat) (a : Admitted), s.live = true → v < 16 → s.chip.admits = true →
     (s.chip.voice v).admitted = some a → a.opcode = 1 → s.chip.passageCheck v a = 0 →
     Does (.runPassage v) s (let t := a.arg 8 4; let bind := a.arg 0x10 4; let ts := resolveSlots (Pass.ofBytes (s.chip.contents t)) (bindingEntries (if bind = 0 then [] else s.chip.contents bind)); (((s.chip.takeUp v).loadPassage v t).ledgerName v .ring a.tag (t :: ts.filter (· ≠ 0) ++ (if bind = 0 then [] else [bind]))).offerRun t { voice := v, tag := a.tag, cookie := a.cookie, irq := a.irq, admitted := s.chip.now, born := a.born, image := s.chip.contents t, tensors := ts })) ∧
  -- RUN_PASSAGE (runPassageBad)
  (∀ (s : State) (v : Nat) (a : Admitted), s.live = true → v < 16 → s.chip.admits = true →
     (s.chip.voice v).admitted = some a → a.opcode = 1 → s.chip.passageCheck v a ≠ 0 →
     Does (.runPassage v) s (s.chip.finish v a (s.chip.passageCheck v a) 0 0)) ∧
  -- RUN_TABLATURE (runTablature)
  (∀ (s : State) (v : Nat) (a : Admitted), s.live = true → v < 16 → s.chip.admits = true →
     (s.chip.voice v).admitted = some a → a.opcode = 2 → s.chip.solveCheck v a = 0 →
     (a.arg 0x10 8 = 0 ∨ s.chip.ledgerRoom v = true) → Does (.runTablature v) s (s.chip.acceptSolve v a)) ∧
  -- RUN_TABLATURE (runTablatureBad)
  (∀ (s : State) (v : Nat) (a : Admitted), s.live = true → v < 16 → s.chip.admits = true →
     (s.chip.voice v).admitted = some a → a.opcode = 2 → s.chip.solveCheck v a ≠ 0 →
     Does (.runTablature v) s (s.chip.finish v a (s.chip.solveCheck v a) 0 0)) ∧
  -- SOLVE_DELTA (solveDelta)
  (∀ (s : State) (v : Nat) (a : Admitted), s.live = true → v < 16 → s.chip.admits = true →
     (s.chip.voice v).admitted = some a → a.opcode = 3 → s.chip.solveCheck v a = 0 →
     (a.arg 0x10 8 = 0 ∨ s.chip.ledgerRoom v = true) → Does (.solveDelta v) s (s.chip.acceptSolve v a)) ∧
  -- SOLVE_DELTA (solveDeltaBad)
  (∀ (s : State) (v : Nat) (a : Admitted), s.live = true → v < 16 → s.chip.admits = true →
     (s.chip.voice v).admitted = some a → a.opcode = 3 → s.chip.solveCheck v a ≠ 0 →
     Does (.solveDelta v) s (s.chip.finish v a (s.chip.solveCheck v a) 0 0)) ∧
  -- PASSAGE_RUN_START (passStart)
  (∀ (s : State) (p : Nat) (q : Passage) (r : PassRun) (total : Nat) (placed : List HomePlace), s.live = true →
     s.chip.passage? p = some q → q.running = some r → s.chip.computeGated = false → r.started = false →
     s.chip.runCheck r = 0 → r.est = none → total = ((Pass.ofBytes r.image).homes.map (·.bytes)).foldl (· + ·) 0 →
     s.chip.refuses r.voice 0 total = false →
     (s.chip.evictFor r.voice 0 total).usage r.voice 0 + total ≤ (s.chip.evictFor r.voice 0 total).limitBytes r.voice 0 →
     (s.chip.evictFor r.voice 0 total).placeHomes (Pass.ofBytes r.image).homes [] = (placed, none) →
     Does (.passageRunStart p) s ((s.chip.evictFor r.voice 0 total).setPassage p { q with running := some { r with started := true, homes := placed, whole := [] } })) ∧
  -- PASSAGE_RUN_START (passStartFails)
  (∀ (s : State) (p : Nat) (q : Passage) (r : PassRun), s.live = true → s.chip.passage? p = some q → q.running = some r →
     s.chip.computeGated = false → r.started = false → s.chip.runCheck r ≠ 0 →
     Does (.passageRunStart p) s (s.chip.failRun p r (s.chip.runCheck r))) ∧
  -- OPERATOR_GRANT (grant)
  (∀ (s : State), s.live = true → s.chip.computeGated = false →
     Does .operatorGrant s (let g := s.chip.liveArrays.foldl (fun (acc : Chip × List Nat) a => ((acc.1.grantArray a 4).1, if (acc.1.grantArray a 4).2 then acc.2 ++ [a] else acc.2)) (s.chip, []); g.1.stealOps g.2)) ∧
  -- OPERATOR_END (opEnd)
  (∀ (s : State) (p j : Nat) (q : Passage) (r : PassRun) (a : ActiveOp) (o : PassOp) (out : List Byte) (sat nan : Nat),
     s.live = true → s.chip.passage? p = some q → q.running = some r → s.chip.computeGated = false →
     r.active.find? (fun a => a.op == j) = some a → (Pass.ofBytes r.image).ops[j]? = some o →
     s.chip.opFed p r (Pass.ofBytes r.image) o = true →
     (Pass.ofBytes r.image).compute o (s.chip.slotBytes r (Pass.ofBytes r.image) o.inp) (s.chip.slotBytes r (Pass.ofBytes r.image) o.wgt) (s.chip.slotBytes r (Pass.ofBytes r.image) o.bias) = (out, sat, nan) →
     Does (.operatorEnd p j) s (let w := Pass.ofBytes r.image; let quad := a.stolen || (w.home o.home).quad; let cycles := w.cost o quad * (if quad then 1 else 4); let used := (o.reads.filter (fun s => (w.slot s).role == 0 || (w.slot s).role == 2)).map (fun s => r.tensors.getD s 0); let c1 := (s.chip.setTierMem 0 (s.chip.tier0.writeBytes (r.slotAddr o.out) out)).each used Chip.useTensor; (((((c1.dinc (arrayKey a.array 5)).dadd (arrayKey a.array 8) sat).dadd (arrayKey a.array 9) nan).dadd64 (arrayKey a.array 10) cycles).dadd64 (arrayKey a.array 13) (if o.op ≤ 2 then (w.slot o.wgt).bytes else 0)).setPassage p { q with running := some { r with active := r.active.filter (fun x => x.op ≠ j), ended := r.ended ++ [j], arrays := setBit r.arrays a.array, qcycles := r.qcycles + cycles } })) ∧
  -- PASSAGE_RUN_COMPLETE (passDone)
  (∀ (s : State) (p : Nat) (q : Passage) (r : PassRun), s.live = true → s.chip.passage? p = some q → q.running = some r →
     s.chip.computeGated = false → r.started = true →
     (List.range (Pass.ofBytes r.image).ops.length).all r.ended.contains = true → r.est = none → s.chip.runCheck r = 0 →
     Does (.passageRunComplete p) s (((s.chip.takeOutputs r).closeRun r 0 r.arrays r.qcycles).nextRun p)) ∧
  -- PASSAGE_RUN_COMPLETE (passDoneEst)
  (∀ (s : State) (p i f : Nat) (d : Bool) (q : Passage) (r : PassRun), s.live = true → s.chip.passage? p = some q →
     q.running = some r → s.chip.computeGated = false → r.started = true →
     (List.range (Pass.ofBytes r.image).ops.length).all r.ended.contains = true → r.est = some (i, d, f) →
     Does (.passageRunComplete p) s ((s.chip.nextRun p).modelDone i d f r.image (s.chip.slotBytes r (Pass.ofBytes r.image) 1))) ∧
  -- PASSAGE_RUN_COMPLETE (passNotDone)
  (∀ (s : State) (p : Nat) (q : Passage) (r : PassRun), s.live = true → s.chip.passage? p = some q → q.running = some r →
     s.chip.computeGated = false → (List.range (Pass.ofBytes r.image).ops.length).all r.ended.contains = false →
     Does (.passageRunComplete p) s s.chip)

/-- Tensor moves, write-backs, relocations, ECC events and recreation complete with their effects. Where the manual leaves a convention open, a clause
rests on the model's choice of log entries 35, 55, 64. -/
def Obligations.TensorCommandsComplete : Prop :=
  -- TENSOR_MOVE_COMPLETE (moveHost)
  (∀ (s : State) (t addr : Nat) (m : Move) (x : Tensor), s.live = true →
     s.chip.moves.find? (fun m => m.tensor == t && m.cpl.isSome) = some m → s.chip.tensor? t = some x →
     s.chip.namedBeside t = false → x.lost = false → m.kind = .toHost addr →
     Does (.tensorMoveComplete t) s (((((s.chip.copyBytes x.currentAt.1 x.currentAt.2 3 addr x.size).setTensor t { x with moves := (x.moves + 1) % m32, lastUse := s.chip.posNat }).dinc (ent 0x4100 14)).dadd64 (ent 0x4100 20) x.size).moveEnds m 0)) ∧
  -- TENSOR_MOVE_COMPLETE (moveHome)
  (∀ (s : State) (t : Nat) (m : Move) (x y : Tensor), s.live = true →
     s.chip.moves.find? (fun m => m.tensor == t && m.cpl.isSome) = some m → s.chip.tensor? t = some x →
     s.chip.namedBeside t = false → x.lost = false → m.kind = .toHome → (s.chip.writeBack t).tensor? t = some y →
     Does (.tensorMoveComplete t) s (((s.chip.writeBack t).setTensor t { y.dropWork with lastUse := s.chip.posNat }).moveEnds m 0)) ∧
  -- TENSOR_MOVE_COMPLETE (moveWorkThere)
  (∀ (s : State) (t tier array : Nat) (m : Move) (x : Tensor), s.live = true →
     s.chip.moves.find? (fun m => m.tensor == t && m.cpl.isSome) = some m → s.chip.tensor? t = some x →
     s.chip.namedBeside t = false → x.lost = false → m.kind = .toWork tier array → x.work = tier →
     (tier ≠ 0 ∨ array = 0xFF ∨ array = x.array) → Does (.tensorMoveComplete t) s (s.chip.moveEnds m 0)) ∧
  -- TENSOR_MOVE_COMPLETE (moveWork)
  (∀ (s : State) (t array addr : Nat) (m : Move) (x : Tensor), s.live = true →
     s.chip.moves.find? (fun m => m.tensor == t && m.cpl.isSome) = some m → s.chip.tensor? t = some x →
     s.chip.namedBeside t = false → x.lost = false → m.kind = .toWork 1 array → x.work ≠ 1 →
     (s.chip.evictFor x.bill 1 (charge 1 x.size)).usage x.bill 1 + charge 1 x.size ≤ (s.chip.evictFor x.bill 1 (charge 1 x.size)).limitBytes x.bill 1 →
     (s.chip.evictFor x.bill 1 (charge 1 x.size)).place 1 0xFF x.size [] = some addr →
     Does (.tensorMoveComplete t) s (((s.chip.evictFor x.bill 1 (charge 1 x.size)).makeWork t 1 0xFF addr).moveEnds m 0)) ∧
  -- TENSOR_MOVE_COMPLETE (moveLost)
  (∀ (s : State) (t : Nat) (m : Move) (x : Tensor), s.live = true →
     s.chip.moves.find? (fun m => m.tensor == t && m.cpl.isSome) = some m → s.chip.tensor? t = some x →
     s.chip.namedBeside t = false → x.lost = true → Does (.tensorMoveComplete t) s (s.chip.moveEnds m 0x0A070001)) ∧
  -- STALL_MOVE (stall1)
  (∀ (s : State) (x array : Nat), s.live = true → Does (.stallMove x 1 array) s (s.chip.stallTier1 x)) ∧
  -- STALL_MOVE (stall0)
  (∀ (s : State) (x array : Nat) (q : Passage) (r : PassRun) (w : Nat × Nat), s.live = true →
     s.chip.slotWaiters x array = [w] → s.chip.passage? w.1 = some q → q.running = some r →
     Does (.stallMove x 0 array) s (s.chip.fillSlot w.1 r x w.2)) ∧
  -- WRITE_BACK_COMPLETE (writeBack)
  (∀ (s : State) (t : Nat) (m : Move) (x : Tensor), s.live = true →
     s.chip.moves.find? (fun m => m.tensor == t && m.cpl.isNone && m.kind == .toHome) = some m →
     (({ s.chip with moves := s.chip.moves.erase m } : Chip).writeBack t).tensor? t = some x →
     Does (.writeBackComplete t) s ((({ s.chip with moves := s.chip.moves.erase m } : Chip).writeBack t).setTensor t x.dropWork)) ∧
  -- RELOCATION (relocate)
  (∀ (s : State) (t tier target : Nat) (x : Tensor), s.live = true → s.chip.tensor? t = some x → (tier = 1 ∨ tier = 2) →
     x.home = tier → x.work ≠ tier → x.lost = false → x.pinTier ≠ tier → s.chip.inFlight t = false →
     s.chip.freeFor tier target x.size (x.homeAddr, charge tier x.size) = true →
     Does (.relocation t tier target) s ((s.chip.relocate t tier target).dinc (ent 0x4100 17))) ∧
  -- RELOCATION (relocateWork): a working copy
  (∀ (s : State) (t tier target : Nat) (x : Tensor), s.live = true → s.chip.tensor? t = some x → (tier = 1 ∨ tier = 2) →
     x.work = tier → x.pinTier ≠ tier → s.chip.inFlight t = false →
     s.chip.freeFor tier target x.size (x.workAddr, charge tier x.size) = true →
     Does (.relocation t tier target) s ((s.chip.relocate t tier target).dinc (ent 0x4100 17))) ∧
  -- RELOCATION (relocatePinned)
  (∀ (s : State) (t tier target : Nat) (x : Tensor), s.live = true → s.chip.tensor? t = some x → x.pinTier = tier →
     Does (.relocation t tier target) s s.chip) ∧
  -- TIER2_ECC_EVENT (ecc)
  (∀ (s : State) (address : Nat), s.live = true → s.chip.isRetired (.tier2Frame (address / 0x100000)) = false →
     Does (.tier2EccEvent address true) s ((s.chip.each (.tier2Frame (address / 0x100000) :: s.chip.alsoRetires (.tier2Frame (address / 0x100000))) (fun c u => c.retireOne u 1 address)).callWake)) ∧
  -- TIER2_ECC_EVENT (eccBad)
  (∀ (s : State) (address : Nat), s.live = true → s.chip.isRetired (.tier2Frame (address / 0x100000)) = false →
     Does (.tier2EccEvent address false) s ((s.chip.each (.tier2Frame (address / 0x100000) :: s.chip.alsoRetires (.tier2Frame (address / 0x100000))) (fun c u => c.retireOne u 2 address)).callWake)) ∧
  -- ENGINE_TENSOR_RECREATE (recreate)
  (∀ (s : State) (t : Nat) (x : Tensor) (c1 : Chip), s.live = true → s.chip.tensor? t = some x → isEngineTensor t = true →
     x.lost = true → s.chip.recreate t = some c1 → Does (.engineTensorRecreate t) s (c1.patchTensor t 0 [])) ∧
  -- ENGINE_TENSOR_RECREATE (recreateNot)
  (∀ (s : State) (t : Nat) (x : Tensor), s.live = true → s.chip.tensor? t = some x → isEngineTensor t = true →
     x.lost = true → s.chip.recreate t = none →
     Does (.engineTensorRecreate t) s (s.chip.log 0x0802 (engineBlock t).1 (engineBlock t).2 0 0)) ∧
  -- ENGINE_TENSOR_RECREATE (recreateWhole)
  (∀ (s : State) (t : Nat) (x : Tensor), s.live = true → s.chip.tensor? t = some x → x.lost = false →
     Does (.engineTensorRecreate t) s s.chip)

/-- String training, flits, replay and credits complete with their effects. A received block is read on the lane of its number
(`Chip.readBlock`: R638, R641), and each flit's clause is about the flit that it holds. Where the manual leaves a convention open,
a clause rests on the model's choice of log entries 4, 24, 36, 37. -/
def Obligations.StringCommandsComplete : Prop :=
  -- LANE_LOCK (laneSearches)
  (∀ (s : State) (p lane : Nat) (hs : List (BitVec 2)) (r : Nat × Nat), s.on = true → p < 6 → s.chip.strState p = 2 →
     (s.chip.healthy p).contains lane = true → (s.chip.str p).locked.contains lane = false →
     searchLock (tabGet (0, 0) (s.chip.str p).search lane) hs = (r, false) →
     Does (.laneLock p ⟨lane, hs⟩) s (s.chip.setStr p { s.chip.str p with search := tabSet (s.chip.str p).search lane r })) ∧
  -- LANE_LOCK (laneLock)
  (∀ (s : State) (p lane : Nat) (hs : List (BitVec 2)) (r : Nat × Nat), s.on = true → p < 6 → s.chip.strState p = 2 →
     (s.chip.healthy p).contains lane = true → (s.chip.str p).locked.contains lane = false →
     searchLock (tabGet (0, 0) (s.chip.str p).search lane) hs = (r, true) →
     (s.chip.healthy p).all (((s.chip.str p).locked ++ [lane]).contains ·) = false →
     Does (.laneLock p ⟨lane, hs⟩) s (s.chip.setStr p { s.chip.str p with search := tabSet (s.chip.str p).search lane r, locked := (s.chip.str p).locked ++ [lane], firstLock := some ((s.chip.str p).firstLock.getD s.chip.now) })) ∧
  -- LANE_LOCK (laneLockLast)
  (∀ (s : State) (p lane : Nat) (hs : List (BitVec 2)) (r : Nat × Nat), s.on = true → p < 6 → s.chip.strState p = 2 →
     (s.chip.healthy p).contains lane = true → (s.chip.str p).locked.contains lane = false →
     searchLock (tabGet (0, 0) (s.chip.str p).search lane) hs = (r, true) →
     (s.chip.healthy p).all (((s.chip.str p).locked ++ [lane]).contains ·) = true →
     Does (.laneLock p ⟨lane, hs⟩) s ((s.chip.setStr p { s.chip.str p with search := tabSet (s.chip.str p).search lane r, locked := (s.chip.str p).locked ++ [lane], firstLock := some ((s.chip.str p).firstLock.getD s.chip.now) }).setStrState p 3)) ∧
  -- LANE_LOCK_LOSS (lanesLost)
  (∀ (s : State) (p : Nat) (hs : List LaneHeaders) (w : Tab (List Bool) × List Nat), s.on = true → p < 6 →
     s.chip.strState p = 6 → (s.chip.str p).watch hs = w →
     (s.chip.str p).active.filter (w.2.contains ·) ≠ [] → (s.chip.str p).active.all (w.2.contains ·) = false →
     Does (.laneLockLoss p hs) s ((((s.chip.setStr p { s.chip.str p with windows := w.1 }).dinc (strKey p 17)).retireLanes p ((s.chip.str p).active.filter (w.2.contains ·)) 9).enterLocking p)) ∧
  -- LANE_LOCK_LOSS (allLost)
  (∀ (s : State) (p : Nat) (hs : List LaneHeaders) (w : Tab (List Bool) × List Nat), s.on = true → p < 6 →
     s.chip.strState p = 6 → (s.chip.str p).watch hs = w →
     (s.chip.str p).active.filter (w.2.contains ·) ≠ [] → (s.chip.str p).active.all (w.2.contains ·) = true →
     Does (.laneLockLoss p hs) s (((s.chip.setStr p { s.chip.str p with windows := w.1 }).dinc (strKey p 17)).setStrState p 1)) ∧
  -- LANE_LOCK_LOSS (noneLost)
  (∀ (s : State) (p : Nat) (hs : List LaneHeaders) (w : Tab (List Bool) × List Nat), s.on = true → p < 6 →
     s.chip.strState p = 6 → (s.chip.str p).watch hs = w → (s.chip.str p).active.filter (w.2.contains ·) = [] →
     Does (.laneLockLoss p hs) s (s.chip.setStr p { s.chip.str p with windows := w.1 })) ∧
  -- STRING_LOCKING (locks)
  (∀ (s : State) (p : Nat), s.on = true → p < 6 → s.chip.straps.mode = .mesh → s.chip.role p ≠ 0 →
     s.chip.board.rclkIn = true → s.chip.engine.trains = true → s.chip.strState p ≤ 1 →
     s.chip.isRetired (.string p) = false → s.chip.isRetired .meshRouter = false →
     Does (.stringLocking p) s (s.chip.enterLocking p)) ∧
  -- LOCKING_TIMEOUT (lockTimeout)
  (∀ (s : State) (p t : Nat), s.on = true → p < 6 → s.chip.strState p = 2 → (s.chip.str p).firstLock = some t →
     t + 2500000 ≤ s.chip.now →
     Does (.lockingTimeout p) s ((s.chip.retireLanes p ((s.chip.healthy p).filter (fun l => !(s.chip.str p).locked.contains l)) 9).setStrState p 3)) ∧
  -- LOCKING_TIMEOUT (lockTimeoutEarly)
  (∀ (s : State) (p t : Nat), s.on = true → p < 6 → (s.chip.str p).firstLock = some t → s.chip.now < t + 2500000 →
     Does (.lockingTimeout p) s s.chip) ∧
  -- ADDRESS_LEARN (learn)
  (∀ (s : State) (t a : Nat) (r : List Nat), s.on = true → s.chip.mesh.announcedAt = some t → s.chip.straps.mode = .mesh →
     s.chip.dget (ent 0x4810 1) = 0 → s.chip.mesh.learned = none → t + 250000 ≤ s.chip.now →
     s.chip.mesh.implied.map (·.2) = a :: r →
     Does .addressLearn s (let votes := fun (a : Nat) => s.chip.mesh.implied.countP (fun (q : Nat × Nat) => q.2 == a); { s.chip with mesh := { s.chip.mesh with learned := some (r.foldl (fun best b => if votes best < votes b then b else best) a) } })) ∧
  -- PLAN_CHECK (planNone): no TRAIN flit among the blocks
  (∀ (s : State) (p : Nat) (fs : List LaneFlit), s.on = true → p < 6 → s.chip.strState p = 3 → trainIdent fs = none →
     Does (.planCheck p fs) s (s.chip.dadd (strKey p 15) ((trainControls fs).countP (fun q => badControlBody q.2)))) ∧
  -- PLAN_CHECK (planOk)
  (∀ (s : State) (p : Nat) (fs : List LaneFlit) (f : Ident) (c1 : Chip), s.on = true → p < 6 → s.chip.strState p = 3 →
     trainIdent fs = some f →
     (s.chip.dadd (strKey p 15) ((trainControls fs).countP (fun q => badControlBody q.2))).announced p f = c1 →
     c1.planStatus p f = some 1 → Does (.planCheck p fs) s ((c1.dset (strKey p 6) 1).setStrState p 4)) ∧
  -- PLAN_CHECK (planWaits)
  (∀ (s : State) (p : Nat) (fs : List LaneFlit) (f : Ident) (c1 : Chip), s.on = true → p < 6 → s.chip.strState p = 3 →
     trainIdent fs = some f →
     (s.chip.dadd (strKey p 15) ((trainControls fs).countP (fun q => badControlBody q.2))).announced p f = c1 →
     c1.planStatus p f = none → Does (.planCheck p fs) s c1) ∧
  -- PLAN_CHECK (planBad)
  (∀ (s : State) (p st : Nat) (fs : List LaneFlit) (f : Ident) (c1 : Chip), s.on = true → p < 6 → s.chip.strState p = 3 →
     trainIdent fs = some f →
     (s.chip.dadd (strKey p 15) ((trainControls fs).countP (fun q => badControlBody q.2))).announced p f = c1 →
     c1.planStatus p f = some st → st ≠ 1 →
     Does (.planCheck p fs) s (((c1.dset (strKey p 6) st).setStrState p 7).cablePlan p st f)) ∧
  -- MISWIRED_RETRY (miswired)
  (∀ (s : State) (p : Nat), s.on = true → p < 6 → s.chip.strState p = 7 → (s.chip.str p).since + 250000000 ≤ s.chip.now →
     Does (.miswiredRetry p) s (s.chip.setStrState p 3)) ∧
  -- RATE_SWITCH (rate)
  (∀ (s : State) (p : Nat) (re : List Nat), s.on = true → p < 6 → s.chip.strState p = 4 →
     (s.chip.bothHealthy p).filter (fun l => !re.contains l) = [] →
     ((s.chip.retireLanes p [] 9).setStrState p 5).healthy p ≠ [] →
     Does (.rateSwitch p re) s ((s.chip.retireLanes p [] 9).setStrState p 5)) ∧
  -- RATE_SWITCH (rateLate)
  (∀ (s : State) (p : Nat) (re : List Nat), s.on = true → p < 6 → s.chip.strState p = 4 →
     (s.chip.str p).since + 2500000 ≤ s.chip.now →
     (((s.chip.retireLanes p ((s.chip.bothHealthy p).filter (fun l => !re.contains l)) 9).setStrState p 5).healthy p).isEmpty = false →
     Does (.rateSwitch p re) s ((s.chip.retireLanes p ((s.chip.bothHealthy p).filter (fun l => !re.contains l)) 9).setStrState p 5)) ∧
  -- LANE_TEST_COMPLETE (testDone)
  (∀ (s : State) (p : Nat) (ok : List LaneTail), s.on = true → p < 6 → s.chip.strState p = 5 →
     Does (.laneTestComplete p ok) s (s.chip.testComplete p ok)) ∧
  -- RCLK_IN_LOSS (rclkLost)
  (∀ (s : State), s.on = true → s.chip.straps.mode = .mesh →
     Does .rclkInLoss s ((((({ s.chip with board := { s.chip.board with rclkIn := false } } : Chip).each (List.range 6) (fun (c : Chip) p => if c.strState p = 0 then c else c.setStrState p 1)).dset (ent 0x4810 6) 0).dset (ent 0x4810 7) 0xFF))) ∧
  -- RCLK_IN_LOSS (rclkLostField)
  (∀ (s : State), s.on = true → s.chip.straps.mode ≠ .mesh →
     Does .rclkInLoss s ({ s.chip with board := { s.chip.board with rclkIn := false } })) ∧
  -- RCLK_IN_RETURN (rclkBack)
  (∀ (s : State), s.on = true →
     Does .rclkInReturn s (({ s.chip with board := { s.chip.board with rclkIn := true } } : Chip).each (List.range 6) Chip.stringLocks)) ∧
  -- RT_ALIGN (rtFirst): RT becomes the far end's RT_SENT, half of the round trip and the cycles since the flit came in
  (∀ (s : State) (p sent echo turn elapsed : Nat), s.on = true → p < 6 → s.chip.rtQualifies p = true →
     (s.chip.dset (strKey p 10) (Nat.min (s.chip.roundTrip echo turn elapsed) 0xFFFF)).dget (ent 0x4810 6) = 0 →
     Does (.rtAlign p ⟨sent, echo, turn⟩ elapsed) s (((({ (s.chip.dset (strKey p 10) (Nat.min (s.chip.roundTrip echo turn elapsed) 0xFFFF)) with mesh := { s.chip.mesh with rtBase := ((sent + s.chip.roundTrip echo turn elapsed / 2 + elapsed) % 2 ^ 48), rtAt := s.chip.now } } : Chip).dset (ent 0x4810 6) 1).dset (ent 0x4810 7) p))) ∧
  -- RT_ALIGN (rtOther)
  (∀ (s : State) (p sent echo turn elapsed : Nat), s.on = true → p < 6 → s.chip.rtQualifies p = false →
     Does (.rtAlign p ⟨sent, echo, turn⟩ elapsed) s s.chip) ∧
  -- TRAIN_FLIT_RECEIVED (train)
  (∀ (s : State) (p : Nat) (b : LaneBlock) (c1 : Chip) (body : List Byte), s.on = true → p < 6 → s.chip.strState p = 6 →
     s.chip.readBlock p b = (c1, .control body) → badControlBody body = false → fieldAt body 28 1 = 1 →
     Does (.trainFlitReceived ⟨p, b⟩) s (c1.enterLocking p)) ∧
  -- TRAIN_FLIT_RECEIVED (idle): an IDLE flit is read and does nothing else
  (∀ (s : State) (p : Nat) (b : LaneBlock) (c1 : Chip) (body : List Byte), s.on = true → p < 6 → s.chip.strState p = 6 →
     s.chip.readBlock p b = (c1, .control body) → badControlBody body = false → fieldAt body 28 1 = 0 →
     Does (.trainFlitReceived ⟨p, b⟩) s c1) ∧
  -- DATA_FLIT_RECEIVED (flit)
  (∀ (s : State) (p : Nat) (b : LaneBlock) (c1 : Chip) (body : List Byte), s.on = true → p < 6 → s.chip.strState p = 6 →
     s.chip.readBlock p b = (c1, .data body) → goodBody (seqBytes (s.chip.str p).rxSeq) body = true →
     (s.chip.str p).discarding = false → (s.chip.str p).dups = 0 → (s.chip.str p).toAck < 63 →
     Does (.dataFlitReceived p b.header b.body) s (((c1.dadd64 (strKey p 14) 1).setStr p { c1.str p with rxSeq := ((c1.str p).rxSeq + 1) % m32, toAck := (c1.str p).toAck + 1 }).assemble p (fieldAt body 28 1) (body.take 28))) ∧
  -- DATA_FLIT_RECEIVED (flitAck)
  (∀ (s : State) (p : Nat) (b : LaneBlock) (c1 : Chip) (body : List Byte), s.on = true → p < 6 → s.chip.strState p = 6 →
     s.chip.readBlock p b = (c1, .data body) → goodBody (seqBytes (s.chip.str p).rxSeq) body = true →
     (s.chip.str p).discarding = false → (s.chip.str p).dups = 0 → 63 ≤ (s.chip.str p).toAck →
     Does (.dataFlitReceived p b.header b.body) s ((((c1.dadd64 (strKey p 14) 1).setStr p { c1.str p with rxSeq := ((c1.str p).rxSeq + 1) % m32, toAck := (c1.str p).toAck + 1 }).assemble p (fieldAt body 28 1) (body.take 28)).sendAck p)) ∧
  -- DATA_FLIT_RECEIVED (flitBad)
  (∀ (s : State) (p : Nat) (b : LaneBlock) (c1 : Chip) (body : List Byte), s.on = true → p < 6 → s.chip.strState p = 6 →
     (s.chip.str p).discarding = false → (s.chip.str p).dups = 0 → s.chip.readBlock p b = (c1, .data body) →
     goodBody (seqBytes (s.chip.str p).rxSeq) body = false →
     Does (.dataFlitReceived p b.header b.body) s (((c1.dinc (strKey p 15)).setStr p { c1.str p with discarding := true }).sendControl p 3 [(s.chip.str p).rxSeq])) ∧
  -- DATA_FLIT_RECEIVED (flitInvalid): an invalid header
  (∀ (s : State) (p : Nat) (b : LaneBlock) (c1 : Chip), s.on = true → p < 6 → s.chip.strState p = 6 →
     (s.chip.str p).discarding = false → (s.chip.str p).dups = 0 → s.chip.readBlock p b = (c1, .invalid) →
     Does (.dataFlitReceived p b.header b.body) s (((c1.dinc (strKey p 15)).setStr p { c1.str p with discarding := true }).sendControl p 3 [(s.chip.str p).rxSeq])) ∧
  -- DATA_FLIT_RECEIVED (flitDropped)
  (∀ (s : State) (p : Nat) (b : LaneBlock) (c1 : Chip) (body : List Byte), s.on = true → p < 6 → s.chip.strState p = 6 →
     (s.chip.str p).discarding = true → s.chip.readBlock p b = (c1, .data body) → Does (.dataFlitReceived p b.header b.body) s c1) ∧
  -- DATA_FLIT_RECEIVED (flitDup)
  (∀ (s : State) (p : Nat) (b : LaneBlock) (c1 : Chip) (body : List Byte), s.on = true → p < 6 → s.chip.strState p = 6 →
     (s.chip.str p).discarding = false → 0 < (s.chip.str p).dups → s.chip.readBlock p b = (c1, .data body) →
     Does (.dataFlitReceived p b.header b.body) s (c1.setStr p { c1.str p with dups := (s.chip.str p).dups - 1 })) ∧
  -- NACK (nack)
  (∀ (s : State) (p : Nat) (b : LaneBlock) (c1 : Chip) (body : List Byte), s.on = true → p < 6 → s.chip.strState p = 6 →
     s.chip.readBlock p b = (c1, .control body) → badControlBody body = false → fieldAt body 28 1 = 3 →
     Does (.nack p b) s ((c1.dinc (strKey p 16)).replayFrom p (fieldAt body 0 4))) ∧
  -- REPLAY (replay)
  (∀ (s : State) (p : Nat) (b : LaneBlock) (c1 : Chip) (body : List Byte), s.on = true → p < 6 → s.chip.strState p = 6 →
     s.chip.readBlock p b = (c1, .control body) → badControlBody body = false → fieldAt body 28 1 = 4 →
     laterMod m32 (fieldAt body 0 4) (s.chip.str p).rxSeq = false →
     Does (.replay p b) s (c1.setStr p { c1.str p with discarding := false, dups := ((s.chip.str p).rxSeq + m32 - fieldAt body 0 4 % m32) % m32 })) ∧
  -- REPLAY (replayAhead)
  (∀ (s : State) (p : Nat) (b : LaneBlock) (c1 : Chip) (body : List Byte), s.on = true → p < 6 → s.chip.strState p = 6 →
     s.chip.readBlock p b = (c1, .control body) → badControlBody body = false → fieldAt body 28 1 = 4 →
     laterMod m32 (fieldAt body 0 4) (s.chip.str p).rxSeq = true →
     Does (.replay p b) s (c1.sendControl p 3 [(s.chip.str p).rxSeq])) ∧
  -- ACK (ack)
  (∀ (s : State) (p : Nat) (b : LaneBlock) (c1 : Chip) (body : List Byte) (kept : List SentFlit), s.on = true → p < 6 →
     s.chip.strState p = 6 → s.chip.readBlock p b = (c1, .control body) → badControlBody body = false →
     fieldAt body 28 1 = 2 → (s.chip.str p).retry.filter (fun f => laterMod m32 f.seq (fieldAt body 0 4)) = kept →
     Does (.ack p b) s ((c1.setStr p { c1.str p with retry := kept, replayed := if kept.length < (s.chip.str p).retry.length then none else (s.chip.str p).replayed }).drain p)) ∧
  -- ACK_SEND (ackSend)
  (∀ (s : State) (p : Nat), s.on = true → p < 6 → s.chip.strState p = 6 → (s.chip.str p).toAck ≠ 0 →
     Does (.ackSend p) s (s.chip.sendAck p)) ∧
  -- REPLAY_TIMEOUT (replayTimeout)
  (∀ (s : State) (p : Nat) (f : SentFlit) (r : List SentFlit), s.on = true → p < 6 → s.chip.strState p = 6 →
     (s.chip.str p).retry = f :: r → f.at_ + 1000 ≤ s.chip.now →
     Does (.replayTimeout p) s ((s.chip.dinc (strKey p 16)).replayFrom p f.seq)) ∧
  -- CREDIT (credit)
  (∀ (s : State) (p : Nat) (b : LaneBlock) (c1 : Chip) (body : List Byte), s.on = true → p < 6 → s.chip.strState p = 6 →
     s.chip.readBlock p b = (c1, .control body) → badControlBody body = false → fieldAt body 28 1 = 5 →
     Does (.credit p b) s ((c1.setStr p { c1.str p with freed := (List.range 4).map (fun k => fieldAt body (2 * k) 2 % 0x10000) }).drain p)) ∧
  -- CREDIT_SEND (creditSend)
  (∀ (s : State) (p : Nat), s.on = true → p < 6 → s.chip.strState p = 6 →
     Does (.creditSend p) s ((s.chip.setStr p { s.chip.str p with reported := (s.chip.str p).freedHere, reportedAt := s.chip.now }).sendControl p 5 (s.chip.str p).freedHere)) ∧
  -- NO_NEIGHBOUR (noNeighbour)
  (∀ (s : State) (p : Nat), s.on = true → p < 6 → s.chip.strState p = 2 → s.chip.role p = 1 → (s.chip.str p).locked = [] →
     (s.chip.str p).since + 25000000 ≤ s.chip.now → Does (.noNeighbour p) s (s.chip.dset (strKey p 6) 2)) ∧
  -- BAD_CONTROL_FLIT (badControl)
  (∀ (s : State) (p : Nat) (b : LaneBlock) (c1 : Chip) (body : List Byte), s.on = true → p < 6 → s.chip.strState p = 6 →
     s.chip.readBlock p b = (c1, .control body) → badControlBody body = true →
     Does (.badControlFlit ⟨p, b⟩) s (c1.dinc (strKey p 15)))

/-- Routed packets and the mesh services complete with their effects. Where the manual leaves a convention open, a clause
rests on the model's choice of log entries 38, 39, 49. -/
def Obligations.MeshPacketsComplete : Prop :=
  -- EPOCH_PACKET (epochRecord)
  (∀ (s : State) (k : Packet) (c1 : Chip), s.on = true → s.chip.atInput k = true → s.chip.route k = (c1, .mine) →
     s.chip.engine ≠ .faulted → k.ptype = 1 → c1.epoch.active = some 0x30 → c1.dget (ent 0x4810 6) = 1 →
     laterMod (2 ^ 48) c1.rt (fieldAt (s.chip.stamped k).payload 8 6) = false →
     Does (.epochPacket k) s (let d := c1.dinc (ent 0x4810 9); { d with mesh := { d.mesh with records := d.mesh.records ++ [(fieldAt (s.chip.stamped k).payload 0 8, (s.chip.stamped k).arg, fieldAt (s.chip.stamped k).payload 8 6, none)] } })) ∧
  -- EPOCH_PACKET (epochLate)
  (∀ (s : State) (k : Packet) (c1 : Chip), s.on = true → s.chip.atInput k = true → s.chip.route k = (c1, .mine) →
     s.chip.engine ≠ .faulted → k.ptype = 1 → c1.epoch.active = some 0x30 → c1.dget (ent 0x4810 6) = 0 →
     Does (.epochPacket k) s (let d := (c1.dinc (ent 0x4810 9)).dinc (ent 0x4810 10); { d with mesh := { d.mesh with records := d.mesh.records ++ [(fieldAt (s.chip.stamped k).payload 0 8, (s.chip.stamped k).arg, fieldAt (s.chip.stamped k).payload 8 6, some c1.now)] } })) ∧
  -- EPOCH_PACKET (epochOther)
  (∀ (s : State) (k : Packet) (c1 : Chip), s.on = true → s.chip.atInput k = true → s.chip.route k = (c1, .mine) →
     s.chip.engine ≠ .faulted → k.ptype = 1 → c1.epoch.active ≠ some 0x30 → c1.epoch.pendingSource ≠ some 0x30 →
     Does (.epochPacket k) s (c1.dinc (routeKey 8))) ∧
  -- EPOCH_RECORD_APPLY (recordsApply)
  (∀ (s : State), s.on = true →
     Does .epochRecordApply s (({ s.chip with mesh := { s.chip.mesh with records := s.chip.mesh.records.filter (fun r => !s.chip.recordDue r) } } : Chip).each (s.chip.mesh.records.filter s.chip.recordDue) Chip.applyRecord)) ∧
  -- LULL_ARRIVE (lullArrive)
  (∀ (s : State) (k : Packet) (c1 : Chip), s.on = true → s.chip.atInput k = true → s.chip.route k = (c1, .mine) →
     s.chip.engine ≠ .faulted → k.ptype = 2 →
     Does (.lullArrive k) s (c1.arrival (s.chip.stamped k).src (s.chip.stamped k).arg)) ∧
  -- LULL_RELEASE (lullRelease)
  (∀ (s : State) (k : Packet) (c1 : Chip), s.on = true → s.chip.atInput k = true → s.chip.route k = (c1, .mine) →
     s.chip.engine ≠ .faulted → k.ptype = 3 →
     Does (.lullRelease k) s (c1.releaseArrived (s.chip.stamped k).arg (s.chip.stamped k).tag)) ∧
  -- ROUTE_FAIL_RECEIVED (routeFail)
  (∀ (s : State) (k : Packet) (c1 : Chip), s.on = true → s.chip.atInput k = true → s.chip.route k = (c1, .mine) →
     s.chip.engine ≠ .faulted → k.ptype = 4 →
     Does (.routeFailReceived k) s ((c1.dinc (routeKey 11)).packetLost (fieldAt (s.chip.stamped k).payload 6 1) (fieldAt (s.chip.stamped k).payload 0 2) (fieldAt (s.chip.stamped k).payload 12 2))) ∧
  -- OPEN (openAgain)
  (∀ (s : State) (k : Packet) (c1 : Chip), s.on = true → s.chip.atInput k = true → s.chip.route k = (c1, .mine) →
     s.chip.engine ≠ .faulted → k.ptype = 16 → c1.tunnelVoice (s.chip.stamped k) = true →
     ((c1.setTunnel (s.chip.stamped k).tag { c1.tunnel (s.chip.stamped k).tag with origin := some ((s.chip.stamped k).src, (s.chip.stamped k).entry) }).voice (s.chip.stamped k).tag).state ≠ .idle →
     ((c1.setTunnel (s.chip.stamped k).tag { c1.tunnel (s.chip.stamped k).tag with origin := some ((s.chip.stamped k).src, (s.chip.stamped k).entry) }).voice (s.chip.stamped k).tag).resetDrain = false →
     Does (.openTunnel k) s (c1.setTunnel (s.chip.stamped k).tag { c1.tunnel (s.chip.stamped k).tag with origin := some ((s.chip.stamped k).src, (s.chip.stamped k).entry) })) ∧
  -- OPEN (open)
  (∀ (s : State) (k : Packet) (c1 : Chip), s.on = true → s.chip.atInput k = true → s.chip.route k = (c1, .mine) →
     s.chip.engine ≠ .faulted → k.ptype = 16 → c1.tunnelVoice (s.chip.stamped k) = true →
     ((c1.setTunnel (s.chip.stamped k).tag { c1.tunnel (s.chip.stamped k).tag with origin := some ((s.chip.stamped k).src, (s.chip.stamped k).entry) }).voice (s.chip.stamped k).tag).state = .idle →
     ((c1.setTunnel (s.chip.stamped k).tag { c1.tunnel (s.chip.stamped k).tag with origin := some ((s.chip.stamped k).src, (s.chip.stamped k).entry) }).voice (s.chip.stamped k).tag).resetDrain = false →
     Does (.openTunnel k) s (let d := c1.setTunnel (s.chip.stamped k).tag { c1.tunnel (s.chip.stamped k).tag with origin := some ((s.chip.stamped k).src, (s.chip.stamped k).entry) }; (d.setVoice (s.chip.stamped k).tag { d.voice (s.chip.stamped k).tag with queue := [], tags := 0 }).ringStart (s.chip.stamped k).tag)) ∧
  -- OPEN (openDrain): in the drain of the voice's reset the ring opens once the drain ends
  (∀ (s : State) (k : Packet) (c1 d : Chip), s.on = true → s.chip.atInput k = true → s.chip.route k = (c1, .mine) →
     s.chip.engine ≠ .faulted → k.ptype = 16 → c1.tunnelVoice (s.chip.stamped k) = true →
     (c1.tunnel (s.chip.stamped k).tag).opened = false →
     c1.setTunnel (s.chip.stamped k).tag { c1.tunnel (s.chip.stamped k).tag with origin := some ((s.chip.stamped k).src, (s.chip.stamped k).entry) } = d →
     (d.voice (s.chip.stamped k).tag).resetDrain = true →
     Does (.openTunnel k) s ((d.setTunnel (s.chip.stamped k).tag { d.tunnel (s.chip.stamped k).tag with opened := true }).setVoice (s.chip.stamped k).tag { d.voice (s.chip.stamped k).tag with queue := [], tags := 0 })) ∧
  -- OPEN (openOther)
  (∀ (s : State) (k : Packet) (c1 : Chip), s.on = true → s.chip.atInput k = true → s.chip.route k = (c1, .mine) →
     s.chip.engine ≠ .faulted → k.ptype = 16 → c1.tunnelVoice (s.chip.stamped k) = false →
     Does (.openTunnel k) s (c1.dinc (routeKey 8))) ∧
  -- TUNNEL_COMMAND (command)
  (∀ (s : State) (k : Packet) (c1 : Chip), s.on = true → s.chip.atInput k = true → s.chip.route k = (c1, .mine) →
     s.chip.engine ≠ .faulted → k.ptype = 17 → c1.fromOrigin (s.chip.stamped k) = true →
     (c1.callWake.voice (s.chip.stamped k).tag).queue.length < 256 →
     (c1.callWake.voice (s.chip.stamped k).tag).ringEnable = true →
     Does (.tunnelCommand k) s (c1.callWake.takeCommand (s.chip.stamped k).tag (s.chip.stamped k).payload)) ∧
  -- TUNNEL_COMMAND (commandOther)
  (∀ (s : State) (k : Packet) (c1 : Chip), s.on = true → s.chip.atInput k = true → s.chip.route k = (c1, .mine) →
     s.chip.engine ≠ .faulted → k.ptype = 17 → c1.fromOrigin (s.chip.stamped k) = false →
     Does (.tunnelCommand k) s (c1.dinc (routeKey 8))) ∧
  -- DICT_REQ (dictReqRead)
  (∀ (s : State) (k : Packet) (c1 : Chip) (idx sub : Nat), s.on = true → s.chip.atInput k = true →
     s.chip.route k = (c1, .mine) → k.ptype = 19 → c1.fromOrigin (s.chip.stamped k) = true → c1.silent = false →
     (c1.tunnel (s.chip.stamped k).tag).lastReq ≠ some ((s.chip.stamped k).arg, (s.chip.stamped k).payload) →
     fieldAt (s.chip.stamped k).payload 0 1 = 1 → idx = fieldAt (s.chip.stamped k).payload 2 2 →
     sub = fieldAt (s.chip.stamped k).payload 1 1 →
     Does (.dictReq k) s (let r := ((c1.setTunnel (s.chip.stamped k).tag { c1.tunnel (s.chip.stamped k).tag with lastReq := some ((s.chip.stamped k).arg, (s.chip.stamped k).payload), lastRsp := [] }).callWake).dictRead (s.chip.stamped k).tag idx sub; (((c1.setTunnel (s.chip.stamped k).tag { c1.tunnel (s.chip.stamped k).tag with lastReq := some ((s.chip.stamped k).arg, (s.chip.stamped k).payload), lastRsp := [] }).callWake).noteReply (s.chip.stamped k).tag 1 idx sub r.1 r.2).tunnelAnswer (s.chip.stamped k).tag ((s.chip.stamped k).arg % 0x10000) r.1 (if r.1 = 0 then r.2 else []))) ∧
  -- DICT_REQ (dictReqDescribe)
  (∀ (s : State) (k : Packet) (c1 : Chip) (idx sub : Nat), s.on = true → s.chip.atInput k = true →
     s.chip.route k = (c1, .mine) → k.ptype = 19 → c1.fromOrigin (s.chip.stamped k) = true → c1.silent = false →
     (c1.tunnel (s.chip.stamped k).tag).lastReq ≠ some ((s.chip.stamped k).arg, (s.chip.stamped k).payload) →
     fieldAt (s.chip.stamped k).payload 0 1 = 4 → idx = fieldAt (s.chip.stamped k).payload 2 2 →
     sub = fieldAt (s.chip.stamped k).payload 1 1 →
     Does (.dictReq k) s (let r := ((c1.setTunnel (s.chip.stamped k).tag { c1.tunnel (s.chip.stamped k).tag with lastReq := some ((s.chip.stamped k).arg, (s.chip.stamped k).payload), lastRsp := [] }).callWake).dictDescribe (s.chip.stamped k).tag idx sub; (((c1.setTunnel (s.chip.stamped k).tag { c1.tunnel (s.chip.stamped k).tag with lastReq := some ((s.chip.stamped k).arg, (s.chip.stamped k).payload), lastRsp := [] }).callWake).noteReply (s.chip.stamped k).tag 4 idx sub r.1 r.2).tunnelAnswer (s.chip.stamped k).tag ((s.chip.stamped k).arg % 0x10000) r.1 (if r.1 = 0 then r.2 else []))) ∧
  -- DICT_REQ (dictReqWrite)
  (∀ (s : State) (k : Packet) (c1 : Chip), s.on = true → s.turn k.tag ⟨5, 0⟩ = true → s.chip.atInput k = true → s.chip.route k = (c1, .mine) →
     k.ptype = 19 → c1.fromOrigin (s.chip.stamped k) = true → c1.silent = false →
     (c1.tunnel (s.chip.stamped k).tag).lastReq ≠ some ((s.chip.stamped k).arg, (s.chip.stamped k).payload) →
     fieldAt (s.chip.stamped k).payload 0 1 = 2 →
     Does (.dictReq k) s ((c1.setTunnel (s.chip.stamped k).tag { c1.tunnel (s.chip.stamped k).tag with lastReq := some ((s.chip.stamped k).arg, (s.chip.stamped k).payload), lastRsp := [] }).submit { voice := (s.chip.stamped k).tag, via := ⟨5, (s.chip.stamped k).arg % 0x10000⟩, idx := fieldAt (s.chip.stamped k).payload 2 2, sub := fieldAt (s.chip.stamped k).payload 1 1, data := (s.chip.stamped k).payload.drop 4 })) ∧
  -- DMA_DATA (dma)
  (∀ (s : State) (k : Packet) (c1 : Chip) (d : DmaReq), s.on = true → s.chip.atInput k = true →
     s.chip.route k = (c1, .mine) → s.chip.engine ≠ .faulted → k.ptype = 22 → c1.fromOrigin (s.chip.stamped k) = true →
     c1.mesh.dma.find? (fun d => d.voice == (s.chip.stamped k).tag && d.id == (s.chip.stamped k).arg) = some d →
     fieldAt (s.chip.stamped k).payload 0 4 = 0 →
     Does (.dmaData k) s ({ ({ c1 with mesh := { c1.mesh with dma := c1.mesh.dma.erase d } } : Chip) with hostMem := c1.hostMem.writeBytes d.addr (((s.chip.stamped k).payload.drop 4).take d.len), mesh := { ({ c1 with mesh := { c1.mesh with dma := c1.mesh.dma.erase d } } : Chip).mesh with answered := c1.mesh.answered ++ [((s.chip.stamped k).tag, d.addr, d.len)] } })) ∧
  -- DMA_DATA (dmaFailed)
  (∀ (s : State) (k : Packet) (c1 : Chip) (d : DmaReq), s.on = true → s.chip.atInput k = true →
     s.chip.route k = (c1, .mine) → s.chip.engine ≠ .faulted → k.ptype = 22 → c1.fromOrigin (s.chip.stamped k) = true →
     c1.mesh.dma.find? (fun d => d.voice == (s.chip.stamped k).tag && d.id == (s.chip.stamped k).arg) = some d →
     fieldAt (s.chip.stamped k).payload 0 4 ≠ 0 →
     Does (.dmaData k) s (({ c1 with mesh := { c1.mesh with dma := c1.mesh.dma.erase d } } : Chip).hostFailure (s.chip.stamped k).tag 3)) ∧
  -- STORE_DATA (store)
  (∀ (s : State) (k : Packet) (c1 : Chip) (d : DmaReq), s.on = true → s.chip.atInput k = true →
     s.chip.route k = (c1, .mine) → s.chip.engine ≠ .faulted → k.ptype = 49 →
     c1.mesh.dma.find? (fun d => d.voice == (s.chip.stamped k).tag && d.id == (s.chip.stamped k).arg) = some d →
     fieldAt (s.chip.stamped k).payload 0 4 = 0 →
     Does (.storeData k) s ({ ({ c1 with mesh := { c1.mesh with dma := c1.mesh.dma.erase d } } : Chip) with hostMem := c1.hostMem.writeBytes d.addr (((s.chip.stamped k).payload.drop 4).take d.len), mesh := { ({ c1 with mesh := { c1.mesh with dma := c1.mesh.dma.erase d } } : Chip).mesh with answered := c1.mesh.answered ++ [((s.chip.stamped k).tag, d.addr, d.len)] } })) ∧
  -- STORE_DATA (storeFailed)
  (∀ (s : State) (k : Packet) (c1 : Chip) (d : DmaReq), s.on = true → s.chip.atInput k = true →
     s.chip.route k = (c1, .mine) → s.chip.engine ≠ .faulted → k.ptype = 49 →
     c1.mesh.dma.find? (fun d => d.voice == (s.chip.stamped k).tag && d.id == (s.chip.stamped k).arg) = some d →
     fieldAt (s.chip.stamped k).payload 0 4 ≠ 0 →
     Does (.storeData k) s (({ c1 with mesh := { c1.mesh with dma := c1.mesh.dma.erase d } } : Chip).hostFailure (s.chip.stamped k).tag 3)) ∧
  -- DMA_TIMEOUT (dmaTimeout)
  (∀ (s : State) (v id : Nat) (d : DmaReq), s.on = true →
     s.chip.mesh.dma.find? (fun d => d.voice == v && d.id == id) = some d → d.at_ + 250000 ≤ s.chip.now →
     Does (.dmaTimeout v id) s ((({ s.chip with mesh := { s.chip.mesh with dma := s.chip.mesh.dma.erase d } } : Chip).hostFailure v 3))) ∧
  -- DMA_TIMEOUT (dmaTimeoutEarly)
  (∀ (s : State) (v id : Nat) (d : DmaReq), s.on = true →
     s.chip.mesh.dma.find? (fun d => d.voice == v && d.id == id) = some d → s.chip.now < d.at_ + 250000 →
     Does (.dmaTimeout v id) s s.chip) ∧
  -- CAM_DATA (camData)
  (∀ (s : State) (k : Packet) (c1 : Chip), s.on = true → s.chip.atInput k = true → s.chip.route k = (c1, .mine) →
     s.chip.engine ≠ .faulted → k.ptype = 32 → (s.chip.stamped k).tag < 6 → c1.dget (camKey (s.chip.stamped k).tag 34) = 1 →
     (c1.camOn (s.chip.stamped k).tag = false ∨ c1.gated = true) →
     Does (.camData k) s (c1.dinc (camKey (s.chip.stamped k).tag 45))) ∧
  -- CAM_DATA (camDataKept)
  (∀ (s : State) (k : Packet) (c1 : Chip) (n : Nat) (rows : Nat × Nat), s.on = true → s.chip.atInput k = true →
     s.chip.route k = (c1, .mine) → s.chip.engine ≠ .faulted → k.ptype = 32 → (s.chip.stamped k).tag < 6 →
     c1.dget (camKey (s.chip.stamped k).tag 34) = 1 → c1.camOn (s.chip.stamped k).tag = true → c1.gated = false →
     c1.camWidth (s.chip.stamped k).tag * pixelBytes (c1.dget (camKey (s.chip.stamped k).tag 5)) = n →
     c1.openRows (s.chip.stamped k).tag (fieldAt (s.chip.stamped k).payload 0 4) = rows →
     rows.1 * n ≤ fieldAt (s.chip.stamped k).payload 4 4 →
     fieldAt (s.chip.stamped k).payload 4 4 + ((s.chip.stamped k).payload.drop 8).length ≤ rows.2 * n →
     (s.chip.stamped k).payload.drop 8 ≠ [] →
     Does (.camData k) s (c1.setCam (s.chip.stamped k).tag { c1.cam (s.chip.stamped k).tag with chunks := (c1.cam (s.chip.stamped k).tag).chunks ++ [{ frame := fieldAt (s.chip.stamped k).payload 0 4, offset := fieldAt (s.chip.stamped k).payload 4 4, bytes := (s.chip.stamped k).payload.drop 8 }] })) ∧
  -- IMU_SAMPLES (imu)
  (∀ (s : State) (k : Packet) (c1 : Chip), s.on = true → s.chip.atInput k = true → s.chip.route k = (c1, .mine) →
     s.chip.engine ≠ .faulted → k.ptype = 33 → (s.chip.stamped k).tag < 16 → c1.dget (inKey (s.chip.stamped k).tag 2) = 2 →
     c1.gated = false →
     Does (.imuSamples k) s (c1.setChan (s.chip.stamped k).tag { c1.chan (s.chip.stamped k).tag with virt := (c1.chan (s.chip.stamped k).tag).virt ++ samplesOf (s.chip.stamped k).payload })) ∧
  -- IMU_SAMPLES (imuOther)
  (∀ (s : State) (k : Packet) (c1 : Chip), s.on = true → s.chip.atInput k = true → s.chip.route k = (c1, .mine) →
     s.chip.engine ≠ .faulted → k.ptype = 33 →
     (16 ≤ (s.chip.stamped k).tag ∨ c1.dget (inKey (s.chip.stamped k).tag 2) ≠ 2 ∨ c1.gated = true) →
     Does (.imuSamples k) s c1) ∧
  -- INJECT_LIST (listPart)
  (∀ (s : State) (k : Packet) (c1 : Chip), s.on = true → s.chip.atInput k = true → s.chip.route k = (c1, .mine) →
     s.chip.engine ≠ .faulted → k.ptype = 34 → (s.chip.stamped k).tag < 8 → c1.eget (s.chip.stamped k).tag 0x3000 9 = 1 →
     c1.gated = false →
     listWhole ((c1.est (s.chip.stamped k).tag).parts ++ [(fieldAt (s.chip.stamped k).payload 0 4, (s.chip.stamped k).payload.drop 8)]) (fieldAt (s.chip.stamped k).payload 4 4) = false →
     Does (.injectList k) s (c1.setEst (s.chip.stamped k).tag { c1.est (s.chip.stamped k).tag with parts := ((c1.est (s.chip.stamped k).tag).parts ++ [(fieldAt (s.chip.stamped k).payload 0 4, (s.chip.stamped k).payload.drop 8)]) })) ∧
  -- INJECT_LIST (listWhole)
  (∀ (s : State) (k : Packet) (c1 : Chip), s.on = true → s.chip.atInput k = true → s.chip.route k = (c1, .mine) →
     s.chip.engine ≠ .faulted → k.ptype = 34 → (s.chip.stamped k).tag < 8 → c1.eget (s.chip.stamped k).tag 0x3000 9 = 1 →
     c1.gated = false →
     listWhole ((c1.est (s.chip.stamped k).tag).parts ++ [(fieldAt (s.chip.stamped k).payload 0 4, (s.chip.stamped k).payload.drop 8)]) (fieldAt (s.chip.stamped k).payload 4 4) = true →
     fieldAt ((joinChunks ((c1.est (s.chip.stamped k).tag).parts ++ [(fieldAt (s.chip.stamped k).payload 0 4, (s.chip.stamped k).payload.drop 8)])).take (fieldAt (s.chip.stamped k).payload 4 4)) 0 4 = 0x46544C53 →
     goodInject ((joinChunks ((c1.est (s.chip.stamped k).tag).parts ++ [(fieldAt (s.chip.stamped k).payload 0 4, (s.chip.stamped k).payload.drop 8)])).take (fieldAt (s.chip.stamped k).payload 4 4)) = true →
     Does (.injectList k) s ((c1.setEst (s.chip.stamped k).tag { c1.est (s.chip.stamped k).tag with parts := [] }).estInject (s.chip.stamped k).tag ((joinChunks ((c1.est (s.chip.stamped k).tag).parts ++ [(fieldAt (s.chip.stamped k).payload 0 4, (s.chip.stamped k).payload.drop 8)])).take (fieldAt (s.chip.stamped k).payload 4 4)))) ∧
  -- INJECT_RECORDS (records)
  (∀ (s : State) (k : Packet) (c1 : Chip), s.on = true → s.chip.atInput k = true → s.chip.route k = (c1, .mine) →
     s.chip.engine ≠ .faulted → k.ptype = 35 → (s.chip.stamped k).tag < 8 → c1.eget (s.chip.stamped k).tag 0x3000 9 = 1 →
     c1.gated = false →
     Does (.injectRecords k) s (let f := c1.fresh .injected; f.1.setEst (s.chip.stamped k).tag { f.1.est (s.chip.stamped k).tag with records := (f.1.est (s.chip.stamped k).tag).records ++ recordsOf (f.2 % 16) (s.chip.stamped k).payload ((s.chip.stamped k).payload.length / 32) })) ∧
  -- PACKET_ROUTE (routeGone)
  (∀ (s : State) (k : Packet) (c1 : Chip), s.on = true → s.chip.atInput k = true → s.chip.route k = (c1, .gone) →
     Does (.packetRoute k) s c1) ∧
  -- PACKET_ROUTE (routeFailed)
  (∀ (s : State) (k : Packet) (c1 : Chip), s.on = true → s.chip.atInput k = true → s.chip.route k = (c1, .failed) →
     Does (.packetRoute k) s (c1.packetLost k.ptype k.dest k.tag)) ∧
  -- PACKET_ROUTE (routeMine)
  (∀ (s : State) (k : Packet) (c1 : Chip), s.on = true → s.chip.atInput k = true → s.chip.route k = (c1, .mine) →
     s.chip.engine ≠ .faulted → Does (.packetRoute k) s (c1.serve (s.chip.stamped k))) ∧
  -- PACKET_ROUTE (routeNone)
  (∀ (s : State) (k : Packet), s.on = true → s.chip.atInput k = false → Does (.packetRoute k) s s.chip)

/-- Breeze slots, frames, beacons and acknowledgements complete with their effects. Where the manual leaves a convention open, a clause
rests on the model's choice of log entries 4, 40. -/
def Obligations.BreezeCommandsComplete : Prop :=
  -- BEACON (beacon): a new superframe, and the beacon of its fixed fields
  (∀ (s : State) (c1 : Chip), s.live = true → s.chip.radioOn = true → s.chip.bzState = 4 → s.chip.beaconDue = true →
     ({ ((s.chip.dinc (bzKey 19)).dset (bzKey 25) s.chip.breeze.heard) with breeze := { s.chip.breeze with heard := 0, beacon := some (s.chip.now - s.chip.syncAfter) } } : Chip) = c1 →
     c1.oldest = none → Does .beacon s (c1.transmit (c1.slotStart 0 + 10000) 0 (c1.beaconFields false))) ∧
  -- BEACON (beaconMsg): with the oldest message, where it has room
  (∀ (s : State) (c1 : Chip) (i : Nat) (m : BreezeMsg), s.live = true → s.chip.radioOn = true → s.chip.bzState = 4 →
     s.chip.beaconDue = true →
     ({ ((s.chip.dinc (bzKey 19)).dset (bzKey 25) s.chip.breeze.heard) with breeze := { s.chip.breeze with heard := 0, beacon := some (s.chip.now - s.chip.syncAfter) } } : Chip) = c1 →
     c1.oldest = some (i, m) → 28 + m.body.length ≤ s.chip.longest false →
     Does .beacon s (let r := c1.takeSeq i m; (r.1.transmit (c1.slotStart 0 + 10000) 0 (c1.beaconFields true ++ m.bytes r.2)).leaveQueue i (if m.dest = 0xFF then 2 else 4))) ∧
  -- BEACON (beaconLong): a message without room stays in the queue
  (∀ (s : State) (c1 : Chip) (i : Nat) (m : BreezeMsg), s.live = true → s.chip.radioOn = true → s.chip.bzState = 4 →
     s.chip.beaconDue = true →
     ({ ((s.chip.dinc (bzKey 19)).dset (bzKey 25) s.chip.breeze.heard) with breeze := { s.chip.breeze with heard := 0, beacon := some (s.chip.now - s.chip.syncAfter) } } : Chip) = c1 →
     c1.oldest = some (i, m) → s.chip.longest false < 28 + m.body.length →
     Does .beacon s (c1.transmit (c1.slotStart 0 + 10000) 0 (c1.beaconFields false))) ∧
  -- BEACON (beaconEarly): no superframe has passed since the last one
  (∀ (s : State), s.live = true → s.chip.beaconDue = false → Does .beacon s s.chip) ∧
  -- SLOT_TRANSMIT (slotEmpty)
  (∀ (s : State) (t : Nat) (c1 : Chip), s.live = true → s.chip.radioOn = true → s.chip.bzState = 2 → s.chip.ownStart = some t →
     s.chip.offsetScaled t ≤ 5000000000 →
     ({ s.chip with breeze := { s.chip.breeze with used := some t } } : Chip).dset (bzKey 21) (Nat.min 0xFFFF (divRne (s.chip.offsetScaled t) 25000000)) = c1 →
     c1.oldest = none → Does .slotTransmit s c1) ∧
  -- SLOT_TRANSMIT (slotLate): the predicted offset exceeds 20 µs
  (∀ (s : State) (t : Nat), s.live = true → s.chip.radioOn = true → (s.chip.bzState = 2 ∨ s.chip.bzState = 3) →
     s.chip.ownStart = some t → 5000000000 < s.chip.offsetScaled t →
     Does .slotTransmit s ((({ s.chip with breeze := { s.chip.breeze with used := some t } } : Chip).dset (bzKey 21) (Nat.min 0xFFFF (divRne (s.chip.offsetScaled t) 25000000))).dset (bzKey 20) 3)) ∧
  -- SLOT_TRANSMIT (slotQuiet): in the state that only listens
  (∀ (s : State) (t : Nat), s.live = true → s.chip.radioOn = true → s.chip.bzState = 3 → s.chip.ownStart = some t →
     s.chip.offsetScaled t ≤ 5000000000 →
     Does .slotTransmit s (({ s.chip with breeze := { s.chip.breeze with used := some t } } : Chip).dset (bzKey 21) (Nat.min 0xFFFF (divRne (s.chip.offsetScaled t) 25000000)))) ∧
  -- SLOT_TRANSMIT (slotOther): not the node's own slot, or it is used
  (∀ (s : State), s.live = true → s.chip.ownStart = none → Does .slotTransmit s s.chip) ∧
  -- SLOT_TRANSMIT (slotBroadcast)
  (∀ (s : State) (t i : Nat) (m : BreezeMsg) (c1 : Chip), s.live = true → s.chip.radioOn = true → s.chip.bzState = 2 →
     s.chip.ownStart = some t → s.chip.offsetScaled t ≤ 5000000000 →
     ({ s.chip with breeze := { s.chip.breeze with used := some t } } : Chip).dset (bzKey 21) (Nat.min 0xFFFF (divRne (s.chip.offsetScaled t) 25000000)) = c1 →
     c1.oldest = some (i, m) → 4 + m.body.length ≤ c1.messageRoom m.dest → m.dest = 0xFF →
     Does .slotTransmit s (let r := c1.takeSeq i m; (r.1.transmit (t + 10000) 1 (m.bytes r.2)).leaveQueue i 2)) ∧
  -- SLOT_TRANSMIT (slotUnicast): an ACK is awaited from the end of the frame's last bit on
  (∀ (s : State) (t i : Nat) (m : BreezeMsg) (c1 : Chip), s.live = true → s.chip.radioOn = true → s.chip.bzState = 2 →
     s.chip.ownStart = some t → s.chip.offsetScaled t ≤ 5000000000 →
     ({ s.chip with breeze := { s.chip.breeze with used := some t } } : Chip).dset (bzKey 21) (Nat.min 0xFFFF (divRne (s.chip.offsetScaled t) 25000000)) = c1 →
     c1.oldest = some (i, m) → 4 + m.body.length ≤ c1.messageRoom m.dest → m.dest ≠ 0xFF →
     Does .slotTransmit s (let r := c1.takeSeq i m; let d := if m.sends = 0 then r.1 else r.1.dinc (bzKey 39); Chip.transmit { d with breeze := { d.breeze with awaiting := some (t + 10000 + d.rampUpdates + (104 + 8 * (4 + m.body.length)) * d.bitUpdates), queue := d.breeze.queue.set i { m with seq := some r.2, sends := m.sends + 1 } } } (t + 10000) 2 (m.bytes r.2))) ∧
  -- BREEZE_SYNC (sync): the detector's first preamble and first sync word, which ends the levels, in a window of R706
  (∀ (s : State) (levels w r : List Nat) (k slot : Nat) (ack : Bool), s.live = true → s.chip.radioOn = true →
     s.chip.breeze.sync = none → s.chip.breeze.deaf + levels.length * s.chip.bitUpdates ≤ s.chip.now →
     findPreamble levels = some (w, r) → s.chip.syncAt w.sum r 0 = some k → r.length = k + 32 →
     s.chip.syncWindow s.chip.now = some (slot, ack) →
     Does (.breezeSync levels) s ({ s.chip with breeze := { s.chip.breeze with sync := some { sum := w.sum, swing := gap (everyOther w).sum (everyOther (w.drop 1)).sum, levels := r, marks := [(r.length, s.chip.posNat)], start := k, ended := s.chip.now, slot, ack } } })) ∧
  -- BREEZE_SYNC (syncOff): outside every window it counts in OUT_OF_SLOT
  (∀ (s : State) (levels w r : List Nat) (k : Nat), s.live = true → s.chip.radioOn = true →
     s.chip.breeze.sync = none → s.chip.breeze.deaf + levels.length * s.chip.bitUpdates ≤ s.chip.now →
     findPreamble levels = some (w, r) → s.chip.syncAt w.sum r 0 = some k → r.length = k + 32 →
     s.chip.syncWindow s.chip.now = none → Does (.breezeSync levels) s (s.chip.dinc (bzKey 31))) ∧
  -- BREEZE_SYNC (syncNone): no preamble, or no sync word after it
  (∀ (s : State) (levels : List Nat), s.live = true →
     (findPreamble levels).all (fun q => (s.chip.syncAt q.1.sum q.2 0).isNone) = true →
     Does (.breezeSync levels) s s.chip) ∧
  -- BREEZE_HEADER (header)
  (∀ (s : State) (x : BreezeRx) (levels : List Nat) (bs : List Byte), s.live = true → s.chip.breeze.sync = some x →
     s.chip.radioOn = true → s.chip.breeze.header = none → ((x.hear s.chip.posNat levels).bytes 32).take 3 = bs → bs.length = 3 →
     fieldAt bs 2 1 = crc8 (bs.take 2) → fieldAt bs 0 1 % 8 < 4 → fieldAt bs 1 1 ≤ s.chip.typeRoom (fieldAt bs 0 1 % 8) →
     x.ack = (fieldAt bs 0 1 % 8 == 3) → (s.chip.bzState = 1 → fieldAt bs 0 1 % 8 = 0) →
     Does (.breezeHeader levels) s ({ s.chip with breeze := { s.chip.breeze with sync := some (x.hear s.chip.posNat levels), header := some (fieldAt bs 0 1, fieldAt bs 1 1) } })) ∧
  -- BREEZE_HEADER (headerBad): the search goes on behind the false sync word
  (∀ (s : State) (x : BreezeRx) (levels : List Nat) (bs : List Byte), s.live = true → s.chip.breeze.sync = some x →
     s.chip.radioOn = true → s.chip.breeze.header = none → ((x.hear s.chip.posNat levels).bytes 32).take 3 = bs → bs.length = 3 →
     (fieldAt bs 2 1 ≠ crc8 (bs.take 2) ∨ 4 ≤ fieldAt bs 0 1 % 8 ∨ s.chip.typeRoom (fieldAt bs 0 1 % 8) < fieldAt bs 1 1) →
     Does (.breezeHeader levels) s ((s.chip.dinc (bzKey 32)).resumeSync (x.hear s.chip.posNat levels))) ∧
  -- BREEZE_HEADER (headerWindow): a type that its window does not take
  (∀ (s : State) (x : BreezeRx) (levels : List Nat) (bs : List Byte), s.live = true → s.chip.breeze.sync = some x →
     s.chip.radioOn = true → s.chip.breeze.header = none → ((x.hear s.chip.posNat levels).bytes 32).take 3 = bs → bs.length = 3 →
     fieldAt bs 2 1 = crc8 (bs.take 2) → fieldAt bs 0 1 % 8 < 4 → fieldAt bs 1 1 ≤ s.chip.typeRoom (fieldAt bs 0 1 % 8) →
     (x.ack ≠ (fieldAt bs 0 1 % 8 == 3) ∨ (s.chip.bzState = 1 ∧ fieldAt bs 0 1 % 8 ≠ 0)) →
     Does (.breezeHeader levels) s (({ s.chip with breeze := { s.chip.breeze with sync := none, header := none } } : Chip).dinc (bzKey 31))) ∧
  -- BREEZE_FRAME_RECEIVED (frame)
  (∀ (s : State) (a n x r : Nat) (payload crc : List Nat) (c1 : Chip) (y : BreezeRx) (m : List Byte), s.live = true →
     s.chip.breeze.header = some (a, n) → s.chip.radioOn = true → (a % 8 = 1 ∨ a % 8 = 2) →
     s.chip.takePayload (payload ++ crc) = (c1, some (y, m)) →
     Does (.breezeFrameReceived x r payload crc) s ((c1.noteFrame (a / 8) (y.quality m.length) x r).takeMessage y (s.chip.airEnd y m.length) (a / 8) (a % 8) (y.quality m.length) x r m)) ∧
  -- BREEZE_FRAME_RECEIVED (frameBad)
  (∀ (s : State) (a n x r : Nat) (payload crc : List Nat) (c1 : Chip), s.live = true → s.chip.breeze.header = some (a, n) →
     s.chip.radioOn = true → (a % 8 = 1 ∨ a % 8 = 2) → s.chip.takePayload (payload ++ crc) = (c1, none) →
     Does (.breezeFrameReceived x r payload crc) s c1) ∧
  -- BEACON_RECEIVED (beaconOther): another fleet's
  (∀ (s : State) (a n x r : Nat) (payload crc : List Nat) (c1 : Chip) (y : BreezeRx) (m : List Byte), s.live = true →
     s.chip.breeze.header = some (a, n) → s.chip.radioOn = true → a % 8 = 0 → s.chip.bzState ≠ 4 →
     s.chip.takePayload (payload ++ crc) = (c1, some (y, m)) → (m.length < 24 ∨ fieldAt m 0x14 1 ≠ s.chip.dget (bzKey 3)) →
     Does (.beaconReceived x r payload crc) s (c1.dinc (bzKey 35))) ∧
  -- BEACON_RECEIVED (beaconIn)
  (∀ (s : State) (a n x r : Nat) (payload crc : List Nat) (c1 : Chip) (y : BreezeRx) (m : List Byte) (d e : Chip), s.live = true →
     s.chip.breeze.header = some (a, n) → s.chip.radioOn = true → a % 8 = 0 → s.chip.bzState ≠ 4 →
     s.chip.takePayload (payload ++ crc) = (c1, some (y, m)) → 24 ≤ m.length → fieldAt m 0x14 1 = s.chip.dget (bzKey 3) →
     { c1 with breeze := c1.heardBeacon y (fieldAt m 0 4) } = d →
     ((((((d.noteFrame 0 (y.quality m.length) x r).dset (bzKey 19) (fieldAt m 0 4)).dset (bzKey 22) (fieldAt m 4 8)).dset (bzKey 24) (fieldAt m 0x0C 4)).dset (bzKey 25) (fieldAt m 0x10 4)).dset (bzKey 23) y.stamp).dset (bzKey 20) 2 = e →
     Does (.beaconReceived x r payload crc) s (if bit (fieldAt m 0x15 1) 1 then e.takeMessage y (s.chip.airEnd y m.length) 0 0 (y.quality m.length) x r (m.drop 24) else e)) ∧
  -- BREEZE_ACK_SEND (ackSend): 100 µs after the frame's last bit
  (∀ (s : State) (a q t : Nat), s.live = true → s.chip.breeze.ackDue = some (a, q, t) → t + 25000 ≤ s.chip.now →
     ({ s.chip with breeze := { s.chip.breeze with ackDue := none } } : Chip).radioOn = true → s.chip.bzState ≠ 1 →
     Does .breezeAckSend s ((Chip.transmit { s.chip with breeze := { s.chip.breeze with ackDue := none } } s.chip.now 3 (leBytes 1 a ++ leBytes 1 q)).dinc (bzKey 45))) ∧
  -- BREEZE_ACK_SEND (ackSendEarly)
  (∀ (s : State) (a q t : Nat), s.live = true → s.chip.breeze.ackDue = some (a, q, t) → s.chip.now < t + 25000 →
     Does .breezeAckSend s s.chip) ∧
  -- BREEZE_ACK_RECEIVED (ackIn)
  (∀ (s : State) (a n x r : Nat) (payload crc : List Nat) (c1 c2 : Chip) (y : BreezeRx) (m : List Byte) (i : Nat) (u : BreezeMsg),
     s.live = true → s.chip.breeze.header = some (a, n) → s.chip.radioOn = true → a % 8 = 3 →
     s.chip.takePayload (payload ++ crc) = (c1, some (y, m)) → (c1.noteFrame (a / 8) (y.quality m.length) x r).dinc (bzKey 44) = c2 →
     c2.breeze.awaiting.isSome = true → c2.oldest = some (i, u) → u.dest = a / 8 → u.seq = some (fieldAt m 0 1) →
     Does (.breezeAckReceived x r payload crc) s (c2.leaveQueue i 1)) ∧
  -- BREEZE_ACK_RECEIVED (ackNone)
  (∀ (s : State) (a n x r : Nat) (payload crc : List Nat) (c1 c2 : Chip) (y : BreezeRx) (m : List Byte), s.live = true →
     s.chip.breeze.header = some (a, n) → s.chip.radioOn = true → a % 8 = 3 →
     s.chip.takePayload (payload ++ crc) = (c1, some (y, m)) → (c1.noteFrame (a / 8) (y.quality m.length) x r).dinc (bzKey 44) = c2 →
     c2.breeze.awaiting = none → Does (.breezeAckReceived x r payload crc) s c2) ∧
  -- ACK_TIMEOUT (timeout): 8 µs past the end of the ACK's sync word, and none in reception
  (∀ (s : State) (t i : Nat) (m : BreezeMsg), s.live = true → s.chip.breeze.awaiting = some t →
     t + s.chip.ackAfter + 2000 < s.chip.now → s.chip.breeze.sync.any (fun x => x.ack) = false →
     (({ s.chip with breeze := { s.chip.breeze with awaiting := none } } : Chip).dinc (bzKey 38)).oldest = some (i, m) →
     m.sends ≤ s.chip.dget (bzKey 10) →
     Does .ackTimeout s ((({ s.chip with breeze := { s.chip.breeze with awaiting := none } } : Chip).dinc (bzKey 38)))) ∧
  -- ACK_TIMEOUT (timeoutLast)
  (∀ (s : State) (t i : Nat) (m : BreezeMsg), s.live = true → s.chip.breeze.awaiting = some t →
     t + s.chip.ackAfter + 2000 < s.chip.now → s.chip.breeze.sync.any (fun x => x.ack) = false →
     (({ s.chip with breeze := { s.chip.breeze with awaiting := none } } : Chip).dinc (bzKey 38)).oldest = some (i, m) →
     s.chip.dget (bzKey 10) < m.sends →
     Does .ackTimeout s (((({ s.chip with breeze := { s.chip.breeze with awaiting := none } } : Chip).dinc (bzKey 38)).dinc (bzKey 40)).leaveQueue i 3)) ∧
  -- ACK_TIMEOUT (timeoutEarly)
  (∀ (s : State) (t : Nat), s.live = true → s.chip.breeze.awaiting = some t → s.chip.now ≤ t + s.chip.ackAfter + 2000 →
     Does .ackTimeout s s.chip) ∧
  -- BEACON_MISSED (missed)
  (∀ (s : State), s.live = true → s.chip.radioOn = true → (s.chip.bzState = 2 ∨ s.chip.bzState = 3) →
     s.chip.breeze.sync = none →
     s.chip.slotStart (32 * (s.chip.breeze.misses + 1)) + s.chip.syncAfter + 10000 < s.chip.now → s.chip.breeze.misses < 3 →
     Does .beaconMissed s ({ (s.chip.dinc (bzKey 36)).dinc (bzKey 19) with breeze := { s.chip.breeze with misses := s.chip.breeze.misses + 1 } })) ∧
  -- BEACON_MISSED (missedLast)
  (∀ (s : State), s.live = true → s.chip.radioOn = true → (s.chip.bzState = 2 ∨ s.chip.bzState = 3) →
     s.chip.breeze.sync = none →
     s.chip.slotStart (32 * (s.chip.breeze.misses + 1)) + s.chip.syncAfter + 10000 < s.chip.now →
     3 ≤ s.chip.breeze.misses → Does .beaconMissed s ((((s.chip.dinc (bzKey 36)).dinc (bzKey 19)).bzSearch).dinc (bzKey 37))) ∧
  -- BEACON_MISSED (missedEarly)
  (∀ (s : State), s.live = true →
     s.chip.now ≤ s.chip.slotStart (32 * (s.chip.breeze.misses + 1)) + s.chip.syncAfter + 10000 →
     Does .beaconMissed s s.chip) ∧
  -- SLOT_OVERRUN (overrun)
  (∀ (s : State) (x : BreezeRx), s.live = true → s.chip.radioOn = true → s.chip.bzState ≠ 1 → s.chip.breeze.sync = some x →
     x.ended < s.chip.slotStart (s.chip.slotAt s.chip.now) →
     Does .slotOverrun s (({ s.chip with breeze := { s.chip.breeze with header := none, sync := none } } : Chip).dinc (bzKey 34))) ∧
  -- SOURCE_FORGET (forget)
  (∀ (s : State) (src : Nat) (x : BreezeSource), s.live = true → tabGet? s.chip.breeze.sources src = some x →
     16 ≤ (s.chip.dget (bzKey 19) + m32 - x.heard % m32) % m32 →
     Does (.sourceForget src) s ({ s.chip with breeze := { s.chip.breeze with sources := tabDel s.chip.breeze.sources src } })) ∧
  -- SOURCE_FORGET (forgetLater)
  (∀ (s : State) (src : Nat) (x : BreezeSource), s.live = true → tabGet? s.chip.breeze.sources src = some x →
     (s.chip.dget (bzKey 19) + m32 - x.heard % m32) % m32 < 16 → Does (.sourceForget src) s s.chip)

/-- Governor loops, trips, P6, HOLD and the rail link complete with their effects. Where the manual leaves a convention open, a clause
rests on the model's choice of log entries 3, 42, 61. -/
def Obligations.GovernorCommandsComplete : Prop :=
  -- DEMAND_TICK (demandEarly): no millisecond has passed since the last one
  (∀ (s : State) (u : Nat), s.on = true → s.chip.msSince s.chip.gov.demandAt = false → Does (.demandTick u) s s.chip) ∧
  -- DEMAND_TICK (demandOff)
  (∀ (s : State) (u : Nat), s.on = true → s.chip.msSince s.chip.gov.demandAt = true →
     (s.chip.gov.started = false ∨ s.chip.gov.p7 = true ∨ s.chip.engine = .hold ∨ s.chip.engine = .faulted) →
     Does (.demandTick u) s (({ s.chip with gov := { s.chip.gov with demandAt := some s.chip.now } } : Chip).dset (govKey 7) (Nat.min u 100))) ∧
  -- DEMAND_TICK (demandUp)
  (∀ (s : State) (u : Nat), s.on = true → s.chip.msSince s.chip.gov.demandAt = true → s.chip.gov.started = true →
     s.chip.gov.p7 = false → s.chip.engine ≠ .hold → s.chip.engine ≠ .faulted → s.chip.dget (govKey 5) ≤ Nat.min u 100 →
     Does (.demandTick u) s ((({ s.chip with gov := { s.chip.gov with demandAt := some s.chip.now } } : Chip).dset (govKey 7) (Nat.min u 100)).govern (fun c => c.dset (govKey 4) (c.clampLevel (s.chip.dget (govKey 4) - 1))))) ∧
  -- DEMAND_TICK (demandDown)
  (∀ (s : State) (u : Nat), s.on = true → s.chip.msSince s.chip.gov.demandAt = true → s.chip.gov.started = true →
     s.chip.gov.p7 = false → s.chip.engine ≠ .hold → s.chip.engine ≠ .faulted → Nat.min u 100 < s.chip.dget (govKey 5) → Nat.min u 100 < s.chip.dget (govKey 6) →
     Does (.demandTick u) s ((({ s.chip with gov := { s.chip.gov with demandAt := some s.chip.now } } : Chip).dset (govKey 7) (Nat.min u 100)).govern (fun c => c.dset (govKey 4) (c.clampLevel (s.chip.dget (govKey 4) + 1))))) ∧
  -- DEMAND_TICK (demandSame)
  (∀ (s : State) (u : Nat), s.on = true → s.chip.msSince s.chip.gov.demandAt = true → s.chip.gov.started = true →
     s.chip.gov.p7 = false → s.chip.engine ≠ .hold → s.chip.engine ≠ .faulted → Nat.min u 100 < s.chip.dget (govKey 5) → s.chip.dget (govKey 6) ≤ Nat.min u 100 →
     Does (.demandTick u) s ((({ s.chip with gov := { s.chip.gov with demandAt := some s.chip.now } } : Chip).dset (govKey 7) (Nat.min u 100)).govern (fun c => c.dset (govKey 4) (c.clampLevel (s.chip.dget (govKey 4)))))) ∧
  -- THERMAL_RELEASE (thermalRelease)
  (∀ (s : State) (t : Nat), s.on = true → s.chip.gov.coolSince = some t → t + 2500000 ≤ s.chip.now →
     Does .thermalRelease s (({ s.chip with gov := { s.chip.gov with coolSince := some s.chip.now } } : Chip).govern (fun c => c.dset (thermalKey 14) (c.tl - 1)))) ∧
  -- THERMAL_RELEASE (thermalReleaseEarly)
  (∀ (s : State) (t : Nat), s.on = true → s.chip.gov.coolSince = some t → s.chip.now < t + 2500000 →
     Does .thermalRelease s s.chip) ∧
  -- THERMAL_TICK (thermal)
  (∀ (s : State) (ts : List Int), s.on = true →
     (List.range 8).filter (fun k => !s.chip.isRetired (.sensor k) && (ts.getD k 0 < -440 || 1200 < ts.getD k 0)) = [] →
     Does (.thermalTick ts) s (s.chip.thermalTick ts)) ∧
  -- THERMAL_TICK (thermalBad)
  (∀ (s : State) (ts : List Int) (k : Nat), s.on = true →
     (List.range 8).filter (fun k => !s.chip.isRetired (.sensor k) && (ts.getD k 0 < -440 || 1200 < ts.getD k 0)) = [k] →
     Does (.thermalTick ts) s ((s.chip.retireUnit (.sensor k) 8 0).thermalTick ts)) ∧
  -- CURRENT_LIMIT_STEP (currentBelow)
  (∀ (s : State) (i : Nat) (c2 : Chip), s.on = true →
     (let c1 := s.chip.dset (railKey 2) (Nat.min i 0xFFFF); if c1.dget (railKey 3) < Nat.min i 0xFFFF then c1.dset (railKey 3) (Nat.min i 0xFFFF) else c1) = c2 →
     Nat.min i 0xFFFF ≤ c2.dget (railKey 1) →
     Does (.currentLimitStep i) s ({ c2 with gov := { c2.gov with stepAt := none, lowSince := if 10 * Nat.min i 0xFFFF < 9 * c2.dget (railKey 1) then some (c2.gov.lowSince.getD c2.now) else none } })) ∧
  -- CURRENT_LIMIT_STEP (currentAbove)
  (∀ (s : State) (i : Nat) (c2 : Chip), s.on = true →
     (let c1 := s.chip.dset (railKey 2) (Nat.min i 0xFFFF); if c1.dget (railKey 3) < Nat.min i 0xFFFF then c1.dset (railKey 3) (Nat.min i 0xFFFF) else c1) = c2 →
     c2.dget (railKey 1) < Nat.min i 0xFFFF → (c2.gov.stepAt = none ∨ ∃ t, c2.gov.stepAt = some t ∧ t + 12500 ≤ c2.now) →
     Does (.currentLimitStep i) s (({ c2 with gov := { c2.gov with stepAt := some c2.now, lowSince := none } } : Chip).govern (fun c => c.dset (railKey 4) (Nat.min 5 (c.cl + 1))))) ∧
  -- CURRENT_RELEASE (currentRelease)
  (∀ (s : State) (t : Nat), s.on = true → s.chip.gov.lowSince = some t → t + 2500000 ≤ s.chip.now →
     Does .currentRelease s (({ s.chip with gov := { s.chip.gov with lowSince := some s.chip.now } } : Chip).govern (fun c => c.dset (railKey 4) (c.cl - 1)))) ∧
  -- THERMAL_TRIP (trip_config): this sample and the one before it
  (∀ (s : State) (tj : Int), s.on = true → 920 ≤ tj → 920 ≤ s.chip.temp (thermalKey 1) → s.chip.engine = .config →
     Does (.thermalTrip tj) s (((s.chip.noteTj tj).noteTrip).goHold 2)) ∧
  -- THERMAL_TRIP (trip_ready): this sample and the one before it
  (∀ (s : State) (tj : Int), s.on = true → 920 ≤ tj → 920 ≤ s.chip.temp (thermalKey 1) → s.chip.engine = .ready →
     Does (.thermalTrip tj) s (((s.chip.noteTj tj).noteTrip).goHold 2)) ∧
  -- THERMAL_TRIP (trip_run): this sample and the one before it
  (∀ (s : State) (tj : Int), s.on = true → 920 ≤ tj → 920 ≤ s.chip.temp (thermalKey 1) → s.chip.engine = .run →
     Does (.thermalTrip tj) s (((s.chip.noteTj tj).noteTrip).goHold 2)) ∧
  -- THERMAL_TRIP (trip_boot)
  (∀ (s : State) (tj : Int), s.on = true → 920 ≤ tj → 920 ≤ s.chip.temp (thermalKey 1) → s.chip.engine = .boot → s.chip.gov.bootHot = false →
     Does (.thermalTrip tj) s (let d := (s.chip.noteTj tj).noteTrip; { d with gov := { d.gov with bootHot := true } })) ∧
  -- THERMAL_TRIP (trip_selftest)
  (∀ (s : State) (tj : Int), s.on = true → 920 ≤ tj → 920 ≤ s.chip.temp (thermalKey 1) → s.chip.engine = .selftest → s.chip.gov.bootHot = false →
     Does (.thermalTrip tj) s (let d := (s.chip.noteTj tj).noteTrip; { d with gov := { d.gov with bootHot := true } })) ∧
  -- THERMAL_TRIP (trip_hold)
  (∀ (s : State) (tj : Int), s.on = true → 920 ≤ tj → 920 ≤ s.chip.temp (thermalKey 1) → s.chip.engine = .hold → s.chip.dget (govKey 10) ≠ 2 →
     Does (.thermalTrip tj) s (((s.chip.noteTj tj).noteTrip).dset (govKey 10) 2)) ∧
  -- THERMAL_TRIP (trip_again): a trip in force counts once
  (∀ (s : State) (tj : Int), s.on = true →
     ((s.chip.engine = .hold ∧ s.chip.dget (govKey 10) = 2) ∨ ((s.chip.engine = .boot ∨ s.chip.engine = .selftest) ∧ s.chip.gov.bootHot = true)) →
     Does (.thermalTrip tj) s (s.chip.noteTj tj)) ∧
  -- THERMAL_TRIP (tripCold)
  (∀ (s : State) (tj : Int), s.on = true → (tj < 920 ∨ s.chip.temp (thermalKey 1) < 920) →
     Does (.thermalTrip tj) s (s.chip.noteTj tj)) ∧
  -- TRIP_RESUME (resume)
  (∀ (s : State) (tj : Int), s.on = true → s.chip.gov.bootHot = true → tj ≤ s.chip.temp (thermalKey 11) - 80 →
     Does (.tripResume tj) s ({ s.chip.dset (thermalKey 1) (tempBits tj) with gov := { s.chip.gov with bootHot := false } })) ∧
  -- RAIL_LINK_FAILURE (railFault)
  (∀ (s : State), s.on = true → Does (.railLinkFailure true) s (s.chip.enterFaulted 5)) ∧
  -- RAIL_LINK_FAILURE (railFail)
  (∀ (s : State), s.on = true → s.chip.gov.vrFails < 2 →
     Does (.railLinkFailure false) s ({ s.chip.dinc (railKey 10) with gov := { s.chip.gov with vrFails := s.chip.gov.vrFails + 1 } })) ∧
  -- RAIL_LINK_FAILURE (railFailThird)
  (∀ (s : State), s.on = true → 2 ≤ s.chip.gov.vrFails →
     Does (.railLinkFailure false) s (({ s.chip.dinc (railKey 10) with gov := { s.chip.gov with vrFails := s.chip.gov.vrFails + 1 } } : Chip).enterFaulted 5)) ∧
  -- VR_ALERT_N (alertFault)
  (∀ (s : State) (w : Nat), s.on = true → statusShowsOutputFault w = true → Does (.vrAlertN w) s (({ s.chip with gov := { s.chip.gov with rail := some .statusWord } } : Chip).enterFaulted 5)) ∧
  -- VR_ALERT_N (alertNone)
  (∀ (s : State) (w : Nat), s.on = true → statusShowsOutputFault w = false → Does (.vrAlertN w) s ({ s.chip with gov := { s.chip.gov with rail := some .statusWord } } : Chip)) ∧
  -- VR_SETTLE (settle)
  (∀ (s : State) (t : Nat), s.on = true → s.chip.gov.settle = some t → t ≤ s.chip.now → s.chip.gov.p7 = false →
     s.chip.gov.leaving = none →
     Does .vrSettle s (let f := ({ s.chip with gov := { s.chip.gov with volt := s.chip.dget (govKey 1), clock := s.chip.dget (govKey 1), settle := none, vrFails := 0, rail := some .readVout } } : Chip).fresh .rail; f.1.dset (railKey 8) (f.2 % 0x10000))) ∧
  -- VR_SETTLE (settleHeld)
  (∀ (s : State) (t : Nat), s.on = true → s.chip.gov.settle = some t → t ≤ s.chip.now → s.chip.gov.p7 = true →
     s.chip.gov.leaving = none →
     Does .vrSettle s (let f := ({ s.chip with gov := { s.chip.gov with volt := 5, settle := none, vrFails := 0, rail := some .readVout } } : Chip).fresh .rail; f.1.dset (railKey 8) (f.2 % 0x10000))) ∧
  -- VR_SETTLE (settleLeaving)
  (∀ (s : State) (t u : Nat), s.on = true → s.chip.gov.settle = some t → t ≤ s.chip.now → s.chip.gov.p7 = true →
     s.chip.gov.leaving = some u →
     Does .vrSettle s (let f := ({ s.chip with gov := { s.chip.gov with volt := 2, settle := none, vrFails := 0, rail := some .readVout } } : Chip).fresh .rail; f.1.dset (railKey 8) (f.2 % 0x10000))) ∧
  -- VR_SETTLE (settleEarly)
  (∀ (s : State) (t : Nat), s.on = true → s.chip.gov.settle = some t → s.chip.now < t → Does .vrSettle s s.chip) ∧
  -- IDLE_GATE_ENTRY (gate)
  (∀ (s : State), s.on = true → s.chip.engine = .ready → s.chip.dbool (govKey 8) = true → s.chip.gov.p6 = false →
     s.chip.ledger.all LedgerEntry.ofCue = true → s.chip.working = false →
     s.chip.gov.workAt + 250 * s.chip.dget (govKey 9) ≤ s.chip.now →
     Does .idleGateEntry s ({ s.chip.endFrames.dinc (govKey 11) with gov := { s.chip.gov with p6 := true, wake := false } })) ∧
  -- IDLE_GATE_ENTRY (gateNot)
  (∀ (s : State), s.on = true → s.chip.engine ≠ .ready → Does .idleGateEntry s s.chip) ∧
  -- IDLE_GATE_EXIT (gateExit)
  (∀ (s : State), s.on = true → s.chip.gov.p6 = true → s.chip.gov.wake = true →
     Does .idleGateExit s (let c1 := s.chip.dinc (govKey 11); (Chip.resetGroups { c1 with gov := { c1.gov with p6 := false, wake := false, workAt := c1.now } }).encLate)) ∧
  -- IDLE_GATE_EXIT (gateStay)
  (∀ (s : State), s.on = true → s.chip.gov.wake = false → Does .idleGateExit s s.chip) ∧
  -- HOLD_ENTRY_COMPLETE (held)
  (∀ (s : State), s.on = true → s.chip.engine = .hold → s.chip.gov.p7 = false → s.chip.gov.leaving = none →
     Does .holdEntryComplete s ((s.chip.endFrames.holdEntered).stopEpoch)) ∧
  -- HOLD_EXIT_COMPLETE (holdExit)
  (∀ (s : State) (t : Nat), s.on = true → s.chip.engine = .hold → s.chip.gov.leaving = some t →
     t + 250 * s.chip.dget (railKey 9) ≤ s.chip.now →
     Does .holdExitComplete s (let d := (((Chip.boundsChanged { s.chip.clockFromHold with engine := .ready } s.chip).startDemand).resetGroups).bzWake; d.each ((List.range 16).filter (fun v => (d.voice v).resetDrain)) Chip.drainEnd)) ∧
  -- HOLD_EXIT_COMPLETE (holdExitEarly)
  (∀ (s : State) (t : Nat), s.on = true → s.chip.gov.leaving = some t → s.chip.now < t + 250 * s.chip.dget (railKey 9) →
     Does .holdExitComplete s s.chip)

/-- Errors, FAULTED, the store, the signature and the installation complete with their effects. Where the manual leaves a convention open, a clause
rests on the model's choice of log entries 7, 8, 24, 44, 45, 46. -/
def Obligations.FaultAndFlashCommandsComplete : Prop :=
  -- ERROR_DETECTED (error)
  (∀ (s : State) (unit : UnitName) (check address : Nat), s.on = true → unitExists unit = true → s.chip.engine ≠ .reset →
     s.chip.isRetired unit = false → s.chip.noFrame unit = false →
     Does (.errorDetected unit check address) s ((s.chip.each (unit :: s.chip.alsoRetires unit) (fun c u => c.retireOne u check address)).callWake)) ∧
  -- ERROR_DETECTED (errorAgain)
  (∀ (s : State) (unit : UnitName) (check address : Nat), s.on = true → s.chip.isRetired unit = true →
     Does (.errorDetected unit check address) s s.chip) ∧
  -- FAULTED_ENTRY (faulted)
  (∀ (s : State) (cause : Nat), s.on = true → 1 ≤ cause → cause ≤ 10 → s.chip.engine ≠ .reset → s.chip.engine ≠ .faulted →
     (s.chip.engine = .boot ∨ (cause ≠ 6 ∧ cause ≠ 10)) →
     Does (.faultedEntry cause) s (let c1 := s.chip.endAllWork; let c2 : Chip := { c1 with engine := .faulted, request := none, faults := { c1.faults with cause := cause, faultN := true, signing := false, signature := if c1.faults.signing then [] else c1.faults.signature } }; ((c2.releasePins).dset (ent 0x5800 3) s.chip.posNat).log 0x0201 0 0xFFFF cause 0)) ∧
  -- STORE_COMPLETE (store)
  (∀ (s : State) (x : CalStore), s.on = true → s.chip.flash.storing = some x →
     Does .storeComplete s (let f := s.chip.flash.setSlot x.target x.bytes; let c1 : Chip := { s.chip with flash := { f with storing := none, lastStore := some f.storeAt.1, calDefault := false, calAbandoned := false } }; (((c1.dset (ent 0x1100 2) 2).dset (ent 0x1100 3) f.storeAt.2).dset (ent 0x6000 1) x.target).dset (ent 0x6000 2) x.seq)) ∧
  -- STORE_ABANDONED (storeLost)
  (∀ (s : State), s.on = true → s.chip.flash.storing ≠ none →
     Does .storeAbandoned s (let c1 := s.chip.haltStore; (Chip.dset { c1 with flash := { c1.flash with calAbandoned := true } } (ent 0x1100 2) 3).log 0x0601 0x00A0 0xFFFF 0 0)) ∧
  -- SIGNATURE_COMPLETE (signed)
  (∀ (s : State), s.on = true → s.chip.faults.signing = true →
     Does .signatureComplete s ({ s.chip with faults := { s.chip.faults with signing := false, signature := padTo 64 (Config.signature s.chip.challenge) } })) ∧
  -- FW_INSTALL_COMPLETE (installB): the location reads back as the tensor
  (∀ (s : State) (x : FwWrite), s.on = true → s.chip.flash.installing = some x → s.chip.dget (ent 0x6000 9) = 0 →
     (s.chip.contents x.tensor).take x.bytes.length = x.bytes →
     Does .fwInstallComplete s (Chip.dset { s.chip with flash := { s.chip.flash with installing := none, imageB := some x.image } } (ent 0x6000 13) 2)) ∧
  -- FW_INSTALL_COMPLETE (installA)
  (∀ (s : State) (x : FwWrite), s.on = true → s.chip.flash.installing = some x → s.chip.dget (ent 0x6000 9) ≠ 0 →
     (s.chip.contents x.tensor).take x.bytes.length = x.bytes →
     Does .fwInstallComplete s (Chip.dset { s.chip with flash := { s.chip.flash with installing := none, imageA := some x.image } } (ent 0x6000 13) 2)) ∧
  -- FW_INSTALL_COMPLETE (installDiffers): the tensor is no longer what was written
  (∀ (s : State) (x : FwWrite), s.on = true → s.chip.flash.installing = some x →
     (s.chip.contents x.tensor).take x.bytes.length ≠ x.bytes →
     Does .fwInstallComplete s (Chip.dset { s.chip with flash := { s.chip.flash with installing := none } } (ent 0x6000 13) 3)) ∧
  -- FW_INSTALL_ABANDONED (installLost)
  (∀ (s : State), s.on = true → s.chip.flash.installing ≠ none →
     Does .fwInstallAbandoned s (Chip.dset { s.chip with flash := { s.chip.flash with installing := none } } (ent 0x6000 13) 3))
end

