-- ==== Sys2Proof/Laws/Tab.lean ====
section
/-! SUPPORT. Tables and memories: what a read after a write gives, and that every operation keeps the canonical form. -/

namespace Sys2Proof.Machine

variable {α : Type}

@[simp] theorem tabGet?_nil (k : Nat) : tabGet? ([] : Tab α) k = none := rfl

@[simp] theorem tabGet?_tabSet_same (t : Tab α) (k : Nat) (v : α) : tabGet? (tabSet t k v) k = some v := by
  induction t with
  | nil => simp [tabSet, tabGet?]
  | cons p r ih => grind [tabSet, tabGet?]

theorem tabGet?_tabSet_other (t : Tab α) {j k : Nat} (v : α) (h : j ≠ k) : tabGet? (tabSet t k v) j = tabGet? t j := by
  induction t with
  | nil => simp [tabSet, tabGet?, Ne.symm h]
  | cons p r ih => grind [tabSet, tabGet?]

theorem tabGet?_tabSet (t : Tab α) (j k : Nat) (v : α) :
    tabGet? (tabSet t k v) j = if j = k then some v else tabGet? t j := by
  by_cases h : j = k
  · simp [h]
  · simp [h, tabGet?_tabSet_other t v h]

@[simp] theorem tabGet?_tabDel_same (t : Tab α) (k : Nat) : tabGet? (tabDel t k) k = none := by
  induction t with
  | nil => rfl
  | cons p r ih => grind [tabDel, tabGet?]

theorem tabGet?_tabDel (t : Tab α) (j k : Nat) : tabGet? (tabDel t k) j = if j = k then none else tabGet? t j := by
  by_cases h : j = k
  · simp [h]
  · simp only [h, if_false]
    induction t with
    | nil => rfl
    | cons p r ih => grind [tabDel, tabGet?]

@[simp] theorem tabGet_nil (d : α) (k : Nat) : tabGet d ([] : Tab α) k = d := rfl

@[simp] theorem tabGet_tabSet_same (d : α) (t : Tab α) (k : Nat) (v : α) : tabGet d (tabSet t k v) k = v := by simp [tabGet]

theorem tabGet_tabSet (d : α) (t : Tab α) (j k : Nat) (v : α) :
    tabGet d (tabSet t k v) j = if j = k then v else tabGet d t j := by
  unfold tabGet; rw [tabGet?_tabSet]; split <;> rfl

theorem tabGet_tabDel (d : α) (t : Tab α) (j k : Nat) : tabGet d (tabDel t k) j = if j = k then d else tabGet d t j := by
  unfold tabGet; rw [tabGet?_tabDel]; split <;> rfl

/-- A table whose keys rise has its first key below every other. -/
theorem tabSorted_cons (p : Nat × α) (r : Tab α) :
    tabSorted (p :: r) = true ↔ (∀ q ∈ r, p.1 < q.1) ∧ tabSorted r = true := by
  induction r generalizing p with
  | nil => simp [tabSorted]
  | cons q s ih =>
    simp only [tabSorted, Bool.and_eq_true, decide_eq_true_eq, List.mem_cons, forall_eq_or_imp]
    have := ih q
    grind

theorem tabSet_keys (t : Tab α) (k : Nat) (v : α) {q : Nat × α} (h : q ∈ tabSet t k v) : q = (k, v) ∨ q ∈ t := by
  induction t with
  | nil => simpa [tabSet] using h
  | cons p r ih => grind [tabSet]

theorem tabSorted_tabSet (t : Tab α) (k : Nat) (v : α) (h : tabSorted t = true) : tabSorted (tabSet t k v) = true := by
  induction t with
  | nil => simp [tabSet, tabSorted]
  | cons p r ih =>
    have hp := (tabSorted_cons p r).1 h
    have hi := ih hp.2
    unfold tabSet
    split
    · rw [tabSorted_cons]
      refine ⟨?_, h⟩
      intro q hq
      rcases List.mem_cons.1 hq with rfl | hq
      · assumption
      · have := hp.1 q hq; omega
    · split
      · rw [tabSorted_cons]
        refine ⟨?_, hp.2⟩
        intro q hq; have := hp.1 q hq; simp_all
      · rw [tabSorted_cons]
        refine ⟨?_, hi⟩
        intro q hq
        rcases tabSet_keys r k v hq with rfl | hq
        · simp; omega
        · exact hp.1 q hq

theorem tabSorted_filter (t : Tab α) (f : Nat × α → Bool) (h : tabSorted t = true) : tabSorted (t.filter f) = true := by
  induction t with
  | nil => simpa using h
  | cons p r ih =>
    have hp := (tabSorted_cons p r).1 h
    have hi := ih hp.2
    by_cases hf : f p = true
    · rw [List.filter_cons_of_pos hf, tabSorted_cons]
      exact ⟨fun q hq => hp.1 q (List.mem_filter.1 hq).1, hi⟩
    · rw [List.filter_cons_of_neg hf]; exact hi

theorem tabSorted_tabDel (t : Tab α) (k : Nat) (h : tabSorted t = true) : tabSorted (tabDel t k) = true :=
  tabSorted_filter t _ h

/-! Memories -/

@[simp] theorem Memory.read_nil (a : Nat) : Memory.read [] a = 0 := rfl

theorem Memory.read_write (m : Memory) (a b : Nat) (x : Byte) :
    (m.write a x).read b = if b = a then x else m.read b := by
  unfold Memory.write Memory.read
  split
  · next h => rw [tabGet_tabDel]; simp [h]
  · rw [tabGet_tabSet]

@[simp] theorem Memory.read_write_same (m : Memory) (a : Nat) (x : Byte) : (m.write a x).read a = x := by
  simp [Memory.read_write]

theorem Memory.wf_write (m : Memory) (a : Nat) (x : Byte) (h : m.wf = true) : (m.write a x).wf = true := by
  unfold Memory.wf at *
  simp only [Bool.and_eq_true, List.all_eq_true, bne_iff_ne, ne_eq] at *
  unfold Memory.write
  split
  · exact ⟨tabSorted_tabDel m a h.1, fun c hc => h.2 c (List.mem_filter.1 hc).1⟩
  · next hx =>
    refine ⟨tabSorted_tabSet m a x h.1, fun c hc => ?_⟩
    rcases tabSet_keys m a x hc with rfl | hc
    · exact hx
    · exact h.2 c hc

theorem Memory.wf_writeBytes (m : Memory) (a : Nat) (bs : List Byte) (h : m.wf = true) : (m.writeBytes a bs).wf = true := by
  induction bs generalizing m a with
  | nil => exact h
  | cons b r ih => exact ih _ _ (m.wf_write a b h)

/-- A byte outside the bytes written keeps its value; a byte inside takes the one written. -/
theorem Memory.read_writeBytes (m : Memory) (a : Nat) (bs : List Byte) (b : Nat) :
    (m.writeBytes a bs).read b = if a ≤ b ∧ b < a + bs.length then bs.getD (b - a) 0 else m.read b := by
  induction bs generalizing m a with
  | nil => rw [if_neg (by simp only [List.length_nil]; omega)]; rfl
  | cons x r ih =>
    rw [Memory.writeBytes, ih, Memory.read_write, List.length_cons]
    by_cases h1 : b = a
    · subst h1
      rw [if_neg (by omega), if_pos rfl, if_pos (by omega), Nat.sub_self]; rfl
    · by_cases h2 : a + 1 ≤ b ∧ b < a + 1 + r.length
      · rw [if_pos h2, if_pos (by omega), show b - a = b - (a + 1) + 1 by omega]; rfl
      · rw [if_neg h2, if_neg h1, if_neg (by omega)]

theorem Memory.wf_clear (m : Memory) (a n : Nat) (h : m.wf = true) : (m.clear a n).wf = true := by
  unfold Memory.wf at *
  simp only [Bool.and_eq_true, List.all_eq_true, bne_iff_ne, ne_eq] at *
  exact ⟨tabSorted_filter m _ h.1, fun c hc => h.2 c (List.mem_filter.1 hc).1⟩

theorem Memory.wf_foldl_write {β : Type} (l : List β) (f : β → Nat) (g : β → Byte) (m : Memory) (h : m.wf = true) :
    (l.foldl (fun acc c => acc.write (f c) (g c)) m).wf = true := by
  induction l generalizing m with
  | nil => exact h
  | cons c r ih => exact ih _ (m.wf_write _ _ h)

theorem Memory.wf_copy (m : Memory) (dst n : Nat) (m' : Memory) (src : Nat) (h : m.wf = true) :
    (m.copy dst n m' src).wf = true :=
  Memory.wf_foldl_write _ (fun c : Nat × Byte => c.1 - src + dst) (fun c : Nat × Byte => c.2) _ (m.wf_clear dst n h)

theorem Memory.length_readBytes (m : Memory) (a n : Nat) : (m.readBytes a n).length = n := by
  induction n generalizing a with
  | zero => rfl
  | succ n ih => simp [Memory.readBytes, ih]

/-- What was written reads back. -/
theorem Memory.readBytes_writeBytes (m : Memory) (a : Nat) (bs : List Byte) :
    (m.writeBytes a bs).readBytes a bs.length = bs := by
  have key : ∀ (n k : Nat), k + n = bs.length → (m.writeBytes a bs).readBytes (a + k) n = bs.drop k := by
    intro n
    induction n with
    | zero => intro k hk; simp [Memory.readBytes]; omega
    | succ n ih =>
      intro k hk
      have hlt : k < bs.length := by omega
      rw [Memory.readBytes, Memory.read_writeBytes, List.drop_eq_getElem_cons hlt]
      have h1 : a ≤ a + k ∧ a + k < a + bs.length := by omega
      have h2 : a + k - a = k := by omega
      have h3 := ih (k + 1) (by omega)
      rw [if_pos h1, h2]
      rw [Nat.add_assoc, h3]; simp [List.getD, hlt]
  simpa using key bs.length 0 (by omega)

/-! The dictionary store -/

@[simp] theorem Chip.dget_dset_same (c : Chip) (key v : Nat) : (c.dset key v).dget key = v := by
  unfold Chip.dget Chip.dset
  by_cases h : v = dfltOf key <;> simp [h]

theorem Chip.dget_dset (c : Chip) (key v j : Nat) : (c.dset key v).dget j = if j = key then v else c.dget j := by
  by_cases h : j = key
  · subst h; simp
  · unfold Chip.dget Chip.dset
    by_cases hv : v = dfltOf key <;> simp [hv, h, tabGet?_tabDel, tabGet?_tabSet]

theorem dictWf_dset (c : Chip) (key v : Nat) (h : dictWf c.dict = true) : dictWf (c.dset key v).dict = true := by
  unfold dictWf at *
  simp only [Bool.and_eq_true, List.all_eq_true, bne_iff_ne, ne_eq] at *
  unfold Chip.dset
  by_cases hv : v = dfltOf key
  · simp only [hv, if_true]
    exact ⟨tabSorted_tabDel _ _ h.1, fun p hp => h.2 p (List.mem_filter.1 hp).1⟩
  · simp only [hv, if_false]
    refine ⟨tabSorted_tabSet _ _ _ h.1, fun p hp => ?_⟩
    rcases tabSet_keys _ _ _ hp with rfl | hp
    · exact hv
    · exact h.2 p hp

end Sys2Proof.Machine
end

