-- ==== Sys2Proof/Laws/State.lean ====
section
/-! SUPPORT. What each update of the chip leaves, one lemma per update, and what a read of the updated part gives. -/

namespace Sys2Proof.Machine

/-- Everything but `dict`. -/
@[simp] theorem Chip.dset_rest (c : Chip) (key v : Nat) :
    (c.dset key v).now = c.now ∧ (c.dset key v).frees = c.frees ∧ (c.dset key v).straps = c.straps ∧
    (c.dset key v).grade = c.grade ∧ (c.dset key v).engine = c.engine ∧ (c.dset key v).request = c.request ∧
    (c.dset key v).epoch = c.epoch ∧ (c.dset key v).cues = c.cues ∧
    (c.dset key v).armQueue = c.armQueue ∧ (c.dset key v).lastArm = c.lastArm ∧ (c.dset key v).trig = c.trig ∧
    (c.dset key v).epochHi = c.epochHi ∧ (c.dset key v).ctl = c.ctl ∧ (c.dset key v).voices = c.voices ∧
    (c.dset key v).keeps = c.keeps ∧ (c.dset key v).arbiter = c.arbiter ∧ (c.dset key v).hostMem = c.hostMem ∧
    (c.dset key v).msixSent = c.msixSent ∧ (c.dset key v).readData = c.readData ∧ (c.dset key v).reply = c.reply ∧
    (c.dset key v).pcie = c.pcie ∧ (c.dset key v).usb = c.usb ∧ (c.dset key v).can = c.can ∧
    (c.dset key v).unsent = c.unsent ∧ (c.dset key v).tensors = c.tensors ∧ (c.dset key v).resets = c.resets ∧
    (c.dset key v).transients = c.transients ∧
    (c.dset key v).ledger = c.ledger ∧ (c.dset key v).moves = c.moves ∧ (c.dset key v).tier0 = c.tier0 ∧
    (c.dset key v).tier1 = c.tier1 ∧ (c.dset key v).tier2 = c.tier2 ∧ (c.dset key v).faults = c.faults ∧
    (c.dset key v).board = c.board ∧ (c.dset key v).reserved = c.reserved ∧ (c.dset key v).lp5x = c.lp5x ∧
    (c.dset key v).cams = c.cams ∧ (c.dset key v).gov = c.gov ∧ (c.dset key v).inertial = c.inertial ∧
    (c.dset key v).groups = c.groups ∧ (c.dset key v).spi = c.spi ∧ (c.dset key v).encoders = c.encoders ∧
    (c.dset key v).tablatures = c.tablatures ∧ (c.dset key v).lanes = c.lanes ∧ (c.dset key v).passages = c.passages ∧
    (c.dset key v).arrayPtr = c.arrayPtr ∧ (c.dset key v).breeze = c.breeze ∧ (c.dset key v).ests = c.ests ∧
    (c.dset key v).models = c.models ∧ (c.dset key v).mesh = c.mesh ∧ (c.dset key v).flash = c.flash ∧
    (c.dset key v).tap = c.tap := by
  refine ⟨rfl, rfl, rfl, rfl, rfl, rfl, rfl, rfl, rfl, rfl, rfl, rfl, rfl, rfl, rfl, rfl, rfl, rfl, rfl, rfl, rfl, rfl, rfl, rfl, rfl, rfl, rfl, rfl, rfl, rfl, rfl, rfl, rfl, rfl, rfl, rfl, rfl, rfl, rfl, rfl, rfl, rfl, rfl, rfl, rfl, rfl, rfl, rfl, rfl, rfl, rfl, rfl⟩

/-- Everything but `dict`. -/
@[simp] theorem Chip.dinc_rest (c : Chip) (key : Nat) :
    (c.dinc key).now = c.now ∧ (c.dinc key).frees = c.frees ∧ (c.dinc key).straps = c.straps ∧
    (c.dinc key).grade = c.grade ∧ (c.dinc key).engine = c.engine ∧ (c.dinc key).request = c.request ∧
    (c.dinc key).epoch = c.epoch ∧ (c.dinc key).cues = c.cues ∧
    (c.dinc key).armQueue = c.armQueue ∧ (c.dinc key).lastArm = c.lastArm ∧ (c.dinc key).trig = c.trig ∧
    (c.dinc key).epochHi = c.epochHi ∧ (c.dinc key).ctl = c.ctl ∧ (c.dinc key).voices = c.voices ∧
    (c.dinc key).keeps = c.keeps ∧ (c.dinc key).arbiter = c.arbiter ∧ (c.dinc key).hostMem = c.hostMem ∧
    (c.dinc key).msixSent = c.msixSent ∧ (c.dinc key).readData = c.readData ∧ (c.dinc key).reply = c.reply ∧
    (c.dinc key).pcie = c.pcie ∧ (c.dinc key).usb = c.usb ∧ (c.dinc key).can = c.can ∧
    (c.dinc key).unsent = c.unsent ∧ (c.dinc key).tensors = c.tensors ∧ (c.dinc key).resets = c.resets ∧
    (c.dinc key).transients = c.transients ∧
    (c.dinc key).ledger = c.ledger ∧ (c.dinc key).moves = c.moves ∧ (c.dinc key).tier0 = c.tier0 ∧
    (c.dinc key).tier1 = c.tier1 ∧ (c.dinc key).tier2 = c.tier2 ∧ (c.dinc key).faults = c.faults ∧
    (c.dinc key).board = c.board ∧ (c.dinc key).reserved = c.reserved ∧ (c.dinc key).lp5x = c.lp5x ∧
    (c.dinc key).cams = c.cams ∧ (c.dinc key).gov = c.gov ∧ (c.dinc key).inertial = c.inertial ∧
    (c.dinc key).groups = c.groups ∧ (c.dinc key).spi = c.spi ∧ (c.dinc key).encoders = c.encoders ∧
    (c.dinc key).tablatures = c.tablatures ∧ (c.dinc key).lanes = c.lanes ∧ (c.dinc key).passages = c.passages ∧
    (c.dinc key).arrayPtr = c.arrayPtr ∧ (c.dinc key).breeze = c.breeze ∧ (c.dinc key).ests = c.ests ∧
    (c.dinc key).models = c.models ∧ (c.dinc key).mesh = c.mesh ∧ (c.dinc key).flash = c.flash ∧
    (c.dinc key).tap = c.tap := by
  refine ⟨rfl, rfl, rfl, rfl, rfl, rfl, rfl, rfl, rfl, rfl, rfl, rfl, rfl, rfl, rfl, rfl, rfl, rfl, rfl, rfl, rfl, rfl, rfl, rfl, rfl, rfl, rfl, rfl, rfl, rfl, rfl, rfl, rfl, rfl, rfl, rfl, rfl, rfl, rfl, rfl, rfl, rfl, rfl, rfl, rfl, rfl, rfl, rfl, rfl, rfl, rfl, rfl⟩

/-- Everything but `dict`. -/
@[simp] theorem Chip.dadd_rest (c : Chip) (key n : Nat) :
    (c.dadd key n).now = c.now ∧ (c.dadd key n).frees = c.frees ∧ (c.dadd key n).straps = c.straps ∧
    (c.dadd key n).grade = c.grade ∧ (c.dadd key n).engine = c.engine ∧ (c.dadd key n).request = c.request ∧
    (c.dadd key n).epoch = c.epoch ∧ (c.dadd key n).cues = c.cues ∧
    (c.dadd key n).armQueue = c.armQueue ∧ (c.dadd key n).lastArm = c.lastArm ∧ (c.dadd key n).trig = c.trig ∧
    (c.dadd key n).epochHi = c.epochHi ∧ (c.dadd key n).ctl = c.ctl ∧ (c.dadd key n).voices = c.voices ∧
    (c.dadd key n).keeps = c.keeps ∧ (c.dadd key n).arbiter = c.arbiter ∧ (c.dadd key n).hostMem = c.hostMem ∧
    (c.dadd key n).msixSent = c.msixSent ∧ (c.dadd key n).readData = c.readData ∧ (c.dadd key n).reply = c.reply ∧
    (c.dadd key n).pcie = c.pcie ∧ (c.dadd key n).usb = c.usb ∧ (c.dadd key n).can = c.can ∧
    (c.dadd key n).unsent = c.unsent ∧ (c.dadd key n).tensors = c.tensors ∧ (c.dadd key n).resets = c.resets ∧
    (c.dadd key n).transients = c.transients ∧
    (c.dadd key n).ledger = c.ledger ∧ (c.dadd key n).moves = c.moves ∧ (c.dadd key n).tier0 = c.tier0 ∧
    (c.dadd key n).tier1 = c.tier1 ∧ (c.dadd key n).tier2 = c.tier2 ∧ (c.dadd key n).faults = c.faults ∧
    (c.dadd key n).board = c.board ∧ (c.dadd key n).reserved = c.reserved ∧ (c.dadd key n).lp5x = c.lp5x ∧
    (c.dadd key n).cams = c.cams ∧ (c.dadd key n).gov = c.gov ∧ (c.dadd key n).inertial = c.inertial ∧
    (c.dadd key n).groups = c.groups ∧ (c.dadd key n).spi = c.spi ∧ (c.dadd key n).encoders = c.encoders ∧
    (c.dadd key n).tablatures = c.tablatures ∧ (c.dadd key n).lanes = c.lanes ∧ (c.dadd key n).passages = c.passages ∧
    (c.dadd key n).arrayPtr = c.arrayPtr ∧ (c.dadd key n).breeze = c.breeze ∧ (c.dadd key n).ests = c.ests ∧
    (c.dadd key n).models = c.models ∧ (c.dadd key n).mesh = c.mesh ∧ (c.dadd key n).flash = c.flash ∧
    (c.dadd key n).tap = c.tap := by
  refine ⟨rfl, rfl, rfl, rfl, rfl, rfl, rfl, rfl, rfl, rfl, rfl, rfl, rfl, rfl, rfl, rfl, rfl, rfl, rfl, rfl, rfl, rfl, rfl, rfl, rfl, rfl, rfl, rfl, rfl, rfl, rfl, rfl, rfl, rfl, rfl, rfl, rfl, rfl, rfl, rfl, rfl, rfl, rfl, rfl, rfl, rfl, rfl, rfl, rfl, rfl, rfl, rfl⟩

/-- Everything but `dict`. -/
@[simp] theorem Chip.dadd64_rest (c : Chip) (key n : Nat) :
    (c.dadd64 key n).now = c.now ∧ (c.dadd64 key n).frees = c.frees ∧ (c.dadd64 key n).straps = c.straps ∧
    (c.dadd64 key n).grade = c.grade ∧ (c.dadd64 key n).engine = c.engine ∧ (c.dadd64 key n).request = c.request ∧
    (c.dadd64 key n).epoch = c.epoch ∧ (c.dadd64 key n).cues = c.cues ∧
    (c.dadd64 key n).armQueue = c.armQueue ∧ (c.dadd64 key n).lastArm = c.lastArm ∧ (c.dadd64 key n).trig = c.trig ∧
    (c.dadd64 key n).epochHi = c.epochHi ∧ (c.dadd64 key n).ctl = c.ctl ∧ (c.dadd64 key n).voices = c.voices ∧
    (c.dadd64 key n).keeps = c.keeps ∧ (c.dadd64 key n).arbiter = c.arbiter ∧ (c.dadd64 key n).hostMem = c.hostMem ∧
    (c.dadd64 key n).msixSent = c.msixSent ∧ (c.dadd64 key n).readData = c.readData ∧ (c.dadd64 key n).reply = c.reply ∧
    (c.dadd64 key n).pcie = c.pcie ∧ (c.dadd64 key n).usb = c.usb ∧ (c.dadd64 key n).can = c.can ∧
    (c.dadd64 key n).unsent = c.unsent ∧ (c.dadd64 key n).tensors = c.tensors ∧ (c.dadd64 key n).resets = c.resets ∧
    (c.dadd64 key n).transients = c.transients ∧
    (c.dadd64 key n).ledger = c.ledger ∧ (c.dadd64 key n).moves = c.moves ∧ (c.dadd64 key n).tier0 = c.tier0 ∧
    (c.dadd64 key n).tier1 = c.tier1 ∧ (c.dadd64 key n).tier2 = c.tier2 ∧ (c.dadd64 key n).faults = c.faults ∧
    (c.dadd64 key n).board = c.board ∧ (c.dadd64 key n).reserved = c.reserved ∧ (c.dadd64 key n).lp5x = c.lp5x ∧
    (c.dadd64 key n).cams = c.cams ∧ (c.dadd64 key n).gov = c.gov ∧ (c.dadd64 key n).inertial = c.inertial ∧
    (c.dadd64 key n).groups = c.groups ∧ (c.dadd64 key n).spi = c.spi ∧ (c.dadd64 key n).encoders = c.encoders ∧
    (c.dadd64 key n).tablatures = c.tablatures ∧ (c.dadd64 key n).lanes = c.lanes ∧ (c.dadd64 key n).passages = c.passages ∧
    (c.dadd64 key n).arrayPtr = c.arrayPtr ∧ (c.dadd64 key n).breeze = c.breeze ∧ (c.dadd64 key n).ests = c.ests ∧
    (c.dadd64 key n).models = c.models ∧ (c.dadd64 key n).mesh = c.mesh ∧ (c.dadd64 key n).flash = c.flash ∧
    (c.dadd64 key n).tap = c.tap := by
  refine ⟨rfl, rfl, rfl, rfl, rfl, rfl, rfl, rfl, rfl, rfl, rfl, rfl, rfl, rfl, rfl, rfl, rfl, rfl, rfl, rfl, rfl, rfl, rfl, rfl, rfl, rfl, rfl, rfl, rfl, rfl, rfl, rfl, rfl, rfl, rfl, rfl, rfl, rfl, rfl, rfl, rfl, rfl, rfl, rfl, rfl, rfl, rfl, rfl, rfl, rfl, rfl, rfl⟩

/-- Everything but `dict`. -/
@[simp] theorem Chip.dsat_rest (c : Chip) (key top : Nat) :
    (c.dsat key top).now = c.now ∧ (c.dsat key top).frees = c.frees ∧ (c.dsat key top).straps = c.straps ∧
    (c.dsat key top).grade = c.grade ∧ (c.dsat key top).engine = c.engine ∧ (c.dsat key top).request = c.request ∧
    (c.dsat key top).epoch = c.epoch ∧ (c.dsat key top).cues = c.cues ∧
    (c.dsat key top).armQueue = c.armQueue ∧ (c.dsat key top).lastArm = c.lastArm ∧ (c.dsat key top).trig = c.trig ∧
    (c.dsat key top).epochHi = c.epochHi ∧ (c.dsat key top).ctl = c.ctl ∧ (c.dsat key top).voices = c.voices ∧
    (c.dsat key top).keeps = c.keeps ∧ (c.dsat key top).arbiter = c.arbiter ∧ (c.dsat key top).hostMem = c.hostMem ∧
    (c.dsat key top).msixSent = c.msixSent ∧ (c.dsat key top).readData = c.readData ∧ (c.dsat key top).reply = c.reply ∧
    (c.dsat key top).pcie = c.pcie ∧ (c.dsat key top).usb = c.usb ∧ (c.dsat key top).can = c.can ∧
    (c.dsat key top).unsent = c.unsent ∧ (c.dsat key top).tensors = c.tensors ∧ (c.dsat key top).resets = c.resets ∧
    (c.dsat key top).transients = c.transients ∧
    (c.dsat key top).ledger = c.ledger ∧ (c.dsat key top).moves = c.moves ∧ (c.dsat key top).tier0 = c.tier0 ∧
    (c.dsat key top).tier1 = c.tier1 ∧ (c.dsat key top).tier2 = c.tier2 ∧ (c.dsat key top).faults = c.faults ∧
    (c.dsat key top).board = c.board ∧ (c.dsat key top).reserved = c.reserved ∧ (c.dsat key top).lp5x = c.lp5x ∧
    (c.dsat key top).cams = c.cams ∧ (c.dsat key top).gov = c.gov ∧ (c.dsat key top).inertial = c.inertial ∧
    (c.dsat key top).groups = c.groups ∧ (c.dsat key top).spi = c.spi ∧ (c.dsat key top).encoders = c.encoders ∧
    (c.dsat key top).tablatures = c.tablatures ∧ (c.dsat key top).lanes = c.lanes ∧ (c.dsat key top).passages = c.passages ∧
    (c.dsat key top).arrayPtr = c.arrayPtr ∧ (c.dsat key top).breeze = c.breeze ∧ (c.dsat key top).ests = c.ests ∧
    (c.dsat key top).models = c.models ∧ (c.dsat key top).mesh = c.mesh ∧ (c.dsat key top).flash = c.flash ∧
    (c.dsat key top).tap = c.tap := by
  refine ⟨rfl, rfl, rfl, rfl, rfl, rfl, rfl, rfl, rfl, rfl, rfl, rfl, rfl, rfl, rfl, rfl, rfl, rfl, rfl, rfl, rfl, rfl, rfl, rfl, rfl, rfl, rfl, rfl, rfl, rfl, rfl, rfl, rfl, rfl, rfl, rfl, rfl, rfl, rfl, rfl, rfl, rfl, rfl, rfl, rfl, rfl, rfl, rfl, rfl, rfl, rfl, rfl⟩

/-- Everything but `voices`. -/
@[simp] theorem Chip.setVoice_rest (c : Chip) (v : Nat) (x : Voice) :
    (c.setVoice v x).now = c.now ∧ (c.setVoice v x).frees = c.frees ∧ (c.setVoice v x).straps = c.straps ∧
    (c.setVoice v x).grade = c.grade ∧ (c.setVoice v x).engine = c.engine ∧ (c.setVoice v x).request = c.request ∧
    (c.setVoice v x).dict = c.dict ∧ (c.setVoice v x).epoch = c.epoch ∧ (c.setVoice v x).cues = c.cues ∧
    (c.setVoice v x).armQueue = c.armQueue ∧ (c.setVoice v x).lastArm = c.lastArm ∧ (c.setVoice v x).trig = c.trig ∧
    (c.setVoice v x).epochHi = c.epochHi ∧ (c.setVoice v x).ctl = c.ctl ∧
    (c.setVoice v x).keeps = c.keeps ∧ (c.setVoice v x).arbiter = c.arbiter ∧ (c.setVoice v x).hostMem = c.hostMem ∧
    (c.setVoice v x).msixSent = c.msixSent ∧ (c.setVoice v x).readData = c.readData ∧ (c.setVoice v x).reply = c.reply ∧
    (c.setVoice v x).pcie = c.pcie ∧ (c.setVoice v x).usb = c.usb ∧ (c.setVoice v x).can = c.can ∧
    (c.setVoice v x).unsent = c.unsent ∧ (c.setVoice v x).tensors = c.tensors ∧ (c.setVoice v x).resets = c.resets ∧
    (c.setVoice v x).transients = c.transients ∧
    (c.setVoice v x).ledger = c.ledger ∧ (c.setVoice v x).moves = c.moves ∧ (c.setVoice v x).tier0 = c.tier0 ∧
    (c.setVoice v x).tier1 = c.tier1 ∧ (c.setVoice v x).tier2 = c.tier2 ∧ (c.setVoice v x).faults = c.faults ∧
    (c.setVoice v x).board = c.board ∧ (c.setVoice v x).reserved = c.reserved ∧ (c.setVoice v x).lp5x = c.lp5x ∧
    (c.setVoice v x).cams = c.cams ∧ (c.setVoice v x).gov = c.gov ∧ (c.setVoice v x).inertial = c.inertial ∧
    (c.setVoice v x).groups = c.groups ∧ (c.setVoice v x).spi = c.spi ∧ (c.setVoice v x).encoders = c.encoders ∧
    (c.setVoice v x).tablatures = c.tablatures ∧ (c.setVoice v x).lanes = c.lanes ∧ (c.setVoice v x).passages = c.passages ∧
    (c.setVoice v x).arrayPtr = c.arrayPtr ∧ (c.setVoice v x).breeze = c.breeze ∧ (c.setVoice v x).ests = c.ests ∧
    (c.setVoice v x).models = c.models ∧ (c.setVoice v x).mesh = c.mesh ∧ (c.setVoice v x).flash = c.flash ∧
    (c.setVoice v x).tap = c.tap := by
  refine ⟨rfl, rfl, rfl, rfl, rfl, rfl, rfl, rfl, rfl, rfl, rfl, rfl, rfl, rfl, rfl, rfl, rfl, rfl, rfl, rfl, rfl, rfl, rfl, rfl, rfl, rfl, rfl, rfl, rfl, rfl, rfl, rfl, rfl, rfl, rfl, rfl, rfl, rfl, rfl, rfl, rfl, rfl, rfl, rfl, rfl, rfl, rfl, rfl, rfl, rfl, rfl, rfl⟩

@[simp] theorem Chip.voice_setVoice_same (c : Chip) (v : Nat) (x : Voice) : (c.setVoice v x).voice v = x := by
  simp [Chip.setVoice, Chip.voice]

theorem Chip.voice_setVoice (c : Chip) (j v : Nat) (x : Voice) : (c.setVoice v x).voice j = if j = v then x else c.voice j := by
  simp [Chip.setVoice, Chip.voice, tabGet_tabSet]

/-- Everything but `keeps`. -/
@[simp] theorem Chip.setKeep_rest (c : Chip) (v : Nat) (x : VoiceKeep) :
    (c.setKeep v x).now = c.now ∧ (c.setKeep v x).frees = c.frees ∧ (c.setKeep v x).straps = c.straps ∧
    (c.setKeep v x).grade = c.grade ∧ (c.setKeep v x).engine = c.engine ∧ (c.setKeep v x).request = c.request ∧
    (c.setKeep v x).dict = c.dict ∧ (c.setKeep v x).epoch = c.epoch ∧ (c.setKeep v x).cues = c.cues ∧
    (c.setKeep v x).armQueue = c.armQueue ∧ (c.setKeep v x).lastArm = c.lastArm ∧ (c.setKeep v x).trig = c.trig ∧
    (c.setKeep v x).epochHi = c.epochHi ∧ (c.setKeep v x).ctl = c.ctl ∧ (c.setKeep v x).voices = c.voices ∧
    (c.setKeep v x).arbiter = c.arbiter ∧ (c.setKeep v x).hostMem = c.hostMem ∧
    (c.setKeep v x).msixSent = c.msixSent ∧ (c.setKeep v x).readData = c.readData ∧ (c.setKeep v x).reply = c.reply ∧
    (c.setKeep v x).pcie = c.pcie ∧ (c.setKeep v x).usb = c.usb ∧ (c.setKeep v x).can = c.can ∧
    (c.setKeep v x).unsent = c.unsent ∧ (c.setKeep v x).tensors = c.tensors ∧ (c.setKeep v x).resets = c.resets ∧
    (c.setKeep v x).transients = c.transients ∧
    (c.setKeep v x).ledger = c.ledger ∧ (c.setKeep v x).moves = c.moves ∧ (c.setKeep v x).tier0 = c.tier0 ∧
    (c.setKeep v x).tier1 = c.tier1 ∧ (c.setKeep v x).tier2 = c.tier2 ∧ (c.setKeep v x).faults = c.faults ∧
    (c.setKeep v x).board = c.board ∧ (c.setKeep v x).reserved = c.reserved ∧ (c.setKeep v x).lp5x = c.lp5x ∧
    (c.setKeep v x).cams = c.cams ∧ (c.setKeep v x).gov = c.gov ∧ (c.setKeep v x).inertial = c.inertial ∧
    (c.setKeep v x).groups = c.groups ∧ (c.setKeep v x).spi = c.spi ∧ (c.setKeep v x).encoders = c.encoders ∧
    (c.setKeep v x).tablatures = c.tablatures ∧ (c.setKeep v x).lanes = c.lanes ∧ (c.setKeep v x).passages = c.passages ∧
    (c.setKeep v x).arrayPtr = c.arrayPtr ∧ (c.setKeep v x).breeze = c.breeze ∧ (c.setKeep v x).ests = c.ests ∧
    (c.setKeep v x).models = c.models ∧ (c.setKeep v x).mesh = c.mesh ∧ (c.setKeep v x).flash = c.flash ∧
    (c.setKeep v x).tap = c.tap := by
  refine ⟨rfl, rfl, rfl, rfl, rfl, rfl, rfl, rfl, rfl, rfl, rfl, rfl, rfl, rfl, rfl, rfl, rfl, rfl, rfl, rfl, rfl, rfl, rfl, rfl, rfl, rfl, rfl, rfl, rfl, rfl, rfl, rfl, rfl, rfl, rfl, rfl, rfl, rfl, rfl, rfl, rfl, rfl, rfl, rfl, rfl, rfl, rfl, rfl, rfl, rfl, rfl, rfl⟩

@[simp] theorem Chip.keep_setKeep_same (c : Chip) (v : Nat) (x : VoiceKeep) : (c.setKeep v x).keep v = x := by
  simp [Chip.setKeep, Chip.keep]

theorem Chip.keep_setKeep (c : Chip) (j v : Nat) (x : VoiceKeep) : (c.setKeep v x).keep j = if j = v then x else c.keep j := by
  simp [Chip.setKeep, Chip.keep, tabGet_tabSet]

/-- Everything but `cues`. -/
@[simp] theorem Chip.setCue_rest (c : Chip) (k : Nat) (x : Cue) :
    (c.setCue k x).now = c.now ∧ (c.setCue k x).frees = c.frees ∧ (c.setCue k x).straps = c.straps ∧
    (c.setCue k x).grade = c.grade ∧ (c.setCue k x).engine = c.engine ∧ (c.setCue k x).request = c.request ∧
    (c.setCue k x).dict = c.dict ∧ (c.setCue k x).epoch = c.epoch ∧
    (c.setCue k x).armQueue = c.armQueue ∧ (c.setCue k x).lastArm = c.lastArm ∧ (c.setCue k x).trig = c.trig ∧
    (c.setCue k x).epochHi = c.epochHi ∧ (c.setCue k x).ctl = c.ctl ∧ (c.setCue k x).voices = c.voices ∧
    (c.setCue k x).keeps = c.keeps ∧ (c.setCue k x).arbiter = c.arbiter ∧ (c.setCue k x).hostMem = c.hostMem ∧
    (c.setCue k x).msixSent = c.msixSent ∧ (c.setCue k x).readData = c.readData ∧ (c.setCue k x).reply = c.reply ∧
    (c.setCue k x).pcie = c.pcie ∧ (c.setCue k x).usb = c.usb ∧ (c.setCue k x).can = c.can ∧
    (c.setCue k x).unsent = c.unsent ∧ (c.setCue k x).tensors = c.tensors ∧ (c.setCue k x).resets = c.resets ∧
    (c.setCue k x).transients = c.transients ∧
    (c.setCue k x).ledger = c.ledger ∧ (c.setCue k x).moves = c.moves ∧ (c.setCue k x).tier0 = c.tier0 ∧
    (c.setCue k x).tier1 = c.tier1 ∧ (c.setCue k x).tier2 = c.tier2 ∧ (c.setCue k x).faults = c.faults ∧
    (c.setCue k x).board = c.board ∧ (c.setCue k x).reserved = c.reserved ∧ (c.setCue k x).lp5x = c.lp5x ∧
    (c.setCue k x).cams = c.cams ∧ (c.setCue k x).gov = c.gov ∧ (c.setCue k x).inertial = c.inertial ∧
    (c.setCue k x).groups = c.groups ∧ (c.setCue k x).spi = c.spi ∧ (c.setCue k x).encoders = c.encoders ∧
    (c.setCue k x).tablatures = c.tablatures ∧ (c.setCue k x).lanes = c.lanes ∧ (c.setCue k x).passages = c.passages ∧
    (c.setCue k x).arrayPtr = c.arrayPtr ∧ (c.setCue k x).breeze = c.breeze ∧ (c.setCue k x).ests = c.ests ∧
    (c.setCue k x).models = c.models ∧ (c.setCue k x).mesh = c.mesh ∧ (c.setCue k x).flash = c.flash ∧
    (c.setCue k x).tap = c.tap := by
  refine ⟨rfl, rfl, rfl, rfl, rfl, rfl, rfl, rfl, rfl, rfl, rfl, rfl, rfl, rfl, rfl, rfl, rfl, rfl, rfl, rfl, rfl, rfl, rfl, rfl, rfl, rfl, rfl, rfl, rfl, rfl, rfl, rfl, rfl, rfl, rfl, rfl, rfl, rfl, rfl, rfl, rfl, rfl, rfl, rfl, rfl, rfl, rfl, rfl, rfl, rfl, rfl, rfl⟩

@[simp] theorem Chip.cue_setCue_same (c : Chip) (k : Nat) (x : Cue) : (c.setCue k x).cue k = x := by
  simp [Chip.setCue, Chip.cue]

theorem Chip.cue_setCue (c : Chip) (j k : Nat) (x : Cue) : (c.setCue k x).cue j = if j = k then x else c.cue j := by
  simp [Chip.setCue, Chip.cue, tabGet_tabSet]

/-- Everything but `can`. -/
@[simp] theorem Chip.setPort_rest (c : Chip) (p : Nat) (x : CanPort) :
    (c.setPort p x).now = c.now ∧ (c.setPort p x).frees = c.frees ∧ (c.setPort p x).straps = c.straps ∧
    (c.setPort p x).grade = c.grade ∧ (c.setPort p x).engine = c.engine ∧ (c.setPort p x).request = c.request ∧
    (c.setPort p x).dict = c.dict ∧ (c.setPort p x).epoch = c.epoch ∧ (c.setPort p x).cues = c.cues ∧
    (c.setPort p x).armQueue = c.armQueue ∧ (c.setPort p x).lastArm = c.lastArm ∧ (c.setPort p x).trig = c.trig ∧
    (c.setPort p x).epochHi = c.epochHi ∧ (c.setPort p x).ctl = c.ctl ∧ (c.setPort p x).voices = c.voices ∧
    (c.setPort p x).keeps = c.keeps ∧ (c.setPort p x).arbiter = c.arbiter ∧ (c.setPort p x).hostMem = c.hostMem ∧
    (c.setPort p x).msixSent = c.msixSent ∧ (c.setPort p x).readData = c.readData ∧ (c.setPort p x).reply = c.reply ∧
    (c.setPort p x).pcie = c.pcie ∧ (c.setPort p x).usb = c.usb ∧
    (c.setPort p x).unsent = c.unsent ∧ (c.setPort p x).tensors = c.tensors ∧ (c.setPort p x).resets = c.resets ∧
    (c.setPort p x).transients = c.transients ∧
    (c.setPort p x).ledger = c.ledger ∧ (c.setPort p x).moves = c.moves ∧ (c.setPort p x).tier0 = c.tier0 ∧
    (c.setPort p x).tier1 = c.tier1 ∧ (c.setPort p x).tier2 = c.tier2 ∧ (c.setPort p x).faults = c.faults ∧
    (c.setPort p x).board = c.board ∧ (c.setPort p x).reserved = c.reserved ∧ (c.setPort p x).lp5x = c.lp5x ∧
    (c.setPort p x).cams = c.cams ∧ (c.setPort p x).gov = c.gov ∧ (c.setPort p x).inertial = c.inertial ∧
    (c.setPort p x).groups = c.groups ∧ (c.setPort p x).spi = c.spi ∧ (c.setPort p x).encoders = c.encoders ∧
    (c.setPort p x).tablatures = c.tablatures ∧ (c.setPort p x).lanes = c.lanes ∧ (c.setPort p x).passages = c.passages ∧
    (c.setPort p x).arrayPtr = c.arrayPtr ∧ (c.setPort p x).breeze = c.breeze ∧ (c.setPort p x).ests = c.ests ∧
    (c.setPort p x).models = c.models ∧ (c.setPort p x).mesh = c.mesh ∧ (c.setPort p x).flash = c.flash ∧
    (c.setPort p x).tap = c.tap := by
  refine ⟨rfl, rfl, rfl, rfl, rfl, rfl, rfl, rfl, rfl, rfl, rfl, rfl, rfl, rfl, rfl, rfl, rfl, rfl, rfl, rfl, rfl, rfl, rfl, rfl, rfl, rfl, rfl, rfl, rfl, rfl, rfl, rfl, rfl, rfl, rfl, rfl, rfl, rfl, rfl, rfl, rfl, rfl, rfl, rfl, rfl, rfl, rfl, rfl, rfl, rfl, rfl, rfl⟩

@[simp] theorem Chip.port_setPort_same (c : Chip) (p : Nat) (x : CanPort) : (c.setPort p x).port p = x := by
  simp [Chip.setPort, Chip.port]

theorem Chip.port_setPort (c : Chip) (j p : Nat) (x : CanPort) : (c.setPort p x).port j = if j = p then x else c.port j := by
  simp [Chip.setPort, Chip.port, tabGet_tabSet]

/-- Everything but `trig`. -/
@[simp] theorem Chip.setPin_rest (c : Chip) (p : Nat) (x : TrigPin) :
    (c.setPin p x).now = c.now ∧ (c.setPin p x).frees = c.frees ∧ (c.setPin p x).straps = c.straps ∧
    (c.setPin p x).grade = c.grade ∧ (c.setPin p x).engine = c.engine ∧ (c.setPin p x).request = c.request ∧
    (c.setPin p x).dict = c.dict ∧ (c.setPin p x).epoch = c.epoch ∧ (c.setPin p x).cues = c.cues ∧
    (c.setPin p x).armQueue = c.armQueue ∧ (c.setPin p x).lastArm = c.lastArm ∧
    (c.setPin p x).epochHi = c.epochHi ∧ (c.setPin p x).ctl = c.ctl ∧ (c.setPin p x).voices = c.voices ∧
    (c.setPin p x).keeps = c.keeps ∧ (c.setPin p x).arbiter = c.arbiter ∧ (c.setPin p x).hostMem = c.hostMem ∧
    (c.setPin p x).msixSent = c.msixSent ∧ (c.setPin p x).readData = c.readData ∧ (c.setPin p x).reply = c.reply ∧
    (c.setPin p x).pcie = c.pcie ∧ (c.setPin p x).usb = c.usb ∧ (c.setPin p x).can = c.can ∧
    (c.setPin p x).unsent = c.unsent ∧ (c.setPin p x).tensors = c.tensors ∧ (c.setPin p x).resets = c.resets ∧
    (c.setPin p x).transients = c.transients ∧
    (c.setPin p x).ledger = c.ledger ∧ (c.setPin p x).moves = c.moves ∧ (c.setPin p x).tier0 = c.tier0 ∧
    (c.setPin p x).tier1 = c.tier1 ∧ (c.setPin p x).tier2 = c.tier2 ∧ (c.setPin p x).faults = c.faults ∧
    (c.setPin p x).board = c.board ∧ (c.setPin p x).reserved = c.reserved ∧ (c.setPin p x).lp5x = c.lp5x ∧
    (c.setPin p x).cams = c.cams ∧ (c.setPin p x).gov = c.gov ∧ (c.setPin p x).inertial = c.inertial ∧
    (c.setPin p x).groups = c.groups ∧ (c.setPin p x).spi = c.spi ∧ (c.setPin p x).encoders = c.encoders ∧
    (c.setPin p x).tablatures = c.tablatures ∧ (c.setPin p x).lanes = c.lanes ∧ (c.setPin p x).passages = c.passages ∧
    (c.setPin p x).arrayPtr = c.arrayPtr ∧ (c.setPin p x).breeze = c.breeze ∧ (c.setPin p x).ests = c.ests ∧
    (c.setPin p x).models = c.models ∧ (c.setPin p x).mesh = c.mesh ∧ (c.setPin p x).flash = c.flash ∧
    (c.setPin p x).tap = c.tap := by
  refine ⟨rfl, rfl, rfl, rfl, rfl, rfl, rfl, rfl, rfl, rfl, rfl, rfl, rfl, rfl, rfl, rfl, rfl, rfl, rfl, rfl, rfl, rfl, rfl, rfl, rfl, rfl, rfl, rfl, rfl, rfl, rfl, rfl, rfl, rfl, rfl, rfl, rfl, rfl, rfl, rfl, rfl, rfl, rfl, rfl, rfl, rfl, rfl, rfl, rfl, rfl, rfl, rfl⟩

@[simp] theorem Chip.pin_setPin_same (c : Chip) (p : Nat) (x : TrigPin) : (c.setPin p x).pin p = x := by
  simp [Chip.setPin, Chip.pin]

theorem Chip.pin_setPin (c : Chip) (j p : Nat) (x : TrigPin) : (c.setPin p x).pin j = if j = p then x else c.pin j := by
  simp [Chip.setPin, Chip.pin, tabGet_tabSet]

/-- Everything but `passages`. -/
@[simp] theorem Chip.setPassage_rest (c : Chip) (t : Nat) (x : Passage) :
    (c.setPassage t x).now = c.now ∧ (c.setPassage t x).frees = c.frees ∧ (c.setPassage t x).straps = c.straps ∧
    (c.setPassage t x).grade = c.grade ∧ (c.setPassage t x).engine = c.engine ∧ (c.setPassage t x).request = c.request ∧
    (c.setPassage t x).dict = c.dict ∧ (c.setPassage t x).epoch = c.epoch ∧ (c.setPassage t x).cues = c.cues ∧
    (c.setPassage t x).armQueue = c.armQueue ∧ (c.setPassage t x).lastArm = c.lastArm ∧ (c.setPassage t x).trig = c.trig ∧
    (c.setPassage t x).epochHi = c.epochHi ∧ (c.setPassage t x).ctl = c.ctl ∧ (c.setPassage t x).voices = c.voices ∧
    (c.setPassage t x).keeps = c.keeps ∧ (c.setPassage t x).arbiter = c.arbiter ∧ (c.setPassage t x).hostMem = c.hostMem ∧
    (c.setPassage t x).msixSent = c.msixSent ∧ (c.setPassage t x).readData = c.readData ∧ (c.setPassage t x).reply = c.reply ∧
    (c.setPassage t x).pcie = c.pcie ∧ (c.setPassage t x).usb = c.usb ∧ (c.setPassage t x).can = c.can ∧
    (c.setPassage t x).unsent = c.unsent ∧ (c.setPassage t x).tensors = c.tensors ∧ (c.setPassage t x).resets = c.resets ∧
    (c.setPassage t x).transients = c.transients ∧
    (c.setPassage t x).ledger = c.ledger ∧ (c.setPassage t x).moves = c.moves ∧ (c.setPassage t x).tier0 = c.tier0 ∧
    (c.setPassage t x).tier1 = c.tier1 ∧ (c.setPassage t x).tier2 = c.tier2 ∧ (c.setPassage t x).faults = c.faults ∧
    (c.setPassage t x).board = c.board ∧ (c.setPassage t x).reserved = c.reserved ∧ (c.setPassage t x).lp5x = c.lp5x ∧
    (c.setPassage t x).cams = c.cams ∧ (c.setPassage t x).gov = c.gov ∧ (c.setPassage t x).inertial = c.inertial ∧
    (c.setPassage t x).groups = c.groups ∧ (c.setPassage t x).spi = c.spi ∧ (c.setPassage t x).encoders = c.encoders ∧
    (c.setPassage t x).tablatures = c.tablatures ∧ (c.setPassage t x).lanes = c.lanes ∧
    (c.setPassage t x).arrayPtr = c.arrayPtr ∧ (c.setPassage t x).breeze = c.breeze ∧ (c.setPassage t x).ests = c.ests ∧
    (c.setPassage t x).models = c.models ∧ (c.setPassage t x).mesh = c.mesh ∧ (c.setPassage t x).flash = c.flash ∧
    (c.setPassage t x).tap = c.tap := by
  refine ⟨rfl, rfl, rfl, rfl, rfl, rfl, rfl, rfl, rfl, rfl, rfl, rfl, rfl, rfl, rfl, rfl, rfl, rfl, rfl, rfl, rfl, rfl, rfl, rfl, rfl, rfl, rfl, rfl, rfl, rfl, rfl, rfl, rfl, rfl, rfl, rfl, rfl, rfl, rfl, rfl, rfl, rfl, rfl, rfl, rfl, rfl, rfl, rfl, rfl, rfl, rfl, rfl⟩

@[simp] theorem Chip.passage_setPassage_same (c : Chip) (t : Nat) (x : Passage) : (c.setPassage t x).passage? t = some x := by
  simp [Chip.setPassage, Chip.passage?]

theorem Chip.passage_setPassage (c : Chip) (j t : Nat) (x : Passage) : (c.setPassage t x).passage? j = if j = t then some x else c.passage? j := by
  simp [Chip.setPassage, Chip.passage?, tabGet?_tabSet]

/-- Everything but `cams`. -/
@[simp] theorem Chip.setCam_rest (c : Chip) (k : Nat) (x : Camera) :
    (c.setCam k x).now = c.now ∧ (c.setCam k x).frees = c.frees ∧ (c.setCam k x).straps = c.straps ∧
    (c.setCam k x).grade = c.grade ∧ (c.setCam k x).engine = c.engine ∧ (c.setCam k x).request = c.request ∧
    (c.setCam k x).dict = c.dict ∧ (c.setCam k x).epoch = c.epoch ∧ (c.setCam k x).cues = c.cues ∧
    (c.setCam k x).armQueue = c.armQueue ∧ (c.setCam k x).lastArm = c.lastArm ∧ (c.setCam k x).trig = c.trig ∧
    (c.setCam k x).epochHi = c.epochHi ∧ (c.setCam k x).ctl = c.ctl ∧ (c.setCam k x).voices = c.voices ∧
    (c.setCam k x).keeps = c.keeps ∧ (c.setCam k x).arbiter = c.arbiter ∧ (c.setCam k x).hostMem = c.hostMem ∧
    (c.setCam k x).msixSent = c.msixSent ∧ (c.setCam k x).readData = c.readData ∧ (c.setCam k x).reply = c.reply ∧
    (c.setCam k x).pcie = c.pcie ∧ (c.setCam k x).usb = c.usb ∧ (c.setCam k x).can = c.can ∧
    (c.setCam k x).unsent = c.unsent ∧ (c.setCam k x).tensors = c.tensors ∧ (c.setCam k x).resets = c.resets ∧
    (c.setCam k x).transients = c.transients ∧
    (c.setCam k x).ledger = c.ledger ∧ (c.setCam k x).moves = c.moves ∧ (c.setCam k x).tier0 = c.tier0 ∧
    (c.setCam k x).tier1 = c.tier1 ∧ (c.setCam k x).tier2 = c.tier2 ∧ (c.setCam k x).faults = c.faults ∧
    (c.setCam k x).board = c.board ∧ (c.setCam k x).reserved = c.reserved ∧ (c.setCam k x).lp5x = c.lp5x ∧
    (c.setCam k x).gov = c.gov ∧ (c.setCam k x).inertial = c.inertial ∧
    (c.setCam k x).groups = c.groups ∧ (c.setCam k x).spi = c.spi ∧ (c.setCam k x).encoders = c.encoders ∧
    (c.setCam k x).tablatures = c.tablatures ∧ (c.setCam k x).lanes = c.lanes ∧ (c.setCam k x).passages = c.passages ∧
    (c.setCam k x).arrayPtr = c.arrayPtr ∧ (c.setCam k x).breeze = c.breeze ∧ (c.setCam k x).ests = c.ests ∧
    (c.setCam k x).models = c.models ∧ (c.setCam k x).mesh = c.mesh ∧ (c.setCam k x).flash = c.flash ∧
    (c.setCam k x).tap = c.tap := by
  refine ⟨rfl, rfl, rfl, rfl, rfl, rfl, rfl, rfl, rfl, rfl, rfl, rfl, rfl, rfl, rfl, rfl, rfl, rfl, rfl, rfl, rfl, rfl, rfl, rfl, rfl, rfl, rfl, rfl, rfl, rfl, rfl, rfl, rfl, rfl, rfl, rfl, rfl, rfl, rfl, rfl, rfl, rfl, rfl, rfl, rfl, rfl, rfl, rfl, rfl, rfl, rfl, rfl⟩

@[simp] theorem Chip.cam_setCam_same (c : Chip) (k : Nat) (x : Camera) : (c.setCam k x).cam k = x := by
  simp [Chip.setCam, Chip.cam]

theorem Chip.cam_setCam (c : Chip) (j k : Nat) (x : Camera) : (c.setCam k x).cam j = if j = k then x else c.cam j := by
  simp [Chip.setCam, Chip.cam, tabGet_tabSet]

/-- Everything but `ests`. -/
@[simp] theorem Chip.setEst_rest (c : Chip) (i : Nat) (x : Estimator) :
    (c.setEst i x).now = c.now ∧ (c.setEst i x).frees = c.frees ∧ (c.setEst i x).straps = c.straps ∧
    (c.setEst i x).grade = c.grade ∧ (c.setEst i x).engine = c.engine ∧ (c.setEst i x).request = c.request ∧
    (c.setEst i x).dict = c.dict ∧ (c.setEst i x).epoch = c.epoch ∧ (c.setEst i x).cues = c.cues ∧
    (c.setEst i x).armQueue = c.armQueue ∧ (c.setEst i x).lastArm = c.lastArm ∧ (c.setEst i x).trig = c.trig ∧
    (c.setEst i x).epochHi = c.epochHi ∧ (c.setEst i x).ctl = c.ctl ∧ (c.setEst i x).voices = c.voices ∧
    (c.setEst i x).keeps = c.keeps ∧ (c.setEst i x).arbiter = c.arbiter ∧ (c.setEst i x).hostMem = c.hostMem ∧
    (c.setEst i x).msixSent = c.msixSent ∧ (c.setEst i x).readData = c.readData ∧ (c.setEst i x).reply = c.reply ∧
    (c.setEst i x).pcie = c.pcie ∧ (c.setEst i x).usb = c.usb ∧ (c.setEst i x).can = c.can ∧
    (c.setEst i x).unsent = c.unsent ∧ (c.setEst i x).tensors = c.tensors ∧ (c.setEst i x).resets = c.resets ∧
    (c.setEst i x).transients = c.transients ∧
    (c.setEst i x).ledger = c.ledger ∧ (c.setEst i x).moves = c.moves ∧ (c.setEst i x).tier0 = c.tier0 ∧
    (c.setEst i x).tier1 = c.tier1 ∧ (c.setEst i x).tier2 = c.tier2 ∧ (c.setEst i x).faults = c.faults ∧
    (c.setEst i x).board = c.board ∧ (c.setEst i x).reserved = c.reserved ∧ (c.setEst i x).lp5x = c.lp5x ∧
    (c.setEst i x).cams = c.cams ∧ (c.setEst i x).gov = c.gov ∧ (c.setEst i x).inertial = c.inertial ∧
    (c.setEst i x).groups = c.groups ∧ (c.setEst i x).spi = c.spi ∧ (c.setEst i x).encoders = c.encoders ∧
    (c.setEst i x).tablatures = c.tablatures ∧ (c.setEst i x).lanes = c.lanes ∧ (c.setEst i x).passages = c.passages ∧
    (c.setEst i x).arrayPtr = c.arrayPtr ∧ (c.setEst i x).breeze = c.breeze ∧
    (c.setEst i x).models = c.models ∧ (c.setEst i x).mesh = c.mesh ∧ (c.setEst i x).flash = c.flash ∧
    (c.setEst i x).tap = c.tap := by
  refine ⟨rfl, rfl, rfl, rfl, rfl, rfl, rfl, rfl, rfl, rfl, rfl, rfl, rfl, rfl, rfl, rfl, rfl, rfl, rfl, rfl, rfl, rfl, rfl, rfl, rfl, rfl, rfl, rfl, rfl, rfl, rfl, rfl, rfl, rfl, rfl, rfl, rfl, rfl, rfl, rfl, rfl, rfl, rfl, rfl, rfl, rfl, rfl, rfl, rfl, rfl, rfl, rfl⟩

@[simp] theorem Chip.est_setEst_same (c : Chip) (i : Nat) (x : Estimator) : (c.setEst i x).est i = x := by
  simp [Chip.setEst, Chip.est]

theorem Chip.est_setEst (c : Chip) (j i : Nat) (x : Estimator) : (c.setEst i x).est j = if j = i then x else c.est j := by
  simp [Chip.setEst, Chip.est, tabGet_tabSet]

/-- Everything but `inertial`. -/
@[simp] theorem Chip.setChan_rest (c : Chip) (k : Nat) (x : Inertial) :
    (c.setChan k x).now = c.now ∧ (c.setChan k x).frees = c.frees ∧ (c.setChan k x).straps = c.straps ∧
    (c.setChan k x).grade = c.grade ∧ (c.setChan k x).engine = c.engine ∧ (c.setChan k x).request = c.request ∧
    (c.setChan k x).dict = c.dict ∧ (c.setChan k x).epoch = c.epoch ∧ (c.setChan k x).cues = c.cues ∧
    (c.setChan k x).armQueue = c.armQueue ∧ (c.setChan k x).lastArm = c.lastArm ∧ (c.setChan k x).trig = c.trig ∧
    (c.setChan k x).epochHi = c.epochHi ∧ (c.setChan k x).ctl = c.ctl ∧ (c.setChan k x).voices = c.voices ∧
    (c.setChan k x).keeps = c.keeps ∧ (c.setChan k x).arbiter = c.arbiter ∧ (c.setChan k x).hostMem = c.hostMem ∧
    (c.setChan k x).msixSent = c.msixSent ∧ (c.setChan k x).readData = c.readData ∧ (c.setChan k x).reply = c.reply ∧
    (c.setChan k x).pcie = c.pcie ∧ (c.setChan k x).usb = c.usb ∧ (c.setChan k x).can = c.can ∧
    (c.setChan k x).unsent = c.unsent ∧ (c.setChan k x).tensors = c.tensors ∧ (c.setChan k x).resets = c.resets ∧
    (c.setChan k x).transients = c.transients ∧
    (c.setChan k x).ledger = c.ledger ∧ (c.setChan k x).moves = c.moves ∧ (c.setChan k x).tier0 = c.tier0 ∧
    (c.setChan k x).tier1 = c.tier1 ∧ (c.setChan k x).tier2 = c.tier2 ∧ (c.setChan k x).faults = c.faults ∧
    (c.setChan k x).board = c.board ∧ (c.setChan k x).reserved = c.reserved ∧ (c.setChan k x).lp5x = c.lp5x ∧
    (c.setChan k x).cams = c.cams ∧ (c.setChan k x).gov = c.gov ∧
    (c.setChan k x).groups = c.groups ∧ (c.setChan k x).spi = c.spi ∧ (c.setChan k x).encoders = c.encoders ∧
    (c.setChan k x).tablatures = c.tablatures ∧ (c.setChan k x).lanes = c.lanes ∧ (c.setChan k x).passages = c.passages ∧
    (c.setChan k x).arrayPtr = c.arrayPtr ∧ (c.setChan k x).breeze = c.breeze ∧ (c.setChan k x).ests = c.ests ∧
    (c.setChan k x).models = c.models ∧ (c.setChan k x).mesh = c.mesh ∧ (c.setChan k x).flash = c.flash ∧
    (c.setChan k x).tap = c.tap := by
  refine ⟨rfl, rfl, rfl, rfl, rfl, rfl, rfl, rfl, rfl, rfl, rfl, rfl, rfl, rfl, rfl, rfl, rfl, rfl, rfl, rfl, rfl, rfl, rfl, rfl, rfl, rfl, rfl, rfl, rfl, rfl, rfl, rfl, rfl, rfl, rfl, rfl, rfl, rfl, rfl, rfl, rfl, rfl, rfl, rfl, rfl, rfl, rfl, rfl, rfl, rfl, rfl, rfl⟩

@[simp] theorem Chip.chan_setChan_same (c : Chip) (k : Nat) (x : Inertial) : (c.setChan k x).chan k = x := by
  simp [Chip.setChan, Chip.chan]

theorem Chip.chan_setChan (c : Chip) (j k : Nat) (x : Inertial) : (c.setChan k x).chan j = if j = k then x else c.chan j := by
  simp [Chip.setChan, Chip.chan, tabGet_tabSet]

/-- Everything but `groups`. -/
@[simp] theorem Chip.setGrp_rest (c : Chip) (g : Nat) (x : Group) :
    (c.setGrp g x).now = c.now ∧ (c.setGrp g x).frees = c.frees ∧ (c.setGrp g x).straps = c.straps ∧
    (c.setGrp g x).grade = c.grade ∧ (c.setGrp g x).engine = c.engine ∧ (c.setGrp g x).request = c.request ∧
    (c.setGrp g x).dict = c.dict ∧ (c.setGrp g x).epoch = c.epoch ∧ (c.setGrp g x).cues = c.cues ∧
    (c.setGrp g x).armQueue = c.armQueue ∧ (c.setGrp g x).lastArm = c.lastArm ∧ (c.setGrp g x).trig = c.trig ∧
    (c.setGrp g x).epochHi = c.epochHi ∧ (c.setGrp g x).ctl = c.ctl ∧ (c.setGrp g x).voices = c.voices ∧
    (c.setGrp g x).keeps = c.keeps ∧ (c.setGrp g x).arbiter = c.arbiter ∧ (c.setGrp g x).hostMem = c.hostMem ∧
    (c.setGrp g x).msixSent = c.msixSent ∧ (c.setGrp g x).readData = c.readData ∧ (c.setGrp g x).reply = c.reply ∧
    (c.setGrp g x).pcie = c.pcie ∧ (c.setGrp g x).usb = c.usb ∧ (c.setGrp g x).can = c.can ∧
    (c.setGrp g x).unsent = c.unsent ∧ (c.setGrp g x).tensors = c.tensors ∧ (c.setGrp g x).resets = c.resets ∧
    (c.setGrp g x).transients = c.transients ∧
    (c.setGrp g x).ledger = c.ledger ∧ (c.setGrp g x).moves = c.moves ∧ (c.setGrp g x).tier0 = c.tier0 ∧
    (c.setGrp g x).tier1 = c.tier1 ∧ (c.setGrp g x).tier2 = c.tier2 ∧ (c.setGrp g x).faults = c.faults ∧
    (c.setGrp g x).board = c.board ∧ (c.setGrp g x).reserved = c.reserved ∧ (c.setGrp g x).lp5x = c.lp5x ∧
    (c.setGrp g x).cams = c.cams ∧ (c.setGrp g x).gov = c.gov ∧ (c.setGrp g x).inertial = c.inertial ∧
    (c.setGrp g x).spi = c.spi ∧ (c.setGrp g x).encoders = c.encoders ∧
    (c.setGrp g x).tablatures = c.tablatures ∧ (c.setGrp g x).lanes = c.lanes ∧ (c.setGrp g x).passages = c.passages ∧
    (c.setGrp g x).arrayPtr = c.arrayPtr ∧ (c.setGrp g x).breeze = c.breeze ∧ (c.setGrp g x).ests = c.ests ∧
    (c.setGrp g x).models = c.models ∧ (c.setGrp g x).mesh = c.mesh ∧ (c.setGrp g x).flash = c.flash ∧
    (c.setGrp g x).tap = c.tap := by
  refine ⟨rfl, rfl, rfl, rfl, rfl, rfl, rfl, rfl, rfl, rfl, rfl, rfl, rfl, rfl, rfl, rfl, rfl, rfl, rfl, rfl, rfl, rfl, rfl, rfl, rfl, rfl, rfl, rfl, rfl, rfl, rfl, rfl, rfl, rfl, rfl, rfl, rfl, rfl, rfl, rfl, rfl, rfl, rfl, rfl, rfl, rfl, rfl, rfl, rfl, rfl, rfl, rfl⟩

@[simp] theorem Chip.grp_setGrp_same (c : Chip) (g : Nat) (x : Group) : (c.setGrp g x).grp g = x := by
  simp [Chip.setGrp, Chip.grp]

theorem Chip.grp_setGrp (c : Chip) (j g : Nat) (x : Group) : (c.setGrp g x).grp j = if j = g then x else c.grp j := by
  simp [Chip.setGrp, Chip.grp, tabGet_tabSet]

/-- Everything but `spi`. -/
@[simp] theorem Chip.setMaster_rest (c : Chip) (m : Nat) (x : SpiMaster) :
    (c.setMaster m x).now = c.now ∧ (c.setMaster m x).frees = c.frees ∧ (c.setMaster m x).straps = c.straps ∧
    (c.setMaster m x).grade = c.grade ∧ (c.setMaster m x).engine = c.engine ∧ (c.setMaster m x).request = c.request ∧
    (c.setMaster m x).dict = c.dict ∧ (c.setMaster m x).epoch = c.epoch ∧ (c.setMaster m x).cues = c.cues ∧
    (c.setMaster m x).armQueue = c.armQueue ∧ (c.setMaster m x).lastArm = c.lastArm ∧ (c.setMaster m x).trig = c.trig ∧
    (c.setMaster m x).epochHi = c.epochHi ∧ (c.setMaster m x).ctl = c.ctl ∧ (c.setMaster m x).voices = c.voices ∧
    (c.setMaster m x).keeps = c.keeps ∧ (c.setMaster m x).arbiter = c.arbiter ∧ (c.setMaster m x).hostMem = c.hostMem ∧
    (c.setMaster m x).msixSent = c.msixSent ∧ (c.setMaster m x).readData = c.readData ∧ (c.setMaster m x).reply = c.reply ∧
    (c.setMaster m x).pcie = c.pcie ∧ (c.setMaster m x).usb = c.usb ∧ (c.setMaster m x).can = c.can ∧
    (c.setMaster m x).unsent = c.unsent ∧ (c.setMaster m x).tensors = c.tensors ∧ (c.setMaster m x).resets = c.resets ∧
    (c.setMaster m x).transients = c.transients ∧
    (c.setMaster m x).ledger = c.ledger ∧ (c.setMaster m x).moves = c.moves ∧ (c.setMaster m x).tier0 = c.tier0 ∧
    (c.setMaster m x).tier1 = c.tier1 ∧ (c.setMaster m x).tier2 = c.tier2 ∧ (c.setMaster m x).faults = c.faults ∧
    (c.setMaster m x).board = c.board ∧ (c.setMaster m x).reserved = c.reserved ∧ (c.setMaster m x).lp5x = c.lp5x ∧
    (c.setMaster m x).cams = c.cams ∧ (c.setMaster m x).gov = c.gov ∧ (c.setMaster m x).inertial = c.inertial ∧
    (c.setMaster m x).groups = c.groups ∧ (c.setMaster m x).encoders = c.encoders ∧
    (c.setMaster m x).tablatures = c.tablatures ∧ (c.setMaster m x).lanes = c.lanes ∧ (c.setMaster m x).passages = c.passages ∧
    (c.setMaster m x).arrayPtr = c.arrayPtr ∧ (c.setMaster m x).breeze = c.breeze ∧ (c.setMaster m x).ests = c.ests ∧
    (c.setMaster m x).models = c.models ∧ (c.setMaster m x).mesh = c.mesh ∧ (c.setMaster m x).flash = c.flash ∧
    (c.setMaster m x).tap = c.tap := by
  refine ⟨rfl, rfl, rfl, rfl, rfl, rfl, rfl, rfl, rfl, rfl, rfl, rfl, rfl, rfl, rfl, rfl, rfl, rfl, rfl, rfl, rfl, rfl, rfl, rfl, rfl, rfl, rfl, rfl, rfl, rfl, rfl, rfl, rfl, rfl, rfl, rfl, rfl, rfl, rfl, rfl, rfl, rfl, rfl, rfl, rfl, rfl, rfl, rfl, rfl, rfl, rfl, rfl⟩

@[simp] theorem Chip.master_setMaster_same (c : Chip) (m : Nat) (x : SpiMaster) : (c.setMaster m x).master m = x := by
  simp [Chip.setMaster, Chip.master]

theorem Chip.master_setMaster (c : Chip) (j m : Nat) (x : SpiMaster) : (c.setMaster m x).master j = if j = m then x else c.master j := by
  simp [Chip.setMaster, Chip.master, tabGet_tabSet]

/-- Everything but `encoders`. -/
@[simp] theorem Chip.setEnc_rest (c : Chip) (e : Nat) (x : Encoder) :
    (c.setEnc e x).now = c.now ∧ (c.setEnc e x).frees = c.frees ∧ (c.setEnc e x).straps = c.straps ∧
    (c.setEnc e x).grade = c.grade ∧ (c.setEnc e x).engine = c.engine ∧ (c.setEnc e x).request = c.request ∧
    (c.setEnc e x).dict = c.dict ∧ (c.setEnc e x).epoch = c.epoch ∧ (c.setEnc e x).cues = c.cues ∧
    (c.setEnc e x).armQueue = c.armQueue ∧ (c.setEnc e x).lastArm = c.lastArm ∧ (c.setEnc e x).trig = c.trig ∧
    (c.setEnc e x).epochHi = c.epochHi ∧ (c.setEnc e x).ctl = c.ctl ∧ (c.setEnc e x).voices = c.voices ∧
    (c.setEnc e x).keeps = c.keeps ∧ (c.setEnc e x).arbiter = c.arbiter ∧ (c.setEnc e x).hostMem = c.hostMem ∧
    (c.setEnc e x).msixSent = c.msixSent ∧ (c.setEnc e x).readData = c.readData ∧ (c.setEnc e x).reply = c.reply ∧
    (c.setEnc e x).pcie = c.pcie ∧ (c.setEnc e x).usb = c.usb ∧ (c.setEnc e x).can = c.can ∧
    (c.setEnc e x).unsent = c.unsent ∧ (c.setEnc e x).tensors = c.tensors ∧ (c.setEnc e x).resets = c.resets ∧
    (c.setEnc e x).transients = c.transients ∧
    (c.setEnc e x).ledger = c.ledger ∧ (c.setEnc e x).moves = c.moves ∧ (c.setEnc e x).tier0 = c.tier0 ∧
    (c.setEnc e x).tier1 = c.tier1 ∧ (c.setEnc e x).tier2 = c.tier2 ∧ (c.setEnc e x).faults = c.faults ∧
    (c.setEnc e x).board = c.board ∧ (c.setEnc e x).reserved = c.reserved ∧ (c.setEnc e x).lp5x = c.lp5x ∧
    (c.setEnc e x).cams = c.cams ∧ (c.setEnc e x).gov = c.gov ∧ (c.setEnc e x).inertial = c.inertial ∧
    (c.setEnc e x).groups = c.groups ∧ (c.setEnc e x).spi = c.spi ∧
    (c.setEnc e x).tablatures = c.tablatures ∧ (c.setEnc e x).lanes = c.lanes ∧ (c.setEnc e x).passages = c.passages ∧
    (c.setEnc e x).arrayPtr = c.arrayPtr ∧ (c.setEnc e x).breeze = c.breeze ∧ (c.setEnc e x).ests = c.ests ∧
    (c.setEnc e x).models = c.models ∧ (c.setEnc e x).mesh = c.mesh ∧ (c.setEnc e x).flash = c.flash ∧
    (c.setEnc e x).tap = c.tap := by
  refine ⟨rfl, rfl, rfl, rfl, rfl, rfl, rfl, rfl, rfl, rfl, rfl, rfl, rfl, rfl, rfl, rfl, rfl, rfl, rfl, rfl, rfl, rfl, rfl, rfl, rfl, rfl, rfl, rfl, rfl, rfl, rfl, rfl, rfl, rfl, rfl, rfl, rfl, rfl, rfl, rfl, rfl, rfl, rfl, rfl, rfl, rfl, rfl, rfl, rfl, rfl, rfl, rfl⟩

@[simp] theorem Chip.enc_setEnc_same (c : Chip) (e : Nat) (x : Encoder) : (c.setEnc e x).enc e = x := by
  simp [Chip.setEnc, Chip.enc]

theorem Chip.enc_setEnc (c : Chip) (j e : Nat) (x : Encoder) : (c.setEnc e x).enc j = if j = e then x else c.enc j := by
  simp [Chip.setEnc, Chip.enc, tabGet_tabSet]

/-- Everything but `lanes`. -/
@[simp] theorem Chip.setLane_rest (c : Chip) (l : Nat) (x : Lane) :
    (c.setLane l x).now = c.now ∧ (c.setLane l x).frees = c.frees ∧ (c.setLane l x).straps = c.straps ∧
    (c.setLane l x).grade = c.grade ∧ (c.setLane l x).engine = c.engine ∧ (c.setLane l x).request = c.request ∧
    (c.setLane l x).dict = c.dict ∧ (c.setLane l x).epoch = c.epoch ∧ (c.setLane l x).cues = c.cues ∧
    (c.setLane l x).armQueue = c.armQueue ∧ (c.setLane l x).lastArm = c.lastArm ∧ (c.setLane l x).trig = c.trig ∧
    (c.setLane l x).epochHi = c.epochHi ∧ (c.setLane l x).ctl = c.ctl ∧ (c.setLane l x).voices = c.voices ∧
    (c.setLane l x).keeps = c.keeps ∧ (c.setLane l x).arbiter = c.arbiter ∧ (c.setLane l x).hostMem = c.hostMem ∧
    (c.setLane l x).msixSent = c.msixSent ∧ (c.setLane l x).readData = c.readData ∧ (c.setLane l x).reply = c.reply ∧
    (c.setLane l x).pcie = c.pcie ∧ (c.setLane l x).usb = c.usb ∧ (c.setLane l x).can = c.can ∧
    (c.setLane l x).unsent = c.unsent ∧ (c.setLane l x).tensors = c.tensors ∧ (c.setLane l x).resets = c.resets ∧
    (c.setLane l x).transients = c.transients ∧
    (c.setLane l x).ledger = c.ledger ∧ (c.setLane l x).moves = c.moves ∧ (c.setLane l x).tier0 = c.tier0 ∧
    (c.setLane l x).tier1 = c.tier1 ∧ (c.setLane l x).tier2 = c.tier2 ∧ (c.setLane l x).faults = c.faults ∧
    (c.setLane l x).board = c.board ∧ (c.setLane l x).reserved = c.reserved ∧ (c.setLane l x).lp5x = c.lp5x ∧
    (c.setLane l x).cams = c.cams ∧ (c.setLane l x).gov = c.gov ∧ (c.setLane l x).inertial = c.inertial ∧
    (c.setLane l x).groups = c.groups ∧ (c.setLane l x).spi = c.spi ∧ (c.setLane l x).encoders = c.encoders ∧
    (c.setLane l x).tablatures = c.tablatures ∧ (c.setLane l x).passages = c.passages ∧
    (c.setLane l x).arrayPtr = c.arrayPtr ∧ (c.setLane l x).breeze = c.breeze ∧ (c.setLane l x).ests = c.ests ∧
    (c.setLane l x).models = c.models ∧ (c.setLane l x).mesh = c.mesh ∧ (c.setLane l x).flash = c.flash ∧
    (c.setLane l x).tap = c.tap := by
  refine ⟨rfl, rfl, rfl, rfl, rfl, rfl, rfl, rfl, rfl, rfl, rfl, rfl, rfl, rfl, rfl, rfl, rfl, rfl, rfl, rfl, rfl, rfl, rfl, rfl, rfl, rfl, rfl, rfl, rfl, rfl, rfl, rfl, rfl, rfl, rfl, rfl, rfl, rfl, rfl, rfl, rfl, rfl, rfl, rfl, rfl, rfl, rfl, rfl, rfl, rfl, rfl, rfl⟩

@[simp] theorem Chip.lane_setLane_same (c : Chip) (l : Nat) (x : Lane) : (c.setLane l x).lane l = x := by
  simp [Chip.setLane, Chip.lane]

theorem Chip.lane_setLane (c : Chip) (j l : Nat) (x : Lane) : (c.setLane l x).lane j = if j = l then x else c.lane j := by
  simp [Chip.setLane, Chip.lane, tabGet_tabSet]

/-- Everything but `tablatures`. -/
@[simp] theorem Chip.setTablature_rest (c : Chip) (t : Nat) (x : Tablature) :
    (c.setTablature t x).now = c.now ∧ (c.setTablature t x).frees = c.frees ∧ (c.setTablature t x).straps = c.straps ∧
    (c.setTablature t x).grade = c.grade ∧ (c.setTablature t x).engine = c.engine ∧ (c.setTablature t x).request = c.request ∧
    (c.setTablature t x).dict = c.dict ∧ (c.setTablature t x).epoch = c.epoch ∧ (c.setTablature t x).cues = c.cues ∧
    (c.setTablature t x).armQueue = c.armQueue ∧ (c.setTablature t x).lastArm = c.lastArm ∧ (c.setTablature t x).trig = c.trig ∧
    (c.setTablature t x).epochHi = c.epochHi ∧ (c.setTablature t x).ctl = c.ctl ∧ (c.setTablature t x).voices = c.voices ∧
    (c.setTablature t x).keeps = c.keeps ∧ (c.setTablature t x).arbiter = c.arbiter ∧ (c.setTablature t x).hostMem = c.hostMem ∧
    (c.setTablature t x).msixSent = c.msixSent ∧ (c.setTablature t x).readData = c.readData ∧ (c.setTablature t x).reply = c.reply ∧
    (c.setTablature t x).pcie = c.pcie ∧ (c.setTablature t x).usb = c.usb ∧ (c.setTablature t x).can = c.can ∧
    (c.setTablature t x).unsent = c.unsent ∧ (c.setTablature t x).tensors = c.tensors ∧ (c.setTablature t x).resets = c.resets ∧
    (c.setTablature t x).transients = c.transients ∧
    (c.setTablature t x).ledger = c.ledger ∧ (c.setTablature t x).moves = c.moves ∧ (c.setTablature t x).tier0 = c.tier0 ∧
    (c.setTablature t x).tier1 = c.tier1 ∧ (c.setTablature t x).tier2 = c.tier2 ∧ (c.setTablature t x).faults = c.faults ∧
    (c.setTablature t x).board = c.board ∧ (c.setTablature t x).reserved = c.reserved ∧ (c.setTablature t x).lp5x = c.lp5x ∧
    (c.setTablature t x).cams = c.cams ∧ (c.setTablature t x).gov = c.gov ∧ (c.setTablature t x).inertial = c.inertial ∧
    (c.setTablature t x).groups = c.groups ∧ (c.setTablature t x).spi = c.spi ∧ (c.setTablature t x).encoders = c.encoders ∧
    (c.setTablature t x).lanes = c.lanes ∧ (c.setTablature t x).passages = c.passages ∧
    (c.setTablature t x).arrayPtr = c.arrayPtr ∧ (c.setTablature t x).breeze = c.breeze ∧ (c.setTablature t x).ests = c.ests ∧
    (c.setTablature t x).models = c.models ∧ (c.setTablature t x).mesh = c.mesh ∧ (c.setTablature t x).flash = c.flash ∧
    (c.setTablature t x).tap = c.tap := by
  refine ⟨rfl, rfl, rfl, rfl, rfl, rfl, rfl, rfl, rfl, rfl, rfl, rfl, rfl, rfl, rfl, rfl, rfl, rfl, rfl, rfl, rfl, rfl, rfl, rfl, rfl, rfl, rfl, rfl, rfl, rfl, rfl, rfl, rfl, rfl, rfl, rfl, rfl, rfl, rfl, rfl, rfl, rfl, rfl, rfl, rfl, rfl, rfl, rfl, rfl, rfl, rfl, rfl⟩

@[simp] theorem Chip.tablature_setTablature_same (c : Chip) (t : Nat) (x : Tablature) : (c.setTablature t x).tablature? t = some x := by
  simp [Chip.setTablature, Chip.tablature?]

theorem Chip.tablature_setTablature (c : Chip) (j t : Nat) (x : Tablature) : (c.setTablature t x).tablature? j = if j = t then some x else c.tablature? j := by
  simp [Chip.setTablature, Chip.tablature?, tabGet?_tabSet]

/-- Everything but `tensors`. -/
@[simp] theorem Chip.setTensor_rest (c : Chip) (t : Nat) (x : Tensor) :
    (c.setTensor t x).now = c.now ∧ (c.setTensor t x).frees = c.frees ∧ (c.setTensor t x).straps = c.straps ∧
    (c.setTensor t x).grade = c.grade ∧ (c.setTensor t x).engine = c.engine ∧ (c.setTensor t x).request = c.request ∧
    (c.setTensor t x).dict = c.dict ∧ (c.setTensor t x).epoch = c.epoch ∧ (c.setTensor t x).cues = c.cues ∧
    (c.setTensor t x).armQueue = c.armQueue ∧ (c.setTensor t x).lastArm = c.lastArm ∧ (c.setTensor t x).trig = c.trig ∧
    (c.setTensor t x).epochHi = c.epochHi ∧ (c.setTensor t x).ctl = c.ctl ∧ (c.setTensor t x).voices = c.voices ∧
    (c.setTensor t x).keeps = c.keeps ∧ (c.setTensor t x).arbiter = c.arbiter ∧ (c.setTensor t x).hostMem = c.hostMem ∧
    (c.setTensor t x).msixSent = c.msixSent ∧ (c.setTensor t x).readData = c.readData ∧ (c.setTensor t x).reply = c.reply ∧
    (c.setTensor t x).pcie = c.pcie ∧ (c.setTensor t x).usb = c.usb ∧ (c.setTensor t x).can = c.can ∧
    (c.setTensor t x).unsent = c.unsent ∧ (c.setTensor t x).resets = c.resets ∧
    (c.setTensor t x).transients = c.transients ∧
    (c.setTensor t x).ledger = c.ledger ∧ (c.setTensor t x).moves = c.moves ∧ (c.setTensor t x).tier0 = c.tier0 ∧
    (c.setTensor t x).tier1 = c.tier1 ∧ (c.setTensor t x).tier2 = c.tier2 ∧ (c.setTensor t x).faults = c.faults ∧
    (c.setTensor t x).board = c.board ∧ (c.setTensor t x).reserved = c.reserved ∧ (c.setTensor t x).lp5x = c.lp5x ∧
    (c.setTensor t x).cams = c.cams ∧ (c.setTensor t x).gov = c.gov ∧ (c.setTensor t x).inertial = c.inertial ∧
    (c.setTensor t x).groups = c.groups ∧ (c.setTensor t x).spi = c.spi ∧ (c.setTensor t x).encoders = c.encoders ∧
    (c.setTensor t x).tablatures = c.tablatures ∧ (c.setTensor t x).lanes = c.lanes ∧ (c.setTensor t x).passages = c.passages ∧
    (c.setTensor t x).arrayPtr = c.arrayPtr ∧ (c.setTensor t x).breeze = c.breeze ∧ (c.setTensor t x).ests = c.ests ∧
    (c.setTensor t x).models = c.models ∧ (c.setTensor t x).mesh = c.mesh ∧ (c.setTensor t x).flash = c.flash ∧
    (c.setTensor t x).tap = c.tap := by
  refine ⟨rfl, rfl, rfl, rfl, rfl, rfl, rfl, rfl, rfl, rfl, rfl, rfl, rfl, rfl, rfl, rfl, rfl, rfl, rfl, rfl, rfl, rfl, rfl, rfl, rfl, rfl, rfl, rfl, rfl, rfl, rfl, rfl, rfl, rfl, rfl, rfl, rfl, rfl, rfl, rfl, rfl, rfl, rfl, rfl, rfl, rfl, rfl, rfl, rfl, rfl, rfl, rfl⟩

@[simp] theorem Chip.tensor_setTensor_same (c : Chip) (t : Nat) (x : Tensor) : (c.setTensor t x).tensor? t = some x := by
  simp [Chip.setTensor, Chip.tensor?]

theorem Chip.tensor_setTensor (c : Chip) (j t : Nat) (x : Tensor) : (c.setTensor t x).tensor? j = if j = t then some x else c.tensor? j := by
  simp [Chip.setTensor, Chip.tensor?, tabGet?_tabSet]

/-- Everything but `mesh`. -/
@[simp] theorem Chip.setStr_rest (c : Chip) (p : Nat) (x : StringPort) :
    (c.setStr p x).now = c.now ∧ (c.setStr p x).frees = c.frees ∧ (c.setStr p x).straps = c.straps ∧
    (c.setStr p x).grade = c.grade ∧ (c.setStr p x).engine = c.engine ∧ (c.setStr p x).request = c.request ∧
    (c.setStr p x).dict = c.dict ∧ (c.setStr p x).epoch = c.epoch ∧ (c.setStr p x).cues = c.cues ∧
    (c.setStr p x).armQueue = c.armQueue ∧ (c.setStr p x).lastArm = c.lastArm ∧ (c.setStr p x).trig = c.trig ∧
    (c.setStr p x).epochHi = c.epochHi ∧ (c.setStr p x).ctl = c.ctl ∧ (c.setStr p x).voices = c.voices ∧
    (c.setStr p x).keeps = c.keeps ∧ (c.setStr p x).arbiter = c.arbiter ∧ (c.setStr p x).hostMem = c.hostMem ∧
    (c.setStr p x).msixSent = c.msixSent ∧ (c.setStr p x).readData = c.readData ∧ (c.setStr p x).reply = c.reply ∧
    (c.setStr p x).pcie = c.pcie ∧ (c.setStr p x).usb = c.usb ∧ (c.setStr p x).can = c.can ∧
    (c.setStr p x).unsent = c.unsent ∧ (c.setStr p x).tensors = c.tensors ∧ (c.setStr p x).resets = c.resets ∧
    (c.setStr p x).transients = c.transients ∧ (c.setStr p x).ledger = c.ledger ∧ (c.setStr p x).moves = c.moves ∧
    (c.setStr p x).tier0 = c.tier0 ∧ (c.setStr p x).tier1 = c.tier1 ∧ (c.setStr p x).tier2 = c.tier2 ∧
    (c.setStr p x).faults = c.faults ∧ (c.setStr p x).board = c.board ∧ (c.setStr p x).reserved = c.reserved ∧
    (c.setStr p x).lp5x = c.lp5x ∧ (c.setStr p x).cams = c.cams ∧ (c.setStr p x).gov = c.gov ∧
    (c.setStr p x).inertial = c.inertial ∧ (c.setStr p x).groups = c.groups ∧ (c.setStr p x).spi = c.spi ∧
    (c.setStr p x).encoders = c.encoders ∧ (c.setStr p x).tablatures = c.tablatures ∧ (c.setStr p x).lanes = c.lanes ∧
    (c.setStr p x).passages = c.passages ∧ (c.setStr p x).arrayPtr = c.arrayPtr ∧ (c.setStr p x).breeze = c.breeze ∧
    (c.setStr p x).ests = c.ests ∧ (c.setStr p x).models = c.models ∧ (c.setStr p x).flash = c.flash ∧
    (c.setStr p x).tap = c.tap := by
  refine ⟨rfl, rfl, rfl, rfl, rfl, rfl, rfl, rfl, rfl, rfl, rfl, rfl, rfl, rfl, rfl, rfl, rfl, rfl, rfl, rfl, rfl, rfl, rfl, rfl, rfl, rfl, rfl, rfl, rfl, rfl, rfl, rfl, rfl, rfl, rfl, rfl, rfl, rfl, rfl, rfl, rfl, rfl, rfl, rfl, rfl, rfl, rfl, rfl, rfl, rfl, rfl, rfl⟩

@[simp] theorem Chip.str_setStr_same (c : Chip) (p : Nat) (x : StringPort) : (c.setStr p x).str p = x := by
  simp [Chip.setStr, Chip.str]

theorem Chip.str_setStr (c : Chip) (j p : Nat) (x : StringPort) : (c.setStr p x).str j = if j = p then x else c.str j := by
  simp [Chip.setStr, Chip.str, tabGet_tabSet]

/-- Everything but `mesh`. -/
@[simp] theorem Chip.setTunnel_rest (c : Chip) (v : Nat) (x : Tunnel) :
    (c.setTunnel v x).now = c.now ∧ (c.setTunnel v x).frees = c.frees ∧ (c.setTunnel v x).straps = c.straps ∧
    (c.setTunnel v x).grade = c.grade ∧ (c.setTunnel v x).engine = c.engine ∧ (c.setTunnel v x).request = c.request ∧
    (c.setTunnel v x).dict = c.dict ∧ (c.setTunnel v x).epoch = c.epoch ∧ (c.setTunnel v x).cues = c.cues ∧
    (c.setTunnel v x).armQueue = c.armQueue ∧ (c.setTunnel v x).lastArm = c.lastArm ∧ (c.setTunnel v x).trig = c.trig ∧
    (c.setTunnel v x).epochHi = c.epochHi ∧ (c.setTunnel v x).ctl = c.ctl ∧ (c.setTunnel v x).voices = c.voices ∧
    (c.setTunnel v x).keeps = c.keeps ∧ (c.setTunnel v x).arbiter = c.arbiter ∧ (c.setTunnel v x).hostMem = c.hostMem ∧
    (c.setTunnel v x).msixSent = c.msixSent ∧ (c.setTunnel v x).readData = c.readData ∧
    (c.setTunnel v x).reply = c.reply ∧ (c.setTunnel v x).pcie = c.pcie ∧ (c.setTunnel v x).usb = c.usb ∧
    (c.setTunnel v x).can = c.can ∧ (c.setTunnel v x).unsent = c.unsent ∧ (c.setTunnel v x).tensors = c.tensors ∧
    (c.setTunnel v x).resets = c.resets ∧ (c.setTunnel v x).transients = c.transients ∧
    (c.setTunnel v x).ledger = c.ledger ∧ (c.setTunnel v x).moves = c.moves ∧ (c.setTunnel v x).tier0 = c.tier0 ∧
    (c.setTunnel v x).tier1 = c.tier1 ∧ (c.setTunnel v x).tier2 = c.tier2 ∧ (c.setTunnel v x).faults = c.faults ∧
    (c.setTunnel v x).board = c.board ∧ (c.setTunnel v x).reserved = c.reserved ∧ (c.setTunnel v x).lp5x = c.lp5x ∧
    (c.setTunnel v x).cams = c.cams ∧ (c.setTunnel v x).gov = c.gov ∧ (c.setTunnel v x).inertial = c.inertial ∧
    (c.setTunnel v x).groups = c.groups ∧ (c.setTunnel v x).spi = c.spi ∧ (c.setTunnel v x).encoders = c.encoders ∧
    (c.setTunnel v x).tablatures = c.tablatures ∧ (c.setTunnel v x).lanes = c.lanes ∧
    (c.setTunnel v x).passages = c.passages ∧ (c.setTunnel v x).arrayPtr = c.arrayPtr ∧
    (c.setTunnel v x).breeze = c.breeze ∧ (c.setTunnel v x).ests = c.ests ∧ (c.setTunnel v x).models = c.models ∧
    (c.setTunnel v x).flash = c.flash ∧ (c.setTunnel v x).tap = c.tap := by
  refine ⟨rfl, rfl, rfl, rfl, rfl, rfl, rfl, rfl, rfl, rfl, rfl, rfl, rfl, rfl, rfl, rfl, rfl, rfl, rfl, rfl, rfl, rfl, rfl, rfl, rfl, rfl, rfl, rfl, rfl, rfl, rfl, rfl, rfl, rfl, rfl, rfl, rfl, rfl, rfl, rfl, rfl, rfl, rfl, rfl, rfl, rfl, rfl, rfl, rfl, rfl, rfl, rfl⟩

@[simp] theorem Chip.tunnel_setTunnel_same (c : Chip) (v : Nat) (x : Tunnel) : (c.setTunnel v x).tunnel v = x := by
  simp [Chip.setTunnel, Chip.tunnel]

/-- Everything but `pcie`. -/
@[simp] theorem Chip.setPcieFn_rest (c : Chip) (fn : Nat) (x : PcieFn) :
    (c.setPcieFn fn x).now = c.now ∧ (c.setPcieFn fn x).frees = c.frees ∧ (c.setPcieFn fn x).straps = c.straps ∧
    (c.setPcieFn fn x).grade = c.grade ∧ (c.setPcieFn fn x).engine = c.engine ∧
    (c.setPcieFn fn x).request = c.request ∧ (c.setPcieFn fn x).dict = c.dict ∧ (c.setPcieFn fn x).epoch = c.epoch ∧
    (c.setPcieFn fn x).cues = c.cues ∧ (c.setPcieFn fn x).armQueue = c.armQueue ∧
    (c.setPcieFn fn x).lastArm = c.lastArm ∧ (c.setPcieFn fn x).trig = c.trig ∧
    (c.setPcieFn fn x).epochHi = c.epochHi ∧ (c.setPcieFn fn x).ctl = c.ctl ∧ (c.setPcieFn fn x).voices = c.voices ∧
    (c.setPcieFn fn x).keeps = c.keeps ∧ (c.setPcieFn fn x).arbiter = c.arbiter ∧
    (c.setPcieFn fn x).hostMem = c.hostMem ∧ (c.setPcieFn fn x).msixSent = c.msixSent ∧
    (c.setPcieFn fn x).readData = c.readData ∧ (c.setPcieFn fn x).reply = c.reply ∧ (c.setPcieFn fn x).usb = c.usb ∧
    (c.setPcieFn fn x).can = c.can ∧ (c.setPcieFn fn x).unsent = c.unsent ∧ (c.setPcieFn fn x).tensors = c.tensors ∧
    (c.setPcieFn fn x).resets = c.resets ∧ (c.setPcieFn fn x).transients = c.transients ∧
    (c.setPcieFn fn x).ledger = c.ledger ∧ (c.setPcieFn fn x).moves = c.moves ∧ (c.setPcieFn fn x).tier0 = c.tier0 ∧
    (c.setPcieFn fn x).tier1 = c.tier1 ∧ (c.setPcieFn fn x).tier2 = c.tier2 ∧ (c.setPcieFn fn x).faults = c.faults ∧
    (c.setPcieFn fn x).board = c.board ∧ (c.setPcieFn fn x).reserved = c.reserved ∧ (c.setPcieFn fn x).lp5x = c.lp5x ∧
    (c.setPcieFn fn x).cams = c.cams ∧ (c.setPcieFn fn x).gov = c.gov ∧ (c.setPcieFn fn x).inertial = c.inertial ∧
    (c.setPcieFn fn x).groups = c.groups ∧ (c.setPcieFn fn x).spi = c.spi ∧ (c.setPcieFn fn x).encoders = c.encoders ∧
    (c.setPcieFn fn x).tablatures = c.tablatures ∧ (c.setPcieFn fn x).lanes = c.lanes ∧
    (c.setPcieFn fn x).passages = c.passages ∧ (c.setPcieFn fn x).arrayPtr = c.arrayPtr ∧
    (c.setPcieFn fn x).breeze = c.breeze ∧ (c.setPcieFn fn x).ests = c.ests ∧ (c.setPcieFn fn x).models = c.models ∧
    (c.setPcieFn fn x).mesh = c.mesh ∧ (c.setPcieFn fn x).flash = c.flash ∧ (c.setPcieFn fn x).tap = c.tap := by
  refine ⟨rfl, rfl, rfl, rfl, rfl, rfl, rfl, rfl, rfl, rfl, rfl, rfl, rfl, rfl, rfl, rfl, rfl, rfl, rfl, rfl, rfl, rfl, rfl, rfl, rfl, rfl, rfl, rfl, rfl, rfl, rfl, rfl, rfl, rfl, rfl, rfl, rfl, rfl, rfl, rfl, rfl, rfl, rfl, rfl, rfl, rfl, rfl, rfl, rfl, rfl, rfl, rfl⟩

/-! A step, and the queue -/

theorem step_front (i : Instr) (rest : List Instr) (c : Chip) (r : Round) :
    step { pending := i :: rest, chip := c, round := r } = exec i { pending := rest, chip := c, round := r } := rfl

theorem step_idle (c : Chip) (r : Round) :
    step { pending := [], chip := c, round := r } = .next { pending := [], chip := c, round := r } := rfl

end Sys2Proof.Machine
end

