-- ==== Sys2Proof/Laws/Exec.lean ====
section
/-! SUPPORT. What the operations that every meaning ends in can do, said once: `run`, `work`, `canRun`, `strRun`, `runPin`,
`runRound`, `runWrite` and `runReset`, and that every command but the resets and the test access port is one of them. -/

namespace Sys2Proof.Machine

/-- What a command that is no reset does: off, it at most moves pins of the board; else the chip takes a value, of which
what stays until a cold reset is the old chip's. In either case the queue stays. -/
def Ordinary (s : State) (o : Host.Outcome State Fault Refusal) : Prop :=
  (s.chip.off = true → ∃ pin : Board → Board, (∀ b, (pin b).porstLow = b.porstLow ∧ (pin b).refclk = b.refclk) ∧
    o = .next { s with chip := { s.chip with board := pin s.chip.board } }) ∧
  (s.chip.off = false → ∃ (c : Chip) (r : Round), o = .next { s with chip := c.untilColdReset s.chip, round := r })

/-- Settling ends in what stays until a cold reset. -/
theorem settled_eq (c old : Chip) : ∃ d : Chip, c.settled old = d.untilColdReset old := ⟨_, by unfold Chip.settled; rfl⟩

theorem ordinary_run (f : Chip → Chip) (s : State) : Ordinary s (run f s) := by
  unfold run
  refine ⟨fun h => ⟨id, fun _ => ⟨rfl, rfl⟩, by simp [h]⟩, fun h => ?_⟩
  obtain ⟨d, hd⟩ := settled_eq (f s.chip) s.chip
  exact ⟨d, {}, by simp [h, hd]⟩

theorem ordinary_work (f : Chip → Chip) (s : State) : Ordinary s (work f s) := ordinary_run _ s

theorem ordinary_canRun (p : Nat) (f : Chip → Chip) (s : State) : Ordinary s (canRun p f s) := ordinary_run _ s

theorem ordinary_strRun (p : Nat) (f : Chip → Chip) (s : State) : Ordinary s (strRun p f s) := ordinary_run _ s

theorem ordinary_runPin (pin : Board → Board) (hp : ∀ b, (pin b).porstLow = b.porstLow ∧ (pin b).refclk = b.refclk)
    (f : Chip → Chip) (s : State) : Ordinary s (runPin pin f s) := by
  refine ⟨fun h => ⟨pin, hp, by simp [runPin, h]⟩, fun h => ?_⟩
  have e : runPin pin f s = run f s := by simp [runPin, h]
  rw [e]; exact (ordinary_run f s).2 h

theorem ordinary_runRound (o : RoundOp) (s : State) : Ordinary s (runRound o s) := by
  unfold runRound
  refine ⟨fun h => ⟨id, fun _ => ⟨rfl, rfl⟩, by simp [h]⟩, fun h => ?_⟩
  obtain ⟨d, hd⟩ := settled_eq (o.effect s.chip) s.chip
  by_cases ho : s.round.inOrder o = true
  · exact ⟨d, _, by simp only [h, Bool.false_eq_true, if_false, ho, if_true, hd]; rfl⟩
  · exact ⟨_, _, by simp only [h, Bool.false_eq_true, if_false, ho]; rfl⟩

theorem ordinary_runWrite (ok : Bool) (v : Nat) (via : Via) (idx sub : Nat) (data : List Byte) (s : State) :
    Ordinary s (runWrite ok v via idx sub data s) := ordinary_runRound _ s

/-- A running engine: `run` answers the settled effect, and the update's round ends. -/
theorem run_on (f : Chip → Chip) (s : State) (h : s.chip.off = false) :
    run f s = .next { s with chip := (f s.chip).settled s.chip, round := {} } := by simp [run, h]

/-- An engine held in RESET: `run` leaves everything. -/
theorem run_off (f : Chip → Chip) (s : State) (h : s.chip.off = true) : run f s = .next s := by simp [run, h]

/-- A dictionary operation behind every other of its update takes effect as it arrives. -/
theorem runRound_on (o : RoundOp) (s : State) (h : s.chip.off = false) (ho : s.round.inOrder o = true) :
    runRound o s = .next { s with chip := (o.effect s.chip).settled s.chip, round := s.round.push s.chip o } := by
  simp [runRound, h, ho]

/-- One that belongs before another of its update takes the update's operations back, and all take effect in order. -/
theorem runRound_late (o : RoundOp) (s : State) (h : s.chip.off = false) (ho : s.round.inOrder o = false) :
    runRound o s = .next { s with chip := ((s.round.push s.chip o).base.replay (s.round.push s.chip o).ops).untilColdReset s.chip
                                  round := s.round.push s.chip o } := by
  simp [runRound, h, ho]

/-- No operation has a place behind what reads (R158). -/
theorem place_le (o : RoundOp) : o.place ≤ readPlace := by
  cases o <;> simp only [RoundOp.place, commitPlace, readPlace] <;> (try split) <;> omega

/-- What reads is always in order. -/
theorem inOrder_read (r : Round) (o : RoundOp) (h : o.place = readPlace) : r.inOrder o = true := by
  simp [Round.inOrder, h, place_le]

/-- A reset answers its effect, which nothing follows. -/
theorem runReset_next (f : Chip → Chip) (s : State) : runReset f s = .next { s with chip := f s.chip, round := {} } := rfl

theorem withEnc_keeps (e : Nat) (a b : Bool) (p : Board) :
    (p.withEnc e a b).porstLow = p.porstLow ∧ (p.withEnc e a b).refclk = p.refclk := by
  unfold Board.withEnc; split <;> exact ⟨rfl, rfl⟩

/-- Every command but the resets, which nothing follows, and the test access port. -/
def ordinaryCommand : Instr → Bool
  | .powerOnReset _ _ | .refclk25Loss | .refclk25Return _ _ | .warmrstNFall | .tapInstruction _ => false
  | _ => true

/-- An ordinary command does what `Ordinary` says. -/
theorem exec_ordinary (i : Instr) (h : ordinaryCommand i = true) (s : State) : Ordinary s (exec i s) := by
  cases i
  case powerOnReset => cases h
  case warmrstNFall => cases h
  case warmResetReqWrite => simp only [exec, execWarmResetReqWrite]; exact ordinary_run _ s
  case refclk25Loss => cases h
  case refclk25Return => cases h
  case pfailNAssert => simp only [exec, execPfailNAssert]; apply ordinary_runPin; exact fun _ => ⟨rfl, rfl⟩
  case selftest => simp only [exec, execSelftest]; exact ordinary_run _ s
  case selftestComplete => simp only [exec, execSelftestComplete]; exact ordinary_run _ s
  case pciePerstNAssert => simp only [exec, execPciePerstNAssert]; exact ordinary_run _ s
  case registerWrite =>
    simp only [exec, execRegisterWrite]; split
    · exact ordinary_runRound _ s
    · exact ordinary_run _ s
  case accessErrClear => simp only [exec, execAccessErrClear]; exact ordinary_run _ s
  case unmappedRead => simp only [exec, execUnmappedRead]; exact ordinary_run _ s
  case epochLoRead => simp only [exec, execEpochLoRead]; exact ordinary_run _ s
  case bar2Write => simp only [exec, execBar2Write]; exact ordinary_run _ s
  case bar2Read => simp only [exec, execBar2Read]; exact ordinary_run _ s
  case lineEdge => simp only [exec, execLineEdge]; exact ordinary_run _ s
  case fractionUpdate => simp only [exec, execFractionUpdate]; exact ordinary_run _ s
  case frameStart => simp only [exec, execFrameStart]; exact ordinary_run _ s
  case epochFrameEnd => simp only [exec, execEpochFrameEnd]; exact ordinary_run _ s
  case blankingLine => simp only [exec, execBlankingLine]; exact ordinary_run _ s
  case freewheelEntry => simp only [exec, execFreewheelEntry]; exact ordinary_run _ s
  case freewheelLine => simp only [exec, execFreewheelLine]; exact ordinary_run _ s
  case holdInterval => simp only [exec, execHoldInterval]; exact ordinary_run _ s
  case reverseCount => simp only [exec, execReverseCount]; exact ordinary_run _ s
  case syntheticEdge => simp only [exec, execSyntheticEdge]; exact ordinary_run _ s
  case sourceWrite => simp only [exec, execSourceWrite]; exact ordinary_runWrite _ _ _ _ _ _ s
  case virtualRecordStep => simp only [exec, execVirtualRecordStep]; exact ordinary_run _ s
  case cueArmWrite => simp only [exec, execCueArmWrite]; exact ordinary_runWrite _ _ _ _ _ _ s
  case cueArmCommit => simp only [exec, execCueArmCommit]; exact ordinary_run _ s
  case cueCancelWrite => simp only [exec, execCueCancelWrite]; exact ordinary_runWrite _ _ _ _ _ _ s
  case cueFire => simp only [exec, execCueFire]; exact ordinary_run _ s
  case trigPulseEnd => simp only [exec, execTrigPulseEnd]; exact ordinary_run _ s
  case dictRead => simp only [exec, execDictRead]; exact ordinary_runRound _ s
  case dictWrite => simp only [exec, execDictWrite]; exact ordinary_runWrite _ _ _ _ _ _ s
  case dictDescribe => simp only [exec, execDictDescribe]; exact ordinary_runRound _ s
  case deferredWriteCommit => simp only [exec, execDeferredWriteCommit]; exact ordinary_runRound _ s
  case stateRequestReady => simp only [exec, execStateRequestReady]; exact ordinary_runWrite _ _ _ _ _ _ s
  case stateRequestConfig => simp only [exec, execStateRequestConfig]; exact ordinary_runWrite _ _ _ _ _ _ s
  case stateRequestRun => simp only [exec, execStateRequestRun]; exact ordinary_runWrite _ _ _ _ _ _ s
  case stateRequestHold => simp only [exec, execStateRequestHold]; exact ordinary_runWrite _ _ _ _ _ _ s
  case stateRequestHoldExit => simp only [exec, execStateRequestHoldExit]; exact ordinary_runWrite _ _ _ _ _ _ s
  case behaviourLevelRequest => simp only [exec, execBehaviourLevelRequest]; exact ordinary_runWrite _ _ _ _ _ _ s
  case store => simp only [exec, execStore]; exact ordinary_runWrite _ _ _ _ _ _ s
  case storeComplete => simp only [exec, execStoreComplete]; exact ordinary_run _ s
  case storeAbandoned => simp only [exec, execStoreAbandoned]; exact ordinary_run _ s
  case restore => simp only [exec, execRestore]; exact ordinary_runWrite _ _ _ _ _ _ s
  case broadcastEnable => simp only [exec, execBroadcastEnable]; exact ordinary_runWrite _ _ _ _ _ _ s
  case broadcastMapWrite => simp only [exec, execBroadcastMapWrite]; exact ordinary_runWrite _ _ _ _ _ _ s
  case canRead => simp only [exec, execCanRead]; exact ordinary_runRound _ s
  case canWrite => simp only [exec, execCanWrite]; exact ordinary_runRound _ s
  case canWriteInit => simp only [exec, execCanWriteInit]; exact ordinary_runRound _ s
  case canDescribe => simp only [exec, execCanDescribe]; exact ordinary_runRound _ s
  case canSegment => simp only [exec, execCanSegment]; exact ordinary_runRound _ s
  case canSegmentReq => simp only [exec, execCanSegmentReq]; exact ordinary_runRound _ s
  case canClientAbort => simp only [exec, execCanClientAbort]; exact ordinary_runRound _ s
  case transferTimeout => simp only [exec, execTransferTimeout]; exact ordinary_canRun _ _ s
  case mbRequest => simp only [exec, execMbRequest]; exact ordinary_canRun _ _ s
  case mbCancel => simp only [exec, execMbCancel]; exact ordinary_canRun _ _ s
  case canAttemptEnd => simp only [exec, execCanAttemptEnd]; exact ordinary_canRun _ _ s
  case canFrameReceived =>
    simp only [exec, execCanFrameReceived]; split
    · exact ordinary_runRound _ s
    · exact ordinary_canRun _ _ s
  case rxPop => simp only [exec, execRxPop]; exact ordinary_canRun _ _ s
  case heartbeat => simp only [exec, execHeartbeat]; exact ordinary_canRun _ _ s
  case busOff => simp only [exec, execBusOff]; exact ordinary_canRun _ _ s
  case recover => simp only [exec, execRecover]; exact ordinary_runWrite _ _ _ _ _ _ s
  case busOffRecoveryEnd => simp only [exec, execBusOffRecoveryEnd]; exact ordinary_canRun _ _ s
  case cmdDoorbell => simp only [exec, execCmdDoorbell]; exact ordinary_run _ s
  case cplDoorbell => simp only [exec, execCplDoorbell]; exact ordinary_run _ s
  case ringEnable => simp only [exec, execRingEnable]; exact ordinary_run _ s
  case ringDisable => simp only [exec, execRingDisable]; exact ordinary_run _ s
  case voiceDrainEnd => simp only [exec, execVoiceDrainEnd]; exact ordinary_run _ s
  case dictGoRead => simp only [exec, execDictGoRead]; exact ordinary_runRound _ s
  case dictGoWrite => simp only [exec, execDictGoWrite]; exact ordinary_runRound _ s
  case dictGoDescribe => simp only [exec, execDictGoDescribe]; exact ordinary_runRound _ s
  case intPendingClear => simp only [exec, execIntPendingClear]; exact ordinary_run _ s
  case commandAdmission => simp only [exec, execCommandAdmission]; exact ordinary_run _ s
  case runPassage => simp only [exec, execRunPassage]; exact ordinary_work _ s
  case runTablature => simp only [exec, execRunTablature]; exact ordinary_work _ s
  case solveDelta => simp only [exec, execSolveDelta]; exact ordinary_work _ s
  case moveTensor => simp only [exec, execMoveTensor]; exact ordinary_run _ s
  case pinTensor => simp only [exec, execPinTensor]; exact ordinary_run _ s
  case cueArm => simp only [exec, execCueArm]; exact ordinary_runRound _ s
  case cueCancel => simp only [exec, execCueCancel]; exact ordinary_run _ s
  case dictOpRead => simp only [exec, execDictOpRead]; exact ordinary_runRound _ s
  case dictOpWrite => simp only [exec, execDictOpWrite]; exact ordinary_runRound _ s
  case dictOpDescribe => simp only [exec, execDictOpDescribe]; exact ordinary_runRound _ s
  case fence => simp only [exec, execFence]; exact ordinary_run _ s
  case fenceComplete => simp only [exec, execFenceComplete]; exact ordinary_run _ s
  case lull => simp only [exec, execLull]; exact ordinary_run _ s
  case completionWrite => simp only [exec, execCompletionWrite]; exact ordinary_run _ s
  case waitingCompletionWrite => simp only [exec, execWaitingCompletionWrite]; exact ordinary_run _ s
  case functionLevelReset => simp only [exec, execFunctionLevelReset]; exact ordinary_run _ s
  case vfEnableClear => simp only [exec, execVfEnableClear]; exact ordinary_run _ s
  case voiceResetEntry => simp only [exec, execVoiceResetEntry]; exact ordinary_runWrite _ _ _ _ _ _ s
  case d3hotEntry => simp only [exec, execD3hotEntry]; exact ordinary_run _ s
  case hostMemoryFailure => simp only [exec, execHostMemoryFailure]; exact ordinary_run _ s
  case tunnelWrite => simp only [exec, execTunnelWrite]; exact ordinary_runWrite _ _ _ _ _ _ s
  case quotaWrite => simp only [exec, execQuotaWrite]; exact ordinary_runWrite _ _ _ _ _ _ s
  case usbDictRead => simp only [exec, execUsbDictRead]; exact ordinary_runRound _ s
  case usbDictWriteData => simp only [exec, execUsbDictWriteData]; exact ordinary_run _ s
  case usbDictWriteStatus => simp only [exec, execUsbDictWriteStatus]; exact ordinary_runRound _ s
  case usbDictDescribe => simp only [exec, execUsbDictDescribe]; exact ordinary_runRound _ s
  case getAbort => simp only [exec, execGetAbort]; exact ordinary_run _ s
  case usbBusReset => simp only [exec, execUsbBusReset]; exact ordinary_run _ s
  case setConfiguration => simp only [exec, execSetConfiguration]; exact ordinary_run _ s
  case usbDetach => simp only [exec, execUsbDetach]; apply ordinary_runPin; exact fun _ => ⟨rfl, rfl⟩
  case usbCommandRecord => simp only [exec, execUsbCommandRecord]; exact ordinary_run _ s
  case tensorWrite => simp only [exec, execTensorWrite]; exact ordinary_run _ s
  case tensorRead => simp only [exec, execTensorRead]; exact ordinary_run _ s
  case mapImportRecord => simp only [exec, execMapImportRecord]; exact ordinary_run _ s
  case usbHeaderError => simp only [exec, execUsbHeaderError]; exact ordinary_run _ s
  case clearFeature => simp only [exec, execClearFeature]; exact ordinary_run _ s
  case csiFrameStart => simp only [exec, execCsiFrameStart]; exact ordinary_work _ s
  case csiLongPacket => simp only [exec, execCsiLongPacket]; exact ordinary_work _ s
  case csiFrameEnd => simp only [exec, execCsiFrameEnd]; exact ordinary_work _ s
  case triggerExpiry => simp only [exec, execTriggerExpiry]; exact ordinary_work _ s
  case extractionRunStart => simp only [exec, execExtractionRunStart]; exact ordinary_work _ s
  case pendingRunStart => simp only [exec, execPendingRunStart]; exact ordinary_work _ s
  case extractionRunEnd => simp only [exec, execExtractionRunEnd]; exact ordinary_work _ s
  case cameraEnable => simp only [exec, execCameraEnable]; exact ordinary_runWrite _ _ _ _ _ _ s
  case rectEnable => simp only [exec, execRectEnable]; exact ordinary_runWrite _ _ _ _ _ _ s
  case cameraInject => simp only [exec, execCameraInject]; exact ordinary_runWrite _ _ _ _ _ _ s
  case virtualFrameDelivery => simp only [exec, execVirtualFrameDelivery]; exact ordinary_work _ s
  case combOutputSample => simp only [exec, execCombOutputSample]; exact ordinary_work _ s
  case spiDrdyEdge => simp only [exec, execSpiDrdyEdge]; exact ordinary_work _ s
  case spiBurstEnd => simp only [exec, execSpiBurstEnd]; exact ordinary_work _ s
  case outputEmerge => simp only [exec, execOutputEmerge]; exact ordinary_work _ s
  case virtualSampleEntry => simp only [exec, execVirtualSampleEntry]; exact ordinary_work _ s
  case inertialInject => simp only [exec, execInertialInject]; exact ordinary_runWrite _ _ _ _ _ _ s
  case coefLoad => simp only [exec, execCoefLoad]; exact ordinary_runWrite _ _ _ _ _ _ s
  case coefLoadComplete => simp only [exec, execCoefLoadComplete]; exact ordinary_work _ s
  case swap => simp only [exec, execSwap]; exact ordinary_runWrite _ _ _ _ _ _ s
  case syncNFall => simp only [exec, execSyncNFall]; exact ordinary_work _ s
  case syncWrite => simp only [exec, execSyncWrite]; exact ordinary_runWrite _ _ _ _ _ _ s
  case channelRestart => simp only [exec, execChannelRestart]; exact ordinary_runWrite _ _ _ _ _ _ s
  case encoderEdge => simp only [exec, execEncoderEdge]; apply ordinary_runPin; exact withEnc_keeps _ _ _
  case indexEvent => simp only [exec, execIndexEvent]; exact ordinary_work _ s
  case preset => simp only [exec, execPreset]; exact ordinary_runWrite _ _ _ _ _ _ s
  case instanceEnable => simp only [exec, execInstanceEnable]; exact ordinary_runWrite _ _ _ _ _ _ s
  case instanceDisable => simp only [exec, execInstanceDisable]; exact ordinary_runWrite _ _ _ _ _ _ s
  case frameProcessingStart => simp only [exec, execFrameProcessingStart]; exact ordinary_work _ s
  case closureDue => simp only [exec, execClosureDue]; exact ordinary_work _ s
  case clearMap => simp only [exec, execClearMap]; exact ordinary_runWrite _ _ _ _ _ _ s
  case exportMap => simp only [exec, execExportMap]; exact ordinary_runWrite _ _ _ _ _ _ s
  case exportComplete => simp only [exec, execExportComplete]; exact ordinary_work _ s
  case importMap => simp only [exec, execImportMap]; exact ordinary_runWrite _ _ _ _ _ _ s
  case estimatorInject => simp only [exec, execEstimatorInject]; exact ordinary_runWrite _ _ _ _ _ _ s
  case solverRequestStart => simp only [exec, execSolverRequestStart]; exact ordinary_work _ s
  case solverResultWrite => simp only [exec, execSolverResultWrite]; exact ordinary_work _ s
  case factorReevaluation => simp only [exec, execFactorReevaluation]; exact ordinary_work _ s
  case evict => simp only [exec, execEvict]; exact ordinary_runWrite _ _ _ _ _ _ s
  case passageRunStart => simp only [exec, execPassageRunStart]; exact ordinary_work _ s
  case operatorGrant => simp only [exec, execOperatorGrant]; exact ordinary_work _ s
  case operatorEnd => simp only [exec, execOperatorEnd]; exact ordinary_work _ s
  case passageRunComplete => simp only [exec, execPassageRunComplete]; exact ordinary_work _ s
  case create => simp only [exec, execCreate]; exact ordinary_runWrite _ _ _ _ _ _ s
  case release => simp only [exec, execRelease]; exact ordinary_runWrite _ _ _ _ _ _ s
  case refresh => simp only [exec, execRefresh]; exact ordinary_runWrite _ _ _ _ _ _ s
  case tensorMoveComplete => simp only [exec, execTensorMoveComplete]; exact ordinary_work _ s
  case stallMove => simp only [exec, execStallMove]; exact ordinary_work _ s
  case writeBackComplete => simp only [exec, execWriteBackComplete]; exact ordinary_work _ s
  case relocation => simp only [exec, execRelocation]; exact ordinary_work _ s
  case tier2EccEvent => simp only [exec, execTier2EccEvent]; exact ordinary_work _ s
  case engineTensorRecreate => simp only [exec, execEngineTensorRecreate]; exact ordinary_work _ s
  case laneLock => simp only [exec, execLaneLock]; exact ordinary_strRun _ _ s
  case laneLockLoss => simp only [exec, execLaneLockLoss]; exact ordinary_strRun _ _ s
  case stringLocking => simp only [exec, execStringLocking]; exact ordinary_strRun _ _ s
  case lockingTimeout => simp only [exec, execLockingTimeout]; exact ordinary_strRun _ _ s
  case addressLearn => simp only [exec, execAddressLearn]; exact ordinary_run _ s
  case planCheck => simp only [exec, execPlanCheck]; exact ordinary_strRun _ _ s
  case miswiredRetry => simp only [exec, execMiswiredRetry]; exact ordinary_strRun _ _ s
  case rateSwitch => simp only [exec, execRateSwitch]; exact ordinary_strRun _ _ s
  case laneTestComplete => simp only [exec, execLaneTestComplete]; exact ordinary_strRun _ _ s
  case requiredWidthWrite => simp only [exec, execRequiredWidthWrite]; exact ordinary_runWrite _ _ _ _ _ _ s
  case rclkInLoss => simp only [exec, execRclkInLoss]; apply ordinary_runPin; exact fun _ => ⟨rfl, rfl⟩
  case rclkInReturn => simp only [exec, execRclkInReturn]; apply ordinary_runPin; exact fun _ => ⟨rfl, rfl⟩
  case rtAlign => simp only [exec, execRtAlign]; exact ordinary_strRun _ _ s
  case trainFlitReceived => simp only [exec, execTrainFlitReceived]; exact ordinary_strRun _ _ s
  case dataFlitReceived => simp only [exec, execDataFlitReceived]; exact ordinary_strRun _ _ s
  case nack => simp only [exec, execNack]; exact ordinary_strRun _ _ s
  case replay => simp only [exec, execReplay]; exact ordinary_strRun _ _ s
  case ack => simp only [exec, execAck]; exact ordinary_strRun _ _ s
  case ackSend => simp only [exec, execAckSend]; exact ordinary_strRun _ _ s
  case replayTimeout => simp only [exec, execReplayTimeout]; exact ordinary_strRun _ _ s
  case credit => simp only [exec, execCredit]; exact ordinary_strRun _ _ s
  case creditSend => simp only [exec, execCreditSend]; exact ordinary_strRun _ _ s
  case packetRoute => simp only [exec, execPacketRoute]; exact ordinary_run _ s
  case routeFailReceived => simp only [exec, execRouteFailReceived]; exact ordinary_run _ s
  case detourEntry => simp only [exec, execDetourEntry]; exact ordinary_runWrite _ _ _ _ _ _ s
  case detourClear => simp only [exec, execDetourClear]; exact ordinary_runWrite _ _ _ _ _ _ s
  case epochPacket => simp only [exec, execEpochPacket]; exact ordinary_run _ s
  case epochRecordApply => simp only [exec, execEpochRecordApply]; exact ordinary_run _ s
  case lullArrive => simp only [exec, execLullArrive]; exact ordinary_run _ s
  case lullRelease => simp only [exec, execLullRelease]; exact ordinary_run _ s
  case openTunnel => simp only [exec, execOpenTunnel]; exact ordinary_run _ s
  case tunnelCommand => simp only [exec, execTunnelCommand]; exact ordinary_run _ s
  case dictReq => simp only [exec, execDictReq]; exact ordinary_runRound _ s
  case dmaData => simp only [exec, execDmaData]; exact ordinary_run _ s
  case dmaTimeout => simp only [exec, execDmaTimeout]; exact ordinary_run _ s
  case storeData => simp only [exec, execStoreData]; exact ordinary_run _ s
  case camData => simp only [exec, execCamData]; exact ordinary_run _ s
  case imuSamples => simp only [exec, execImuSamples]; exact ordinary_run _ s
  case injectList => simp only [exec, execInjectList]; exact ordinary_run _ s
  case injectRecords => simp only [exec, execInjectRecords]; exact ordinary_run _ s
  case breezeEnable => simp only [exec, execBreezeEnable]; exact ordinary_runWrite _ _ _ _ _ _ s
  case tx => simp only [exec, execTx]; exact ordinary_runWrite _ _ _ _ _ _ s
  case beacon => simp only [exec, execBeacon]; exact ordinary_work _ s
  case slotTransmit => simp only [exec, execSlotTransmit]; exact ordinary_work _ s
  case breezeSync => simp only [exec, execBreezeSync]; exact ordinary_work _ s
  case breezeHeader => simp only [exec, execBreezeHeader]; exact ordinary_work _ s
  case breezeFrameReceived => simp only [exec, execBreezeFrameReceived]; exact ordinary_work _ s
  case beaconReceived => simp only [exec, execBeaconReceived]; exact ordinary_work _ s
  case breezeAckSend => simp only [exec, execBreezeAckSend]; exact ordinary_work _ s
  case breezeAckReceived => simp only [exec, execBreezeAckReceived]; exact ordinary_work _ s
  case ackTimeout => simp only [exec, execAckTimeout]; exact ordinary_work _ s
  case beaconMissed => simp only [exec, execBeaconMissed]; exact ordinary_work _ s
  case slotOverrun => simp only [exec, execSlotOverrun]; exact ordinary_work _ s
  case sourceForget => simp only [exec, execSourceForget]; exact ordinary_work _ s
  case demandTick => simp only [exec, execDemandTick]; exact ordinary_run _ s
  case thermalTick => simp only [exec, execThermalTick]; exact ordinary_run _ s
  case thermalRelease => simp only [exec, execThermalRelease]; exact ordinary_run _ s
  case currentLimitStep => simp only [exec, execCurrentLimitStep]; exact ordinary_run _ s
  case currentRelease => simp only [exec, execCurrentRelease]; exact ordinary_run _ s
  case ceilingFloorWrite => simp only [exec, execCeilingFloorWrite]; exact ordinary_runWrite _ _ _ _ _ _ s
  case thermalTrip => simp only [exec, execThermalTrip]; exact ordinary_run _ s
  case tripResume => simp only [exec, execTripResume]; exact ordinary_run _ s
  case railLinkFailure => simp only [exec, execRailLinkFailure]; exact ordinary_run _ s
  case vrAlertN => simp only [exec, execVrAlertN]; exact ordinary_run _ s
  case errorDetected => simp only [exec, execErrorDetected]; exact ordinary_run _ s
  case faultedEntry => simp only [exec, execFaultedEntry]; exact ordinary_run _ s
  case attnAck => simp only [exec, execAttnAck]; exact ordinary_runWrite _ _ _ _ _ _ s
  case overflowClear => simp only [exec, execOverflowClear]; exact ordinary_runWrite _ _ _ _ _ _ s
  case persistClear => simp only [exec, execPersistClear]; exact ordinary_runWrite _ _ _ _ _ _ s
  case nonce => simp only [exec, execNonce]; exact ordinary_runWrite _ _ _ _ _ _ s
  case lock => simp only [exec, execLock]; exact ordinary_runWrite _ _ _ _ _ _ s
  case fwInstall => simp only [exec, execFwInstall]; exact ordinary_runWrite _ _ _ _ _ _ s
  case attemptStart => simp only [exec, execAttemptStart]; exact ordinary_canRun _ _ s
  case receiveError => simp only [exec, execReceiveError]; exact ordinary_canRun _ _ s
  case vfEnableSet => simp only [exec, execVfEnableSet]; exact ordinary_run _ s
  case d0Return => simp only [exec, execD0Return]; exact ordinary_run _ s
  case holdoffExpiry => simp only [exec, execHoldoffExpiry]; exact ordinary_run _ s
  case noNeighbour => simp only [exec, execNoNeighbour]; exact ordinary_strRun _ _ s
  case badControlFlit => simp only [exec, execBadControlFlit]; exact ordinary_strRun _ _ s
  case tapInstruction => cases h
  case vrSettle => simp only [exec, execVrSettle]; exact ordinary_run _ s
  case idleGateEntry => simp only [exec, execIdleGateEntry]; exact ordinary_run _ s
  case idleGateExit => simp only [exec, execIdleGateExit]; exact ordinary_run _ s
  case holdEntryComplete => simp only [exec, execHoldEntryComplete]; exact ordinary_run _ s
  case signatureComplete => simp only [exec, execSignatureComplete]; exact ordinary_run _ s
  case fwInstallComplete => simp only [exec, execFwInstallComplete]; exact ordinary_run _ s
  case fwInstallAbandoned => simp only [exec, execFwInstallAbandoned]; exact ordinary_run _ s
  case pciePerstNRelease => simp only [exec, execPciePerstNRelease]; exact ordinary_run _ s
  case usbAttach => simp only [exec, execUsbAttach]; apply ordinary_runPin; exact fun _ => ⟨rfl, rfl⟩
  case statusReport => simp only [exec, execStatusReport]; exact ordinary_run _ s
  case holdExitComplete => simp only [exec, execHoldExitComplete]; exact ordinary_run _ s
  case pfailNRelease => simp only [exec, execPfailNRelease]; apply ordinary_runPin; exact fun _ => ⟨rfl, rfl⟩

/-! ### What stays until a cold reset -/

@[simp] theorem until_straps (d old : Chip) : (d.untilColdReset old).straps = old.straps := by simp [Chip.untilColdReset]

@[simp] theorem until_off (d old : Chip) : (d.untilColdReset old).off = old.off := by simp [Chip.untilColdReset, Chip.off]

/-- FAULT_N is asserted exactly in FAULTED (R783). -/
theorem until_faultN (d old : Chip) : (d.untilColdReset old).faults.faultN = ((d.untilColdReset old).engine == .faulted) := by
  simp [Chip.untilColdReset]

/-- FAULTED stays (R782). -/
theorem until_faulted (d old : Chip) (h : old.engine = .faulted) : (d.untilColdReset old).engine = .faulted := by
  simp [Chip.untilColdReset, h]

/-- A retired unit stays retired (R774). -/
theorem until_retired (d old : Chip) (u : UnitName) (h : u ∈ old.faults.retired) : u ∈ (d.untilColdReset old).faults.retired := by
  simp [Chip.untilColdReset, h]

end Sys2Proof.Machine
end

