-- ==== Sys2Proof/Laws/Ops.lean ====
section
/-! SUPPORT. What the shared operations can do, said once each: positions and wrapping counts, the event log, rejected
accesses, the dictionary server's refusals, resets, and when settling leaves the chip as it is. -/

namespace Sys2Proof.Machine

/-! ### Numbers and bytes -/

/-- A number read back from its little-endian bytes. -/
theorem leNat_leBytes (n v : Nat) : leNat (leBytes n v) = v % 256 ^ n := by
  induction n generalizing v with
  | zero => simp [leBytes, leNat, Nat.mod_one]
  | succ n ih =>
    simp only [leBytes, leNat, ih, BitVec.toNat_ofNat]
    rw [show 256 ^ (n + 1) = 256 * 256 ^ n by rw [Nat.pow_succ, Nat.mul_comm], Nat.mod_mul]

theorem length_leBytes (n v : Nat) : (leBytes n v).length = n := by
  induction n generalizing v with
  | zero => rfl
  | succ n ih => simp [leBytes, ih]

/-- A bit set in the right operand is set in the disjunction. -/
theorem bit_or (a b k : Nat) (h : bit b k = true) : bit (a ||| b) k = true := by
  have e : ∀ n, bit n k = n.testBit k := by
    intro n; simp only [bit, Nat.testBit, Nat.shiftRight_eq_div_pow, Nat.one_and_eq_mod_two]
    rcases Nat.mod_two_eq_zero_or_one (n / 2 ^ k) with h | h <;> simp [h]
  rw [e] at *; simp [h]

/-- A bit set in the left operand is set in the disjunction. -/
theorem bit_or_left (a b k : Nat) (h : bit a k = true) : bit (a ||| b) k = true := by
  rw [Nat.or_comm]; exact bit_or b a k h

/-! ### Tables and walks -/

/-- The keys of a table in canonical form rise. -/
theorem sorted_pairwise {α : Type} : ∀ t : Tab α, tabSorted t = true → t.Pairwise (fun p q => p.1 < q.1)
  | [], _ => .nil
  | [p], _ => List.pairwise_singleton _ _
  | p :: q :: r, h => by
    simp only [tabSorted, Bool.and_eq_true, decide_eq_true_eq] at h
    have ih := sorted_pairwise (q :: r) h.2
    refine List.pairwise_cons.2 ⟨?_, ih⟩
    intro x hx
    rcases List.mem_cons.1 hx with rfl | hx
    · exact h.1
    · exact Nat.lt_trans h.1 ((List.pairwise_cons.1 ih).1 x hx)

/-- What a table in canonical form lists is what it reads. -/
theorem tabGet_mem {α : Type} : ∀ (t : Tab α) (k : Nat) (v : α), tabSorted t = true → ((k, v) ∈ t ↔ tabGet? t k = some v)
  | [], k, v, _ => by simp [tabGet?]
  | p :: r, k, v, h => by
    have hp := List.pairwise_cons.1 (sorted_pairwise _ h)
    have hr : tabSorted r = true := by cases r <;> simp_all [tabSorted]
    have ih := tabGet_mem r k v hr
    unfold tabGet?
    split
    · rename_i e
      constructor
      · intro hm
        rcases List.mem_cons.1 hm with hm | hm
        · rw [← hm]
        · have := hp.1 _ hm; simp at this; omega
      · intro hv; cases hv; subst e; exact List.mem_cons_self
    · rename_i e
      rw [← ih]
      constructor
      · intro hm
        rcases List.mem_cons.1 hm with hm | hm
        · rw [← hm] at e; exact absurd rfl e
        · exact hm
      · exact List.mem_cons_of_mem _

/-- A walk over a list in which nothing changes. -/
theorem each_id {α} (xs : List α) (g : Chip → α → Chip) (c : Chip) (h : ∀ x ∈ xs, g c x = c) : c.each xs g = c := by
  unfold Chip.each
  induction xs with
  | nil => rfl
  | cons x r ih => rw [List.foldl_cons, h x List.mem_cons_self]; exact ih (fun y hy => h y (List.mem_cons_of_mem _ hy))

/-- A walk that leaves the flash leaves it. -/
theorem each_flash {α} (xs : List α) (g : Chip → α → Chip) (h : ∀ c x, (g c x).flash = c.flash) (c : Chip) : (c.each xs g).flash = c.flash := by
  unfold Chip.each
  induction xs generalizing c with
  | nil => rfl
  | cons x r ih => rw [List.foldl_cons, ih, h]

/-! ### Positions -/

/-- A position made of a count of fraction units counts those units, modulo the circle. -/
theorem ofUnits_units (lines u : Nat) (_h : 0 < lines) : (Pos.ofUnits lines u).units lines = u % (m32 * lines * 0x10000) := by
  have h1 : u % (m32 * lines * 0x10000) = u % 0x10000 + 0x10000 * (u / 0x10000 % lines + lines * (u / 0x10000 / lines % m32)) := by
    rw [show m32 * lines * 0x10000 = 0x10000 * (lines * m32) by ring, Nat.mod_mul, Nat.mod_mul]
  rw [h1]; unfold Pos.ofUnits Pos.units; ring

/-- R37: adding positions is adding their units. -/
theorem add_ofUnits (lines : Nat) (p s : Pos) (h : 0 < lines) : Pos.add lines p s = Pos.ofUnits lines (p.units lines + s.units lines) := by
  have e : p.units lines + s.units lines = 0x10000 * (lines * (p.frame + s.frame) + (p.line + s.line)) + (p.frac + s.frac) := by
    unfold Pos.units; ring
  have d : (p.units lines + s.units lines) / 0x10000 = lines * (p.frame + s.frame) + (p.line + s.line + (p.frac + s.frac) / 0x10000) := by
    rw [e, Nat.mul_add_div (by norm_num)]; ring
  have m : (p.units lines + s.units lines) % 0x10000 = (p.frac + s.frac) % 0x10000 := by rw [e, Nat.mul_add_mod]
  unfold Pos.add Pos.ofUnits
  rw [m, d, Nat.mul_add_div h, Nat.mul_add_mod]

/-- A position made of units has every field in its range. -/
theorem ofUnits_norm (lines u : Nat) (h : 0 < lines) : (Pos.ofUnits lines u).frame < m32 ∧ (Pos.ofUnits lines u).line < lines ∧
    (Pos.ofUnits lines u).frac < 0x10000 := ⟨Nat.mod_lt _ (by norm_num), Nat.mod_lt _ h, Nat.mod_lt _ (by norm_num)⟩

/-- A position in range is made of its own units. -/
theorem ofUnits_self (lines : Nat) (p : Pos) (h1 : p.frame < m32) (h2 : p.line < lines) (h3 : p.frac < 0x10000) :
    Pos.ofUnits lines (p.units lines) = p := by
  have hl : 0 < lines := by omega
  have d : p.units lines / 0x10000 = p.line + lines * p.frame := by
    unfold Pos.units; rw [Nat.mul_comm _ 0x10000, Nat.mul_add_div (by norm_num), Nat.div_eq_of_lt h3]; ring
  have m : p.units lines % 0x10000 = p.frac := by
    unfold Pos.units; rw [Nat.mul_comm _ 0x10000, Nat.mul_add_mod, Nat.mod_eq_of_lt h3]
  unfold Pos.ofUnits
  rw [d, m, Nat.add_mul_div_left _ _ hl, Nat.add_mul_mod_self_left, Nat.div_eq_of_lt h2, Nat.mod_eq_of_lt h2, Nat.zero_add, Nat.mod_eq_of_lt h1]

/-- R42. -/
theorem nextFrame_pos (c : Chip) : c.nextFrame.epoch.pos = ⟨(c.epoch.pos.frame + 1) % m32, 0, 0⟩ ∧ c.nextFrame.epoch.st = .running := by
  unfold Chip.nextFrame; simp only [and_self]

/-! ### The log and rejected accesses -/

/-- An event written to the log touches the log alone, and takes the next SEQ (R786). -/
theorem log_keeps (c : Chip) (a b d e f : Nat) : (c.log a b d e f).ctl = c.ctl ∧ (c.log a b d e f).voices = c.voices ∧
    (c.log a b d e f).tier1 = c.tier1 ∧ (c.log a b d e f).faults.latest = (c.faults.latest + 1) % m32 ∧ (c.log a b d e f).keeps = c.keeps ∧
    (c.log a b d e f).trig = c.trig ∧ (c.log a b d e f).engine = c.engine := by
  simp only [Chip.log]; repeat' split
  all_goals simp only [Chip.dsat, Chip.dset, and_self]

/-- One event more. -/
theorem insertEvent_length (e : Event) (l : List Event) : (insertEvent e l).length = l.length + 1 := by
  induction l with
  | nil => rfl
  | cons x r ih => unfold insertEvent; split <;> simp [ih]

/-- A rejected access sets its kind in the latch (R130, R131). -/
theorem add_bit (l : ErrLatch) (o d k j : Nat) (h : bit k j = true) : bit (l.add o d k).bits j = true := by
  unfold ErrLatch.add
  split
  · exact h
  · exact bit_or_left _ _ _ (bit_or _ _ _ h)

/-- A rejected access of the PF outside V0's block: the latch, and one event when the latch was clear (R130). -/
theorem reject_pf (c : Chip) (o d k : Nat) (h0 : ¬(0x1000000 ≤ o ∧ o < 0x1010000)) : c.reject 0 o d k =
    if c.ctl.err.bits = 0 then ({ c with ctl := { c.ctl with err := c.ctl.err.add o d k } }).log 0x0701 0x0002 0 0 0
    else { c with ctl := { c.ctl with err := c.ctl.err.add o d k } } := by
  unfold Chip.reject
  rw [if_neg (by omega), if_neg h0]

/-- Raising a source leaves the rings and the latch of the voice. -/
theorem raise_voice (c : Chip) (v src : Nat) : ((c.raise v src).voice v).cmdTail = (c.voice v).cmdTail ∧ ((c.raise v src).voice v).err = (c.voice v).err := by
  simp only [Chip.raise, Chip.sendVector]
  repeat' split
  all_goals simp [Chip.voice, Chip.setVoice]

/-- A rejected access in a voice block leaves the tail and sets VALUE (R262). -/
theorem voiceReject_voice (c : Chip) (v o d : Nat) : ((c.voiceReject v o d 16).voice v).cmdTail = (c.voice v).cmdTail ∧ bit ((c.voiceReject v o d 16).voice v).err.bits 4 = true := by
  have hv : ∀ (c : Chip) (a b d e f : Nat), (c.log a b d e f).voice v = c.voice v := by
    intro c a b d e f; simp [Chip.voice, (log_keeps c a b d e f).2.1]
  simp only [Chip.voiceReject]
  split
  · rw [(raise_voice _ _ _).1, (raise_voice _ _ _).2, hv]
    simp only [Chip.voice, Chip.setVoice, tabGet_tabSet_same, true_and]
    exact add_bit _ _ _ _ _ (by decide)
  · simp only [Chip.voice, Chip.setVoice, tabGet_tabSet_same, true_and]
    exact add_bit _ _ _ _ _ (by decide)

/-- A rejected access of a voice to its own block. -/
theorem rejectOwn_voice (c : Chip) (v o d : Nat) (hv : o < 0x10000) : c.rejectOwn v o d 16 = c.voiceReject v (if v = 0 then o else o) d 16 := by
  unfold Chip.rejectOwn voiceOffset Chip.reject
  by_cases h : v = 0
  · subst h
    rw [if_pos rfl, if_neg (by omega), if_pos (by omega), if_pos rfl, Nat.add_sub_cancel_left]
  · rw [if_neg h, if_neg h, if_pos (by omega)]

/-- The bytes of a write with every byte enabled. -/
theorem bar2Bytes_some (offset : Nat) (data : List Byte) : bar2Bytes offset (data.map some) = (data.zipIdx offset).map (fun p => (p.2, p.1)) := by
  unfold bar2Bytes
  induction data generalizing offset with
  | nil => rfl
  | cons b r ih => simp [List.zipIdx_cons, ih]

/-- Writing byte by byte. -/
theorem foldl_writeBytes (m : Memory) (offset : Nat) (data : List Byte) :
    ((data.zipIdx offset).map (fun p => (p.2, p.1))).foldl (fun m p => Memory.write m p.1 p.2) m = m.writeBytes offset data := by
  induction data generalizing offset m with
  | nil => rfl
  | cons b r ih => simp [List.zipIdx_cons, Memory.writeBytes, ih]

/-! ### The dictionary server -/

/-- R143: an index that is not allocated has no entry. -/
theorem findEntry_none (idx sub : Nat) (h : indexAllocated idx = false) : findEntry idx sub = none := by
  unfold findEntry; simp [h]
  unfold entryRow; unfold indexAllocated at h
  rw [List.findSome?_eq_none_iff]
  intro b hb
  rw [List.any_eq_false] at h
  simp [h b hb]

/-- 0x0A020003 ranks before every other code (R151). -/
theorem firstCode_foreign (xs : List Nat) (h : 0x0A020003 ∈ xs) : firstCode xs = 0x0A020003 := by
  unfold firstCode; simp [h]

/-- The codes of a STORE. -/
theorem storeCheck_vals (c : Chip) : c.storeCheck = 0 ∨ c.storeCheck = 0x0A080001 ∨ c.storeCheck = 0x0A080002 := by
  unfold Chip.storeCheck
  simp only
  generalize (c.flash.storing.isSome || _ || _ || _) = b
  cases b <;> cases c.board.pfail <;> simp

theorem wake_engine (c : Chip) : c.callWake.engine = c.engine := rfl

/-- A write that a check refuses is answered with its code and does nothing else (R151). -/
theorem submit_refused (c : Chip) (q : DictReq) (k : Nat) (h : c.silent = false) (hk : c.callWake.codeOf q = k) (h0 : k ≠ 0) :
    c.submit q = c.callWake.respond q k := by
  unfold Chip.submit; simp [h, hk, h0]

/-! ### Resets -/

/-- A command is ordinary, a reset, or the test access port. -/
theorem exec_cases (i : Instr) : ordinaryCommand i = true ∨ (∃ m d, i = .powerOnReset m d) ∨ i = .refclk25Loss ∨
    (∃ m d, i = .refclk25Return m d) ∨ i = .warmrstNFall ∨ ∃ k, i = .tapInstruction k := by
  by_cases h : ordinaryCommand i = true
  · exact .inl h
  · unfold ordinaryCommand at h; split at h <;> simp_all

/-- R807: an engine held in RESET does not notice a warm reset. -/
theorem warmReset_off (c : Chip) (k : Nat) (h : c.off = true) : c.warmReset k = c := by
  unfold Chip.warmReset; simp only [Chip.off] at h; simp [h]

/-- What a warm reset keeps (R774, R782, R805, R807). -/
theorem warmReset_keeps (c : Chip) (k : Nat) : (c.warmReset k).straps = c.straps ∧
    (c.engine = .faulted → c.warmReset k = c) ∧ (c.faults.faultN = (c.engine == .faulted) → (c.warmReset k).faults.faultN = ((c.warmReset k).engine == .faulted)) ∧
    (c.off = false → (c.warmReset k).off = false) ∧ ∀ u ∈ c.faults.retired, u ∈ (c.warmReset k).faults.retired := by
  have hs : c.haltStore.straps = c.straps ∧ c.haltStore.board = c.board ∧ c.haltStore.faults = c.faults := by
    unfold Chip.haltStore; split <;> exact ⟨rfl, rfl, rfl⟩
  unfold Chip.warmReset
  split
  · simp_all
  · rename_i h
    obtain ⟨h1, h2, h3⟩ := hs
    simp only [Bool.or_eq_true, not_or] at h
    have e : c.engine ≠ .faulted := by intro e; simp [e] at h
    have e : c.engine ≠ .reset := by intro e; simp [e] at h
    simp [Chip.untilColdReset, Chip.off, *]
    intro u hu; simp [hu]

/-- An engine held in RESET has nothing left that a cold reset clears (R804). -/
theorem held_cleared (c : Chip) : c.held.cleared = true ∧ c.held.faults.faultN = (c.held.engine == .faulted) ∧ c.held.straps = c.straps := by
  have : c.haltStore.straps = c.straps := by unfold Chip.haltStore; split <;> rfl
  simp [Chip.cleared, Chip.held, this]

/-- A cold reset releases the engine, samples the straps and releases FAULT_N unless it ends in FAULTED. -/
theorem coldReset_keeps (c : Chip) (m d : Nat) (h : c.board.porstLow = false) (h2 : c.board.refclk = true) :
    (c.coldReset m d).off = false ∧ (c.coldReset m d).straps.ident < 64 ∧
    (c.coldReset m d).faults.faultN = ((c.coldReset m d).engine == .faulted) := by
  have : c.haltStore.board = c.board := by unfold Chip.haltStore; split <;> rfl
  simp [Chip.coldReset, Chip.untilColdReset, Chip.off, Chip.held, this, strapsOf, h, h2]; omega

/-! ### The governor and the mesh -/

/-- R743: the level that applies. -/
theorem relevel_level (c : Chip) (h1 : c.gov.p7 = false) (h2 : c.engine ≠ .hold) : c.relevel.dget (govKey 1) = c.targetLevel := by
  have hd : ∀ (c d : Chip) k, d.dict = c.dict → d.dget k = c.dget k := by intro c d k h; simp [Chip.dget, h]
  simp only [Chip.relevel, h1, h2, Chip.setLevel]
  simp only [Bool.false_eq_true, or_self, if_false]
  split
  · rename_i h; exact h.symm
  · change (((c.dset (govKey 1) c.targetLevel).dinc (govKey 11)).dset (railKey 7) (levelMilliVolts c.targetLevel)).dget (govKey 1) = _
    simp only [Chip.dinc]
    rw [Chip.dget_dset, if_neg (by decide), Chip.dget_dset, if_neg (by decide), Chip.dget_dset, if_pos rfl]

/-- One hop of dimension order comes one string nearer (R668). -/
theorem hop (here dest : Nat) (h1 : here < 1024) (h2 : dest < 1024) (h : here ≠ dest) :
    stepTo here (dimensionPort here dest) < 1024 ∧ hopsBetween (stepTo here (dimensionPort here dest)) dest + 1 = hopsBetween here dest := by
  obtain ⟨x, y, z, rfl, hy, hz⟩ : ∃ x y z, here = 16 * x + 4 * y + z ∧ y < 4 ∧ z < 4 :=
    ⟨here / 16, here / 4 % 4, here % 4, by omega, by omega, by omega⟩
  obtain ⟨u, v, w, rfl, hv, hw⟩ : ∃ u v w, dest = 16 * u + 4 * v + w ∧ v < 4 ∧ w < 4 :=
    ⟨dest / 16, dest / 4 % 4, dest % 4, by omega, by omega, by omega⟩
  have c1 : ∀ x y z, y < 4 → z < 4 → (16 * x + 4 * y + z) / 16 = x := by omega
  have c2 : ∀ x y z, y < 4 → z < 4 → (16 * x + 4 * y + z) / 4 % 4 = y := by omega
  have c3 : ∀ x y z, y < 4 → z < 4 → (16 * x + 4 * y + z) % 4 = z := by omega
  unfold dimensionPort
  simp only [c1 x y z hy hz, c2 x y z hy hz, c3 x y z hy hz, c1 u v w hv hw, c2 u v w hv hw, c3 u v w hv hw]
  have hb : ∀ x y z, y < 4 → z < 4 → hopsBetween (16 * x + 4 * y + z) (16 * u + 4 * v + w) =
      ((x - u) + (u - x)) + ((y - v) + (v - y)) + ((z - w) + (w - z)) := by
    intro x y z hy hz
    simp only [hopsBetween, c1 x y z hy hz, c2 x y z hy hz, c3 x y z hy hz, c1 u v w hv hw, c2 u v w hv hw, c3 u v w hv hw]
  rw [hb x y z hy hz]
  split
  · have e : stepTo (16 * x + 4 * y + z) 1 = 16 * (x + 1) + 4 * y + z := by simp only [stepTo]; omega
    rw [e, hb _ _ _ hy hz]; omega
  split
  · have e : stepTo (16 * x + 4 * y + z) 0 = 16 * (x - 1) + 4 * y + z := by simp only [stepTo]; omega
    rw [e, hb _ _ _ hy hz]; omega
  split
  · have e : stepTo (16 * x + 4 * y + z) 3 = 16 * x + 4 * (y + 1) + z := by simp only [stepTo]; omega
    rw [e, hb _ _ _ (by omega) hz]; omega
  split
  · have e : stepTo (16 * x + 4 * y + z) 2 = 16 * x + 4 * (y - 1) + z := by simp only [stepTo]; omega
    rw [e, hb _ _ _ (by omega) hz]; omega
  split
  · have e : stepTo (16 * x + 4 * y + z) 5 = 16 * x + 4 * y + (z + 1) := by simp only [stepTo]; omega
    rw [e, hb _ _ _ hy (by omega)]; omega
  · have e : stepTo (16 * x + 4 * y + z) 4 = 16 * x + 4 * y + (z - 1) := by simp only [stepTo]; omega
    rw [e, hb _ _ _ hy (by omega)]; omega

/-! ### What leaves the chip quiet, and its ERROR_REGISTER -/

theorem quiet_readData (c : Chip) (x : Nat) (r : List Byte) : ({ c with epochHi := x, readData := r } : Chip).quiet = c.quiet ∧
    ({ c with epochHi := x, readData := r } : Chip).errorRegister = c.errorRegister := by
  constructor
  · unfold Chip.quiet; rfl
  · unfold Chip.errorRegister Chip.errorBits; rfl

theorem quiet_tier1 (c : Chip) (r : Memory) : ({ c with tier1 := r } : Chip).quiet = c.quiet ∧
    ({ c with tier1 := r } : Chip).errorRegister = c.errorRegister := by
  constructor
  · unfold Chip.quiet; rfl
  · unfold Chip.errorRegister Chip.errorBits; rfl

theorem quiet_ctl (c : Chip) (r : Control) : ({ c with ctl := r } : Chip).quiet = c.quiet ∧
    ({ c with ctl := r } : Chip).errorRegister = c.errorRegister := by
  constructor
  · unfold Chip.quiet; rfl
  · unfold Chip.errorRegister Chip.errorBits; rfl

theorem quiet_setPort (c : Chip) (p : Nat) (r : CanPort) : (c.setPort p r).quiet = c.quiet ∧
    (c.setPort p r).errorRegister = c.errorRegister := by
  constructor
  · unfold Chip.quiet; rfl
  · unfold Chip.errorRegister Chip.errorBits; rfl

theorem quiet_setPin (c : Chip) (p : Nat) (r : TrigPin) : (c.setPin p r).quiet = c.quiet ∧
    (c.setPin p r).errorRegister = c.errorRegister := by
  constructor
  · unfold Chip.quiet; rfl
  · unfold Chip.errorRegister Chip.errorBits; rfl

end Sys2Proof.Machine
end

