-- ==== Sys2Proof/WellFormed.lean ====
section
/-! DEFINITION. Well-formed commands: operands that fit the fields and name the parts that the manual gives them. The
meanings are total on all operands; a well-formed command is one that can reach the block. -/

namespace Sys2Proof

open Sys2Proof.Machine

/-- A value of n bytes. -/
def byteValue (n value : Nat) : Bool := decide (value < 2 ^ (8 * n))

/-- A value of 32 bits. -/
def word (value : Nat) : Bool := byteValue 4 value

/-- R596: tensor identifiers have 24 bits. -/
def tensorIdent (t : Nat) : Bool := decide (t < 0x1000000)

/-- Table 6.4: an aligned 32-bit register of BAR0, of 64 MiB on the PF and 1 MiB on a VF. -/
def bar0Offset (fn offset : Nat) : Bool := offset % 4 == 0 && decide (offset < if fn = 0 then 0x4000000 else 0x100000)

/-- Table 6.4: the size of BAR2. -/
def bar2Size : Nat := 0x4000000

/-- Table 2.3: the codes of the epoch sources. -/
def sourceExists (src : Nat) : Bool :=
  decide (src < 6) || (decide (0x10 ≤ src) && decide (src < 0x14)) || src == 0x20 || src == 0x30 || src == 0x31

/-- Table 4.14. -/
def Via.wf (x : Via) : Bool := decide (1 ≤ x.transport) && decide (x.transport ≤ 5) && decide (x.tag < 0x10000)

/-- R188: the lengths and identifiers of the frames of ISO 11898-1. A remote frame carries no data here. -/
def CanFrame.wf (f : CanFrame) : Bool :=
  decide (f.ident < if f.ide then 0x20000000 else 0x800) &&
  (decide (f.data.length ≤ 8) || (f.fdf && [12, 16, 20, 24, 32, 48, 64].contains f.data.length)) &&
  (!f.rtr || (!f.fdf && f.data.isEmpty)) && (f.fdf || (!f.brs && !f.esi))

/-- The fields of a setup packet. -/
def UsbSetup.wf (x : UsbSetup) : Bool :=
  byteValue 1 x.requestType && byteValue 1 x.request && byteValue 2 x.value && byteValue 2 x.index && byteValue 2 x.length

/-- The fields of Table 6.16. -/
def RecordHeader.wf (x : RecordHeader) : Bool :=
  byteValue 1 x.rtype && byteValue 1 x.flags && byteValue 2 x.reserved && word x.length && word x.ident && word x.offset

/-- The fields of a CSI-2 packet header. -/
def LongPacket.wf (x : LongPacket) : Bool :=
  decide (x.vc < 16) && decide (x.format < 64) && decide (x.payload.length < 0x10000)

/-- The fields of Table 13.10; a packet stands at one of the seven inputs (R666). -/
def Packet.wf (x : Packet) : Bool :=
  byteValue 2 x.dest && byteValue 2 x.src && byteValue 1 x.slice && byteValue 1 x.class_ && byteValue 1 x.ptype &&
  byteValue 1 x.hops && byteValue 1 x.exit && byteValue 1 x.entry && byteValue 2 x.tag && word x.arg &&
  decide (x.payload.length ≤ 2048) && decide (x.input ≤ 6)

/-- The operands of a command fit. -/
def Instr.wf : Instr → Bool
  | .powerOnReset mode id | .refclk25Return mode id => decide (mode < 4) && decide (id < 64)
  | .warmrstNFall | .refclk25Loss | .pfailNAssert | .selftestComplete | .pciePerstNAssert | .epochLoRead
  | .blankingLine | .freewheelEntry | .freewheelLine | .holdInterval | .syntheticEdge | .virtualRecordStep
  | .cueArmCommit | .cueFire | .storeComplete | .storeAbandoned | .commandAdmission | .vfEnableClear
  | .usbDictWriteStatus | .usbBusReset | .usbDetach | .clearFeature | .syncNFall | .operatorGrant | .addressLearn
  | .rclkInLoss | .rclkInReturn | .epochRecordApply | .beacon | .slotTransmit | .breezeAckSend | .ackTimeout
  | .beaconMissed | .slotOverrun | .thermalRelease | .currentRelease | .vrSettle | .idleGateEntry | .idleGateExit
  | .holdEntryComplete | .signatureComplete | .fwInstallComplete | .fwInstallAbandoned | .pciePerstNRelease
  | .usbAttach | .statusReport | .holdExitComplete | .pfailNRelease => true
  | .warmResetReqWrite value | .accessErrClear value => word value
  | .selftest failed => failed.all unitExists
  | .registerWrite fn offset value be => decide (fn ≤ 12) && bar0Offset fn offset && word value && decide (be < 16)
  | .unmappedRead fn offset => decide (fn ≤ 12) && bar0Offset fn offset
  | .bar2Write offset data => decide (offset < bar2Size) && decide (offset + data.length ≤ bar2Size)
  | .bar2Read offset len => decide (offset < bar2Size) && decide (offset + len ≤ bar2Size)
  | .lineEdge src interval => sourceExists src && word interval
  | .fractionUpdate updates => decide (0 < updates)
  | .frameStart src => sourceExists src
  | .epochFrameEnd src => decide (src < 6)
  | .reverseCount src => decide (16 ≤ src) && decide (src < 20)
  | .sourceWrite v via sub value =>
    decide (v < 16) && via.wf && (sub == 1 || sub == 2) && byteValue (if sub = 1 then 1 else 2) value
  | .cueArmWrite v via slot | .cueCancelWrite v via slot =>
    decide (v < 16) && via.wf && decide (256 ≤ slot) && decide (slot < 1024)
  | .trigPulseEnd pin => decide (pin < 6)
  | .dictRead v idx sub | .dictDescribe v idx sub => decide (v < 16) && decide (idx < 0x10000) && decide (sub < 0x100)
  | .dictWrite v via idx sub data =>
    decide (v < 16) && via.wf && decide (idx < 0x10000) && decide (sub < 0x100) && decide (data.length ≤ 65535)
  | .deferredWriteCommit v | .ringEnable v | .ringDisable v | .voiceDrainEnd v | .dictGoRead v | .dictGoWrite v
  | .dictGoDescribe v | .runPassage v | .runTablature v | .solveDelta v | .moveTensor v | .pinTensor v | .cueArm v
  | .cueCancel v | .dictOpRead v | .dictOpWrite v | .dictOpDescribe v | .fence v | .fenceComplete v | .lull v
  | .completionWrite v | .waitingCompletionWrite v => decide (v < 16)
  | .stateRequestReady v via | .stateRequestConfig v via | .stateRequestHold v via | .stateRequestHoldExit v via
  | .instanceEnable v via | .instanceDisable v via => decide (v < 16) && via.wf
  | .stateRequestRun v via target => decide (v < 16) && via.wf && (target == 4 || target == 5)
  | .behaviourLevelRequest v via level => decide (v < 16) && via.wf && decide (level < 0x100)
  | .store v via value | .restore v via value | .persistClear v via value | .lock v via value =>
    decide (v < 16) && via.wf && byteValue 4 value
  | .broadcastEnable v via ch value => decide (v < 16) && via.wf && decide (ch < 32) && byteValue 1 value
  | .broadcastMapWrite v via ch k value =>
    decide (v < 16) && via.wf && decide (ch < 32) && decide (k < 16) && byteValue 4 value
  | .canRead port frame | .canWrite port frame | .canWriteInit port frame | .canDescribe port frame
  | .canSegment port frame | .canSegmentReq port frame | .canClientAbort port frame | .canFrameReceived port frame =>
    decide (port < 2) && frame.wf
  | .transferTimeout port | .heartbeat port | .busOff port | .busOffRecoveryEnd ⟨port, _⟩ | .attemptStart port =>
    decide (port < 2)
  | .mbRequest port mb | .mbCancel port mb => decide (port < 2) && decide (mb < 32)
  | .canAttemptEnd port report => decide (port < 2) && report.tdcv.all (fun t => decide (t < 0x100))
  | .rxPop port value => decide (port < 2) && word value
  | .recover v via port value => decide (v < 16) && via.wf && decide (port < 2) && byteValue 1 value
  | .cmdDoorbell v tail written =>
    decide (v < 16) && word tail && written.all (fun w => decide (w.1 + w.2.length ≤ 2 ^ 64))
  | .cplDoorbell v head => decide (v < 16) && word head
  | .intPendingClear v value => decide (v < 16) && word value
  | .functionLevelReset fn | .d3hotEntry fn | .d0Return fn => decide (fn ≤ 12)
  | .voiceResetEntry v via target value => decide (v < 16) && via.wf && decide (target < 16) && byteValue 4 value
  | .hostMemoryFailure v failure => decide (v < 16) && decide (1 ≤ failure.cause) && decide (failure.cause ≤ 3)
  | .tunnelWrite v via target value => decide (v < 16) && via.wf && decide (target < 16) && byteValue 1 value
  | .quotaWrite v via target sub value =>
    decide (v < 16) && via.wf && decide (target < 16) && decide (1 ≤ sub) && decide (sub ≤ 5) &&
    byteValue (if sub = 5 then 2 else 4) value
  | .usbDictRead setup | .usbDictDescribe setup | .getAbort setup => setup.wf
  | .usbDictWriteData setup data => setup.wf && decide (data.length ≤ setup.length)
  | .setConfiguration value => decide (value < 0x100)
  | .usbCommandRecord hdr payload | .tensorWrite hdr payload | .mapImportRecord hdr payload =>
    hdr.wf && decide (payload.length = hdr.length)
  | .tensorRead hdr | .usbHeaderError hdr => hdr.wf
  | .csiFrameStart link vc | .csiFrameEnd link vc => decide (link < 6) && decide (vc < 16)
  | .csiLongPacket link pkt => decide (link < 6) && pkt.wf
  | .triggerExpiry c | .extractionRunStart c | .pendingRunStart c | .extractionRunEnd c | .virtualFrameDelivery c =>
    decide (c < 6)
  | .cameraEnable v via c value | .rectEnable v via c value =>
    decide (v < 16) && via.wf && decide (c < 6) && byteValue 1 value
  | .cameraInject v via c tensor => decide (v < 16) && via.wf && decide (c < 6) && word tensor
  | .combOutputSample c bits => decide (c < 16) && decide (bits.length = 16)
  | .spiDrdyEdge m => decide (m < 4)
  | .spiBurstEnd m rx => decide (m < 4) && decide (rx.length ≤ 64)
  | .outputEmerge c | .virtualSampleEntry c => decide (c < 16)
  | .inertialInject v via c tensor | .coefLoad v via c tensor =>
    decide (v < 16) && via.wf && decide (c < 16) && word tensor
  | .coefLoadComplete g => decide (g < 4)
  | .swap v via c value | .syncWrite v via c value => decide (v < 16) && via.wf && decide (c < 16) && byteValue 1 value
  | .channelRestart v via c sub value =>
    decide (v < 16) && via.wf && decide (c < 16) && (sub == 1 || sub == 8 || sub == 9) &&
    byteValue (if sub = 8 then 2 else 1) value
  | .encoderEdge e _ _ => decide (e < 4)
  | .indexEvent e => decide (e < 4)
  | .preset v via e value => decide (v < 16) && via.wf && decide (e < 4) && byteValue 4 value
  | .frameProcessingStart i | .closureDue i | .exportComplete i => decide (i < 8)
  | .clearMap v via value | .exportMap v via value | .detourEntry v via value | .detourClear v via value
  | .breezeEnable v via value | .attnAck v via value | .overflowClear v via value =>
    decide (v < 16) && via.wf && byteValue 1 value
  | .importMap v via tensor | .estimatorInject v via tensor | .evict v via tensor | .release v via tensor
  | .refresh v via tensor | .fwInstall v via tensor => decide (v < 16) && via.wf && word tensor
  | .solverRequestStart lane | .solverResultWrite lane | .factorReevaluation lane => decide (lane < 4)
  | .passageRunStart p | .passageRunComplete p => tensorIdent p
  | .operatorEnd p op => tensorIdent p && decide (op < 0x10000)
  | .create v via descriptor => decide (v < 16) && via.wf && decide (descriptor.length = 64)
  | .tensorMoveComplete tensor | .writeBackComplete tensor | .engineTensorRecreate tensor => tensorIdent tensor
  | .stallMove tensor tier array => tensorIdent tensor && decide (tier ≤ 1) && (decide (array < 16) || array == 0xFF)
  | .relocation tensor tier target => tensorIdent tensor && decide (tier ≤ 2) && decide (target < 2 ^ 64)
  | .tier2EccEvent address _ => decide (address < 2 ^ 64)
  | .laneLock p lane => decide (p < 6) && decide (lane.lane < 4)
  | .laneLockLoss p lanes => decide (p < 6) && lanes.all (fun l => decide (l.lane < 4))
  | .stringLocking p | .lockingTimeout p | .miswiredRetry p | .ackSend p | .replayTimeout p
  | .creditSend p | .noNeighbour p => decide (p < 6)
  | .trainFlitReceived ⟨p, _⟩ | .dataFlitReceived p _ _ | .nack p _ | .replay p _ | .ack p _ | .credit p _
  | .badControlFlit ⟨p, _⟩ => decide (p < 6)
  | .planCheck p flits => decide (p < 6) && flits.all (fun f => decide (f.lane < 4))
  | .rateSwitch p relocked => decide (p < 6) && relocked.all (fun l => decide (l < 4))
  | .laneTestComplete p passed => decide (p < 6) && passed.all (fun l => decide (l.lane < 4))
  | .requiredWidthWrite v via p value => decide (v < 16) && via.wf && decide (p < 6) && byteValue 1 value
  | .rtAlign p train elapsed =>
    decide (p < 6) && byteValue 6 train.sent && byteValue 6 train.echo && byteValue 2 train.turn && byteValue 6 elapsed
  | .packetRoute pkt | .routeFailReceived pkt | .epochPacket pkt | .lullArrive pkt | .lullRelease pkt | .openTunnel pkt
  | .tunnelCommand pkt | .dictReq pkt | .dmaData pkt | .storeData pkt | .camData pkt | .imuSamples pkt
  | .injectList pkt | .injectRecords pkt => pkt.wf
  | .dmaTimeout v id => decide (v < 16) && decide (id < 0x10000)
  | .tx v via data | .nonce v via data => decide (v < 16) && via.wf && decide (data.length ≤ 65535)
  | .tapInstruction _ | .thermalTrip _ | .tripResume _ | .railLinkFailure _ => true
  | .breezeSync levels => decide (levels.length ≤ 4096) && levels.all (fun l => l < 0x10000)
  | .breezeHeader levels => decide (levels.length ≤ 24) && levels.all (fun l => l < 0x10000)
  | .breezeFrameReceived contrast rssi payload crc | .beaconReceived contrast rssi payload crc
  | .breezeAckReceived contrast rssi payload crc =>
    decide (contrast < 0x100) && decide (rssi < 0x100) && decide (payload.length ≤ 2064) && decide (crc.length ≤ 16) &&
    (payload ++ crc).all (fun l => l < 0x10000)
  | .sourceForget source => decide (source < 0x100)
  | .demandTick utilisation => decide (utilisation ≤ 100)
  | .thermalTick sensors => decide (sensors.length = 8)
  | .currentLimitStep icore => decide (icore < 0x10000)
  | .ceilingFloorWrite v via sub value => decide (v < 16) && via.wf && (sub == 2 || sub == 3) && byteValue 1 value
  | .vrAlertN statusWord => decide (statusWord < 0x10000)
  | .errorDetected unit check address =>
    unitExists unit && decide (1 ≤ check) && decide (check ≤ 10) && decide (address < 2 ^ 64)
  | .faultedEntry cause => decide (1 ≤ cause) && decide (cause ≤ 10)
  | .receiveError port amount => decide (port < 2) && (amount == 1 || amount == 8)
  | .vfEnableSet numVfs => decide (numVfs ≤ 12)
  | .holdoffExpiry v vector => decide (v < 16) && decide (vector < 0x100)
end Sys2Proof
end

