-- ==== Sys2Proof/Tests/Slice0.lean ====
section
/-! SUPPORT. Tests: worked examples of the manual, an ill-formed term for each check of well-formedness, and, for every
statement with hypotheses, states and operands that meet them. -/

namespace Sys2Proof.Machine

set_option maxRecDepth 100000
set_option linter.unusedVariables false

/-! ### States to test on -/

def onWith (e : Epoch) : State := { chip := { board := { porstLow := false }, engine := .run, epoch := e } }
def onChip (f : Chip → Chip) : State := { chip := f { board := { porstLow := false }, engine := .run } }
def State.chipMap (s : State) (f : Chip → Chip) : State := { s with chip := f s.chip }
def withEntry (s : State) (k v : Nat) : State := { s with chip := s.chip.dset k v }
def base (e : EngineState) (f : Chip → Chip := id) : State := { chip := f { board := { porstLow := false }, engine := e } }
def tcon (bs : List Byte) (size : Nat := bs.length) (f : Chip → Chip := id) : State := base .ready (fun c => let d := (f c).setTensor 5 { owner := 0, bill := 0, size }; { d with tier1 := d.tier1.writeBytes 0 bs })
def benchy : Chip → Chip := fun c => { c with straps := { mode := .bench } }
def meshy : Chip → Chip := fun c => { c with straps := { mode := .mesh } }
def plainEst : Chip → Chip := fun c => (c.dset (entEst 0 0x3030 10) 0xFFFFFFFF).dset (entEst 0 0x3030 11) 0xFFFFFFFF
def estOk : Chip → Chip := fun c => (plainEst ((((c.dset (entEst 0 0x3000 5) 0).dset (entEst 0 0x3000 7) 0).dset (entEst 0 0x3000 8) 0))).dset (inKey 0 1) 1
def mapBytes : List Byte := (base .ready plainEst).chip.exportNow 0
def listBytes : List Byte := leBytes 4 0x46544C53 ++ List.replicate 60 0
def coefTensor : List Byte := leBytes 4 0x46454F43 ++ List.replicate 16 0 ++ [1, 0, 1, 0, 28, 223, 68, 33] ++ List.replicate 8 0
def adm (op : Nat) (b : List Byte) (f : Chip → Chip := id) : State := onChip (fun c => (f c).setVoice 1 { state := .active, ringEnable := true, admitted := some ⟨7, leBytes 8 op ++ b, 0⟩ })
def vox (x : Voice) : State := onChip (fun c => c.setVoice 0 x)
def usbOn (f : Chip → Chip := id) : State := onChip (fun c => f { c with usb := { attached := true, configured := true, ringOn := true } })
def setupOf (rt rq v i l : Nat) : UsbSetup := ⟨rt, rq, v, i, l⟩
def camOnState (f : Chip → Chip := id) : State := onChip (fun c => f (c.dset (camKey 0 1) 1))
def inOnState (f : Chip → Chip := id) : State := onChip (fun c => f (c.dset (inKey 0 1) 1))
def capNow : Capture := ⟨5, 7, false⟩
def estWith (e : Estimator) : State := onChip (fun c => c.setEst 0 e)
def runWith (r : PassRun) (f : Chip → Chip := id) : State := onChip (fun c => f (c.setPassage 5 { voice := 1, gen := 1, image := [], running := some r }))
def laneWith (r : SolveReq) (f : Chip → Chip := id) : State := onChip (fun c => f (c.setLane 0 { running := some r }))
def tens (x : Tensor) (ms : List Move) (f : Chip → Chip := id) : State := onChip (fun c => f { c.setTensor 5 x with moves := ms })
def admC (op : Nat) (b : List Byte) (f : Chip → Chip := id) : State := onChip (fun c => (f c).setVoice 1 { state := .active, ringEnable := true, admitted := some ⟨7, leBytes 8 op ++ b, 0⟩ })
def anOp : List Byte := List.replicate 12 0 ++ leBytes 4 1 ++ List.replicate 24 0 ++ leBytes 4 0x30 ++ List.replicate 68 0
def kk : Completion := { kind := .command, opcode := 4 }
def est0 : EstFrame := { frame := 3, stamp := 0, start := 0 }
def strAt (st : Nat) (x : StringPort) (f : Chip → Chip := id) : State := onChip (fun c => f (((({ c with straps := { mode := .mesh }, board := { c.board with rclkIn := true } }).dset (strKey 0 4) st).dset (strKey 0 1) 1).setStr 0 x))
def farEnd (port : Nat) (ok : Bool) : Ident := ⟨0, port, 0, 0, 15, 0, 0, 9, ok⟩
def meshOn (f : Chip → Chip := id) : State := onChip (fun c => f ((({ c with straps := { mode := .mesh } }.dset (ent 0x4810 1) 1).dset (ent 0x4810 2) 3)))
def pk (ty cls tag arg : Nat) (d : List Byte) : Packet := { dest := 3, src := 9, slice := 0xFF, class_ := cls, ptype := ty, hops := 0, exit := 0xFF, entry := 1, tag, arg, payload := d, input := 6 }
def bz (role st : Nat) (b : Breeze) : State := onChip (fun c => ((({ c with breeze := b }).dset (bzKey 1) 1).dset (bzKey 2) role).dset (bzKey 20) st)
def air (a len : Nat) (p : List Byte) : List Byte := whiten (0x100 + dfltOf (bzKey 4)) (p ++ leBytes 2 (crc16 (headerBytes (a % 8) (a / 8) len ++ p)))
def um (d : Nat) : BreezeMsg := { dest := d, kind := 0, info := 0, body := [1], pos := 0, released := true }
/-- Blocks of the first flit on a lane: a control flit, a TRAIN flit, and a data flit of SEQ `seq`. -/
def lineOf (header : BitVec 2) (body : List Byte) : LaneBlock := ⟨header, (scramble 0 (bodyBits body)).1⟩
def ctlBody (code : Nat) (fields : List Nat) : List Byte := flitBody [] (controlFields code fields) code
def trainBody (lane port : Nat) : List Byte := flitBody [] ([0, BitVec.ofNat 8 lane, 15, 0, 0, 0x80, BitVec.ofNat 8 port] ++ List.replicate 21 0) 1
def dataBody (seq pos : Nat) : List Byte := flitBody (seqBytes seq) [] pos
def upAt (x : StringPort) (f : Chip → Chip := id) : State := strAt 6 { x with active := [0] } f
/-- The receiver's levels of bits on air, a sync word after its preamble, and receptions of it, of a header and of an ACK. -/
def levelsOf (bs : List Byte) : List Nat := bs.flatMap (fun b => (List.range 8).map (fun k => if bit b.toNat k then 100 else 0))
def syncLevels : List Nat := levelsOf ([0x55, 0x55] ++ leBytes 4 (dfltOf (bzKey 8)))
def syncEnd : Nat := 26000 + 125 * dfltOf (bzKey 7)
def rxSync : BreezeRx := { sum := 800, swing := 800, levels := levelsOf (leBytes 4 (dfltOf (bzKey 8))), marks := [(32, 0)], start := 0, ended := 0, slot := 0, ack := false }
def airHeader (a len : Nat) : List Byte := let h := headerBytes (a % 8) (a / 8) len; h ++ leBytes 1 (crc8 h)
def rxHead (a len : Nat) : BreezeRx := { rxSync with levels := rxSync.levels ++ levelsOf (airHeader a len) }
def bzAt (now : Nat) (role st : Nat) (b : Breeze) : State := (bz role st b).chipMap (fun c => { c with now })
def gov (e : EngineState) (g : Governor) (f : Chip → Chip := id) : State := onChip (fun c => f { c with engine := e, gov := g })

/-! ### Worked examples -/

/-- Chapter 2, Example: the periodic cue's next target after 1200:812+0x8000. -/
theorem test_positionCarries : Pos.add 834 ⟨1200, 812, 0x8000⟩ ⟨0, 62, 0x8000⟩ = ⟨1201, 41, 0⟩ := by decide

/-- Chapter 3, Example: a write of 3 to BAR2_CTRL is rejected as RESERVED_BITS. -/
theorem test_reservedBitLatches :
    ((onChip id).chip.regWrite 0 0x10030 3 15).ctl.err = { bits := 8, offset := 0x10030, data := 3, count := 1 } := by decide

/-- Chapter 3, Example: the read of 0x0200_0000 that follows adds UNMAPPED_READ and OVERFLOW. -/
theorem test_secondErrorOverflows :
    ((onChip (fun c => { c with ctl := { c.ctl with err := { bits := 8, offset := 0x10030, data := 3, count := 1 } } })).chip.regRead
      0 0x2000000).ctl.err = { bits := 0x80000009, offset := 0x10030, data := 3, count := 2 } := by decide

/-- Chapter 3, Example: clearing every bit clears ERR_COUNT. -/
theorem test_latchClears :
    (({ bits := 0x80000009, offset := 0x10030, data := 3, count := 2 } : ErrLatch).ack 0x80000009).count = 0 := by decide

/-- Chapter 11: 500.0 becomes 0x7E in FP8 E4M3, and saturates. -/
theorem test_e4m3Saturates : (convertOut 3 0x43FA0000).1 = 0x7E ∧ (convertOut 3 0x43FA0000).2.1 = true := by decide

/-- Chapter 12, Example: the LIMITs of V3, V5, V6 and V0 once bank 30 has retired beside 17 and 40. -/
theorem test_limitsShrinkWithCapacity :
    let c := ((((onChip (fun c => { c with faults := { c.faults with
      retired := [.tier1Bank 17, .tier1Bank 40, .tier1Bank 30] } })).chip.dset (ent (vIdx 3 1) 2) 16384).dset
      (ent (vIdx 5 1) 2) 8192).dset (ent (vIdx 6 1) 2) 22528).reshare 1
    [3, 5, 6, 0].map (fun v => c.limitBytes v 1 / 1024) = [16024, 8012, 22036, 8] := by decide

/-- Chapter 13, Example: the announcement of the crossed cable implies 0x008A at (8, 1, 2). -/
theorem test_crossedCableImplies : impliedBy 0 ⟨0x807A, 1, 0, 0, 0, 0, 0, 0, true⟩ = some 0x8A := by decide

/-- Chapter 13, Example: at (10, 2, 1) the flow to (14, 0, 3) takes XP without a detour. -/
theorem test_dimensionOrderTakesXFirst : dimensionPort 0xA9 0xE3 = 1 ∧ hopsBetween 0x89 0xE3 = 10 := by decide

/-- Chapter 14, Example: the header of member 5's DATA_ACK of 44 bytes goes on air as 2A 2C E8. -/
theorem test_breezeHeader : (headerBytes 2 5 44, crc8 (headerBytes 2 5 44)) = ([0x2A, 0x2C], 0xE8) := by decide

/-- R700, R701 and chapter 3: the check values of CRC-8, CRC-16 and CRC-32. -/
theorem test_crcCheckValues :
    let x := asciiBytes "123456789"
    (crc8 x, crc16 x, crc32 x) = (0xF4, 0x29B1, 0xCBF43926) := by decide

/-- R642: the check value of the CRC with polynomial 0x864CFB and start 0xB704CE. -/
theorem test_crc24CheckValue : crc24 (asciiBytes "123456789") = 0x21CF02 := by decide

/-- R641: a body comes back through the descrambler, and both ends then hold the same 58 bits. -/
theorem test_scramblerRoundTrip :
    let h : BitVec 58 := 0x2AAAAAAAAAAAAAA
    let body := bodyBits (flitBody (seqBytes 7) [1, 2, 3] 3)
    descramble h (scramble h body).1 = (body, (scramble h body).2) := by decide +kernel

/-- R641: bit k on the line is the data bit with the line bits 39 and 58 places before it. -/
theorem test_scramblerTaps : (scramble 0 1).1 =
    BitVec.ofNat 256 ([0, 39, 58, 78, 116, 117, 136, 155, 156, 174, 195, 214, 232, 234].map (2 ^ ·)).sum := by decide +kernel

/-- R665: a packet of a head and two more flits comes back from its flits. -/
theorem test_packetFlitsRoundTrip :
    let k : Packet := { pk 0x10 1 2 5 (List.replicate 40 7) with input := 2 }
    (packetFlits k).map (·.1) = [1, 0, 2] ∧ packetOfFlits 2 (packetFlits k) = some k := by decide

/-- R705: two wrong bits in the sync word are one too many for SYNC_ERRORS 1, and one is not. -/
theorem test_syncErrors :
    let c := (bz 1 1 {}).chip.dset (bzKey 9) 1
    let word := dfltOf (bzKey 8)
    (c.syncAt 800 (levelsOf (leBytes 4 (word ^^^ 1))) 0, c.syncAt 800 (levelsOf (leBytes 4 (word ^^^ 3))) 0) = (some 0, none) := by decide

/-- R860: IDCODE. -/
theorem test_tapReadsIdcode : (Tap.load .idcode false).captured = some 0x10480C5B := by decide

/-- R156: of two writes of one update the higher voice's value remains, whichever came first. -/
theorem test_higherVoiceWins :
    let c := (base .config).chip
    let w := fun (v n : Nat) => ({ voice := v, via := ⟨1, 0⟩, idx := 0x2D00, sub := 2, data := [BitVec.ofNat 8 n] } : DictReq)
    let after := fun (v : Nat) => match exec (.dictWrite v ⟨1, 0⟩ 0x2D00 2 [2])
        { chip := c.submit (w 5 1), round := { base := c, ops := [.write true (w 5 1)] } } with
      | .next t => (t.chip.cue 256).action
      | _ => 0
    (after 4, after 6) = (1, 2) := by decide

/-! ### Ill-formed terms -/

theorem test_illFormed_1 :
    [.powerOnReset 4 1,
     .powerOnReset 1 64,
     .warmResetReqWrite 4294967296,
     .selftest [.core 9],
     .registerWrite 13 4 1 1,
     .registerWrite 1 6 1 1,
     .registerWrite 1 0x4000000 1 1,
     .registerWrite 1 4 4294967296 1,
     .registerWrite 1 4 1 16,
     .unmappedRead 13 4,
     .unmappedRead 1 6,
     .unmappedRead 1 0x4000000,
     .bar2Write 67108864 [],
     .bar2Write 0x3FFFFFF [none, none],
     .bar2Read 67108864 1,
     .bar2Read 0x3FFFFFF 2,
     .lineEdge 6 1,
     .lineEdge 1 4294967296,
     .fractionUpdate 0,
     .frameStart 6,
     .epochFrameEnd 6,
     .reverseCount 15,
     .reverseCount 20,
     .sourceWrite 16 ⟨1, 0⟩ 1 1,
     .sourceWrite 1 ⟨0, 0⟩ 1 1,
     .sourceWrite 1 ⟨6, 0⟩ 1 1,
     .sourceWrite 1 ⟨1, 0x10000⟩ 1 1,
     .sourceWrite 1 ⟨1, 0⟩ 7 1,
     .sourceWrite 1 ⟨1, 0⟩ 1 1099511627776,
     .cueArmWrite 16 ⟨1, 0⟩ 256,
     .cueArmWrite 1 ⟨0, 0⟩ 256,
     .cueArmWrite 1 ⟨1, 0⟩ 255].all (fun (i : Instr) => !i.wf) = true := by
  decide

theorem test_illFormed_2 :
    [.cueArmWrite 1 ⟨1, 0⟩ 1024,
     .trigPulseEnd 6,
     .dictRead 16 1 1,
     .dictRead 1 65536 1,
     .dictRead 1 1 256,
     .dictWrite 16 ⟨1, 0⟩ 1 1 [],
     .dictWrite 1 ⟨0, 0⟩ 1 1 [],
     .dictWrite 1 ⟨1, 0⟩ 65536 1 [],
     .dictWrite 1 ⟨1, 0⟩ 1 256 [],
     .deferredWriteCommit 16,
     .stateRequestReady 16 ⟨1, 0⟩,
     .stateRequestReady 1 ⟨0, 0⟩,
     .stateRequestRun 16 ⟨1, 0⟩ 4,
     .stateRequestRun 1 ⟨0, 0⟩ 4,
     .stateRequestRun 1 ⟨1, 0⟩ 7,
     .behaviourLevelRequest 16 ⟨1, 0⟩ 1,
     .behaviourLevelRequest 1 ⟨0, 0⟩ 1,
     .behaviourLevelRequest 1 ⟨1, 0⟩ 256,
     .store 16 ⟨1, 0⟩ 1,
     .store 1 ⟨0, 0⟩ 1,
     .store 1 ⟨1, 0⟩ 4294967296,
     .broadcastEnable 16 ⟨1, 0⟩ 1 1,
     .broadcastEnable 1 ⟨0, 0⟩ 1 1,
     .broadcastEnable 1 ⟨1, 0⟩ 32 1,
     .broadcastEnable 1 ⟨1, 0⟩ 1 256,
     .broadcastMapWrite 16 ⟨1, 0⟩ 1 1 1,
     .broadcastMapWrite 1 ⟨0, 0⟩ 1 1 1,
     .broadcastMapWrite 1 ⟨1, 0⟩ 32 1 1,
     .broadcastMapWrite 1 ⟨1, 0⟩ 1 16 1,
     .broadcastMapWrite 1 ⟨1, 0⟩ 1 1 4294967296,
     .canRead 2 ⟨false, 1, false, false, false, false, []⟩,
     .canRead 1 ⟨false, 0x800, false, false, false, false, []⟩].all (fun (i : Instr) => !i.wf) = true := by
  decide

theorem test_illFormed_3 :
    [.canRead 1 ⟨false, 1, true, false, false, false, List.replicate 9 0⟩,
     .canRead 1 ⟨false, 1, false, false, false, true, [0]⟩,
     .canRead 1 ⟨false, 1, false, true, false, false, []⟩,
     .transferTimeout 2,
     .mbRequest 2 1,
     .mbRequest 1 32,
     .canAttemptEnd 2 ⟨.lost, none, 0⟩,
     .canAttemptEnd 1 ⟨.success, some 0x100, 0⟩,
     .rxPop 2 1,
     .rxPop 1 4294967296,
     .recover 16 ⟨1, 0⟩ 1 1,
     .recover 1 ⟨0, 0⟩ 1 1,
     .recover 1 ⟨1, 0⟩ 2 1,
     .recover 1 ⟨1, 0⟩ 1 256,
     .cmdDoorbell 16 1 [],
     .cmdDoorbell 1 4294967296 [],
     .cmdDoorbell 1 1 [(0x10000000000000000, [0])],
     .cplDoorbell 16 1,
     .cplDoorbell 1 4294967296,
     .intPendingClear 16 1,
     .intPendingClear 1 4294967296,
     .functionLevelReset 13,
     .voiceResetEntry 16 ⟨1, 0⟩ 1 1,
     .voiceResetEntry 1 ⟨0, 0⟩ 1 1,
     .voiceResetEntry 1 ⟨1, 0⟩ 16 1,
     .voiceResetEntry 1 ⟨1, 0⟩ 1 4294967296,
     .hostMemoryFailure 16 ⟨1, .poisoned⟩,
     .hostMemoryFailure 1 ⟨0, .poisoned⟩,
     .hostMemoryFailure 1 ⟨4, .poisoned⟩,
     .tunnelWrite 16 ⟨1, 0⟩ 1 1,
     .tunnelWrite 1 ⟨0, 0⟩ 1 1,
     .tunnelWrite 1 ⟨1, 0⟩ 16 1].all (fun (i : Instr) => !i.wf) = true := by
  decide

theorem test_illFormed_4 :
    [.tunnelWrite 1 ⟨1, 0⟩ 1 256,
     .quotaWrite 16 ⟨1, 0⟩ 1 1 1,
     .quotaWrite 1 ⟨0, 0⟩ 1 1 1,
     .quotaWrite 1 ⟨1, 0⟩ 16 1 1,
     .quotaWrite 1 ⟨1, 0⟩ 1 0 1,
     .quotaWrite 1 ⟨1, 0⟩ 1 6 1,
     .quotaWrite 1 ⟨1, 0⟩ 1 1 1099511627776,
     .usbDictRead ⟨0x100, 0, 0, 0, 0⟩,
     .usbDictRead ⟨0, 0x100, 0, 0, 0⟩,
     .usbDictRead ⟨0, 0, 0x10000, 0, 0⟩,
     .usbDictRead ⟨0, 0, 0, 0x10000, 0⟩,
     .usbDictRead ⟨0, 0, 0, 0, 0x10000⟩,
     .usbDictWriteData ⟨0x100, 0, 0, 0, 0⟩ [],
     .usbDictWriteData ⟨1, 1, 1, 1, 1⟩ [0, 0],
     .setConfiguration 256,
     .usbCommandRecord ⟨0x100, 0, 0, 0, 0, 0⟩ [],
     .usbCommandRecord ⟨0, 0x100, 0, 0, 0, 0⟩ [],
     .usbCommandRecord ⟨0, 0, 0x10000, 0, 0, 0⟩ [],
     .usbCommandRecord ⟨0, 0, 0, 0x100000000, 0, 0⟩ [],
     .usbCommandRecord ⟨0, 0, 0, 0, 0x100000000, 0⟩ [],
     .usbCommandRecord ⟨0, 0, 0, 0, 0, 0x100000000⟩ [],
     .usbCommandRecord ⟨1, 0, 0, 0, 0, 0⟩ [0, 0],
     .tensorRead ⟨0x100, 0, 0, 0, 0, 0⟩,
     .csiFrameStart 6 1,
     .csiFrameStart 1 16,
     .csiLongPacket 6 ⟨0, 0, [], false, false, true⟩,
     .csiLongPacket 1 ⟨16, 0, [], false, false, true⟩,
     .csiLongPacket 1 ⟨0, 64, [], false, false, true⟩,
     .triggerExpiry 6,
     .cameraEnable 16 ⟨1, 0⟩ 1 1,
     .cameraEnable 1 ⟨0, 0⟩ 1 1,
     .cameraEnable 1 ⟨1, 0⟩ 6 1].all (fun (i : Instr) => !i.wf) = true := by
  decide

theorem test_illFormed_5 :
    [.cameraEnable 1 ⟨1, 0⟩ 1 256,
     .cameraInject 16 ⟨1, 0⟩ 1 1,
     .cameraInject 1 ⟨0, 0⟩ 1 1,
     .cameraInject 1 ⟨1, 0⟩ 6 1,
     .cameraInject 1 ⟨1, 0⟩ 1 4294967296,
     .combOutputSample 16 (List.replicate 16 false),
     .combOutputSample 1 [],
     .spiDrdyEdge 4,
     .spiBurstEnd 4 [],
     .spiBurstEnd 1 (List.replicate 65 0),
     .outputEmerge 16,
     .inertialInject 16 ⟨1, 0⟩ 1 1,
     .inertialInject 1 ⟨0, 0⟩ 1 1,
     .inertialInject 1 ⟨1, 0⟩ 16 1,
     .inertialInject 1 ⟨1, 0⟩ 1 4294967296,
     .coefLoadComplete 4,
     .swap 16 ⟨1, 0⟩ 1 1,
     .swap 1 ⟨0, 0⟩ 1 1,
     .swap 1 ⟨1, 0⟩ 16 1,
     .swap 1 ⟨1, 0⟩ 1 256,
     .channelRestart 16 ⟨1, 0⟩ 1 1 1,
     .channelRestart 1 ⟨0, 0⟩ 1 1 1,
     .channelRestart 1 ⟨1, 0⟩ 16 1 1,
     .channelRestart 1 ⟨1, 0⟩ 1 7 1,
     .channelRestart 1 ⟨1, 0⟩ 1 1 1099511627776,
     .encoderEdge 4 false false,
     .indexEvent 4,
     .preset 16 ⟨1, 0⟩ 1 1,
     .preset 1 ⟨0, 0⟩ 1 1,
     .preset 1 ⟨1, 0⟩ 4 1,
     .preset 1 ⟨1, 0⟩ 1 4294967296,
     .frameProcessingStart 8].all (fun (i : Instr) => !i.wf) = true := by
  decide

theorem test_illFormed_6 :
    [.clearMap 16 ⟨1, 0⟩ 1,
     .clearMap 1 ⟨0, 0⟩ 1,
     .clearMap 1 ⟨1, 0⟩ 256,
     .importMap 16 ⟨1, 0⟩ 1,
     .importMap 1 ⟨0, 0⟩ 1,
     .importMap 1 ⟨1, 0⟩ 4294967296,
     .solverRequestStart 4,
     .passageRunStart 16777216,
     .operatorEnd 16777216 1,
     .operatorEnd 1 65536,
     .create 16 ⟨1, 0⟩ (List.replicate 64 0),
     .create 1 ⟨0, 0⟩ (List.replicate 64 0),
     .create 1 ⟨1, 0⟩ (List.replicate 65 0),
     .tensorMoveComplete 16777216,
     .stallMove 16777216 1 1,
     .stallMove 1 2 1,
     .stallMove 1 1 16,
     .relocation 16777216 1 1,
     .relocation 1 3 1,
     .relocation 1 1 18446744073709551616,
     .tier2EccEvent 18446744073709551616 false,
     .laneLock 6 ⟨1, []⟩,
     .laneLock 1 ⟨4, []⟩,
     .laneLockLoss 6 [],
     .laneLockLoss 1 [⟨4, []⟩],
     .stringLocking 6,
     .planCheck 6 [],
     .planCheck 1 [⟨4, 0, ⟨1, 0⟩⟩]].all (fun (i : Instr) => !i.wf) = true := by
  decide

theorem test_illFormed_7 :
    [.rateSwitch 6 [],
     .rateSwitch 1 [4],
     .laneTestComplete 6 [],
     .laneTestComplete 1 [⟨4, 0⟩],
     .requiredWidthWrite 16 ⟨1, 0⟩ 1 1,
     .requiredWidthWrite 1 ⟨0, 0⟩ 1 1,
     .requiredWidthWrite 1 ⟨1, 0⟩ 6 1,
     .requiredWidthWrite 1 ⟨1, 0⟩ 1 256,
     .rtAlign 6 ⟨1, 1, 1⟩ 1,
     .rtAlign 1 ⟨281474976710656, 1, 1⟩ 1,
     .rtAlign 1 ⟨1, 281474976710656, 1⟩ 1,
     .rtAlign 1 ⟨1, 1, 65536⟩ 1,
     .rtAlign 1 ⟨1, 1, 1⟩ 281474976710656,
     .dataFlitReceived 6 1 0,
     .packetRoute ⟨0x10000, 0, 0, 0, 0, 0, 0, 0, 0, 0, [], 0⟩,
     .packetRoute ⟨0, 0x10000, 0, 0, 0, 0, 0, 0, 0, 0, [], 0⟩,
     .packetRoute ⟨0, 0, 0x100, 0, 0, 0, 0, 0, 0, 0, [], 0⟩,
     .packetRoute ⟨0, 0, 0, 0x100, 0, 0, 0, 0, 0, 0, [], 0⟩,
     .packetRoute ⟨0, 0, 0, 0, 0x100, 0, 0, 0, 0, 0, [], 0⟩,
     .packetRoute ⟨0, 0, 0, 0, 0, 0x100, 0, 0, 0, 0, [], 0⟩,
     .packetRoute ⟨0, 0, 0, 0, 0, 0, 0x100, 0, 0, 0, [], 0⟩,
     .packetRoute ⟨0, 0, 0, 0, 0, 0, 0, 0x100, 0, 0, [], 0⟩,
     .packetRoute ⟨0, 0, 0, 0, 0, 0, 0, 0, 0x10000, 0, [], 0⟩,
     .packetRoute ⟨0, 0, 0, 0, 0, 0, 0, 0, 0, 0x100000000, [], 0⟩,
     .packetRoute ⟨0, 0, 0, 0, 0, 0, 0, 0, 0, 0, [], 7⟩,
     .dmaTimeout 16 1].all (fun (i : Instr) => !i.wf) = true := by
  decide

theorem test_illFormed_8 :
    [.dmaTimeout 1 65536,
     .tx 16 ⟨1, 0⟩ [],
     .tx 1 ⟨0, 0⟩ [],
     .breezeSync [0x10000],
     .breezeHeader (List.replicate 25 0),
     .breezeHeader [0x10000],
     .breezeFrameReceived 256 1 [] [],
     .breezeFrameReceived 1 256 [] [],
     .breezeFrameReceived 1 1 [0x10000] [],
     .sourceForget 256,
     .demandTick 101,
     .thermalTick (List.replicate 9 0),
     .currentLimitStep 65536,
     .ceilingFloorWrite 16 ⟨1, 0⟩ 2 1,
     .ceilingFloorWrite 1 ⟨0, 0⟩ 2 1,
     .ceilingFloorWrite 1 ⟨1, 0⟩ 7 1,
     .ceilingFloorWrite 1 ⟨1, 0⟩ 2 256,
     .vrAlertN 65536,
     .errorDetected (.core 9) 1 1,
     .errorDetected (.core 0) 0 1,
     .errorDetected (.core 0) 11 1,
     .errorDetected (.core 0) 1 18446744073709551616,
     .faultedEntry 0,
     .faultedEntry 11,
     .receiveError 2 1,
     .receiveError 1 7,
     .vfEnableSet 13,
     .holdoffExpiry 16 1,
     .holdoffExpiry 1 256].all (fun (i : Instr) => !i.wf) = true := by
  decide

theorem test_illFormed_long1 : Instr.wf (.dictWrite 1 ⟨1, 0⟩ 1 1 (List.replicate 65536 0)) = false := by
  simp only [Instr.wf, List.length_replicate]; decide

theorem test_illFormed_long2 : Instr.wf (.packetRoute ⟨0, 0, 0, 0, 0, 0, 0, 0, 0, 0, List.replicate 2049 0, 0⟩) = false := by
  simp only [Instr.wf, Packet.wf, List.length_replicate]; decide

theorem test_illFormed_long3 : Instr.wf (.tx 1 ⟨1, 0⟩ (List.replicate 65536 0)) = false := by
  simp only [Instr.wf, List.length_replicate]; decide

theorem test_illFormed_long5 : Instr.wf (.breezeSync (List.replicate 4097 0)) = false := by
  simp only [Instr.wf, List.length_replicate]; decide

theorem test_illFormed_long4 : Instr.wf (.breezeFrameReceived 1 1 (List.replicate 2065 0) []) = false := by
  simp only [Instr.wf, List.length_replicate]; decide

/-! ### Every statement with hypotheses has states and operands that meet them -/

theorem test_commandsLeaveTheQueue_hypotheses :
    exec .cueFire (onChip id) = .next (onChip id) := by
  rfl

theorem test_heldEngineKeepsEverything_hypotheses :
    State.reset.chip.off = true ∧ Instr.cueFire.coldReset = false ∧ exec .cueFire State.reset = .next State.reset := by
  exact ⟨rfl, rfl, rfl⟩

theorem test_strapsAreSampledOnlyAtColdResets_hypotheses :
    State.reset.chip.board.refclk = true ∧ (match exec (.powerOnReset 0 5) State.reset with | .next t => t.chip.straps == strapsOf 0 5 | _ => false) = true := by
  decide

theorem test_retiredUnitsStayRetired_hypotheses :
    Instr.warmrstNFall.coldReset = false ∧ (let s := onChip (fun c => { c with faults := { c.faults with retired := [.meshRouter] } }); exec .cueFire s = .next s ∧ UnitName.meshRouter ∈ s.chip.faults.retired) := by
  exact ⟨rfl, rfl, by decide⟩

theorem test_faultedIsLeftOnlyAtAColdReset_hypotheses :
    let s := onChip (fun c => { c with engine := .faulted, faults := { c.faults with faultN := true } }); s.on = true ∧ s.chip.engine = .faulted ∧ Instr.warmrstNFall.coldReset = false ∧ exec .warmrstNFall s = .next s := by
  exact ⟨rfl, rfl, rfl, rfl⟩

theorem test_everyStepKeepsTheInvariant_hypotheses :
    State.reset.inv = true ∧ step State.reset = .next State.reset := by
  exact ⟨by decide, rfl⟩

theorem test_laterIsHalfTheCircle_max_hypotheses :
    laterMod (2 ^ 16) 32767 0 = true ∧ laterMod (2 ^ 16) 1 0 = true := by
  decide

theorem test_laterIsHalfTheCircle_half_hypotheses :
    laterMod (2 ^ 16) 32768 0 = false ∧ laterMod (2 ^ 16) 0 0 = false := by
  decide

theorem test_laterIsHalfTheCircle_wrap_hypotheses :
    laterMod (2 ^ 16) 0 65535 = true := by
  decide

theorem test_positionsAddAndSubtract_carry_hypotheses :
    Pos.add 2 ⟨m32 - 1, 1, 0xFFFF⟩ ⟨0, 0, 1⟩ = ⟨0, 0, 0⟩ := by
  decide

theorem test_positionsAddAndSubtract_borrow_hypotheses :
    Pos.sub 2 ⟨0, 0, 0⟩ ⟨0, 0, 1⟩ = ⟨m32 - 1, 1, 0xFFFF⟩ := by
  decide

theorem test_frameStartSetsThePosition_hypotheses :
    ({ engine := .run, straps := { mode := .mesh }, epoch := { active := some 0x30, st := .running, pos := ⟨m32 - 1, 3, 9⟩ } } : Chip).takesFrameStart 0x30 = true := by
  decide

theorem test_stoppingReleasesTheTriggerPins_hypotheses :
    (onChip (fun c => { c with epoch := { c.epoch with st := .running }, trig := [(2, { asserted := true, activeHigh := true })] })).chip.epoch.st ≠ .stopped := by
  decide

theorem test_unallocatedIndexAborts_hypotheses :
    let s := onChip id; s.on = true ∧ s.chip.silent = false ∧ indexAllocated 0x0FFF = false ∧ indexAllocated 0xFFFF = false ∧ s.turn 0 ⟨1, 0⟩ = true ∧ goodVia 0 ⟨1, 0⟩ = true := by
  decide

theorem test_storeAndRestoreTakeOnlyTheirKeys_run_hypotheses :
    let s := onChip id; s.on = true ∧ s.turn 0 ⟨1, 0⟩ = true ∧ goodVia 0 ⟨1, 0⟩ = true ∧ (0 : Nat) < m32 ∧ s.chip.engine = .run ∧ (0 : Nat) ≠ 0x53544F52 := by
  decide

theorem test_storeAndRestoreTakeOnlyTheirKeys_config_hypotheses :
    let s := onChip (fun c => { c with engine := .config }); s.on = true ∧ s.turn 0 ⟨1, 0⟩ = true ∧ goodVia 0 ⟨1, 0⟩ = true ∧ s.chip.engine = .config ∧ (0x53544F52 : Nat) ≠ 0x44454641 := by
  decide

theorem test_journalHoldsTheLastEight_hypotheses :
    let s := onChip id; s.live = true ∧ (15 : Nat) < 16 ∧ (7 : Nat) < 8 := by
  decide

theorem test_ownedEntriesAreV0sAlone_hypotheses :
    let s := onChip id; s.on = true ∧ s.chip.silent = false ∧ (1 : Nat) ≠ 0 ∧ (1 : Nat) < 16 ∧ (findEntry (vIdx 1 1) 1).map (fun e => bit (s.chip.accessOf (vIdx 1 1) 1 e) 3) = some true ∧ s.turn 1 ⟨1, 0⟩ = true ∧ goodVia 1 ⟨1, 0⟩ = true := by
  decide

theorem test_accessErrorsLatch_first_hypotheses :
    ¬(0x1000000 ≤ 0x10000 ∧ 0x10000 < 0x1010000) ∧ State.reset.chip.ctl.err.bits = 0 := by
  decide

theorem test_accessErrorsLatch_later_hypotheses :
    let c := (onChip (fun c => { c with ctl := { c.ctl with err := { bits := 1, count := 0xFFFF } } })).chip; ¬(0x1000000 ≤ 0x1010000 ∧ 0x1010000 < 0x1010000) ∧ c.ctl.err.bits ≠ 0 ∧ (c.reject 0 0x1010000 7 2).ctl.err.count = 0xFFFF := by
  decide

theorem test_accessErrorsLatch_clear_hypotheses :
    (({ bits := 5, count := 3 } : ErrLatch).ack 5).bits = 0 := by
  decide

theorem test_disabledBar2ReadsZeroAndDropsWrites_hypotheses :
    let s := onChip (fun c => { c with pcie := { c.pcie with trained := true } }); s.on = true ∧ s.chip.answers 0 = true ∧ s.chip.gov.p7 = false ∧ s.chip.ctl.bar2Enable = false ∧ 0x3FFFFFF + 1 ≤ 0x4000000 := by
  decide

theorem test_bar2ReadsBackWhatIsWritten_hypotheses :
    let c := (onChip (fun c => { c with ctl := { c.ctl with bar2Enable := true } })).chip; c.answers 0 = true ∧ c.gov.p7 = false ∧ c.ctl.bar2Enable = true ∧ 0x2FFFFFF + [(1 : Byte)].length ≤ 0x3000000 ∧ c.deadBank 0x2FFFFFF = false ∧ c.bar2Busy 0x2FFFFFF = false := by
  decide

theorem test_doorbellBeyondTheRingIsRejected_fits_hypotheses :
    let s := onChip id; s.on = true ∧ s.chip.ownsBlock 0 = true ∧ ((0 : Int) - (s.chip.voice 0).cmdHead) % 0x10000 ≤ (2 ^ (s.chip.voice 0).cmdLog2 : Nat) := by
  decide

theorem test_doorbellBeyondTheRingIsRejected_beyond_hypotheses :
    let s := onChip (fun c => c.setVoice 0 { c.voice 0 with cmdHead := 1 }); s.on = true ∧ s.chip.ownsBlock 0 = true ∧ ((2 ^ (s.chip.voice 0).cmdLog2 : Nat) < ((0 : Int) - (s.chip.voice 0).cmdHead) % 0x10000) := by
  decide

theorem test_lullOutsideMeshModeFails_hypotheses :
    let s := onChip (fun c => c.setVoice 1 { c.voice 1 with state := .active, ringEnable := true, admitted := some ⟨7, leBytes 8 10, 0⟩ }); s.on = true ∧ s.chip.admits = true ∧ s.chip.admittedAs 1 10 = some ⟨7, leBytes 8 10, 0⟩ ∧ s.chip.straps.mode ≠ .mesh ∧ (s.chip.voice 1).resetDrain = false := by
  decide

theorem test_busResetIsNoVoiceReset_hypotheses :
    (onChip id).on = true ∧ ent 0x1811 1 ≠ ent 0x1810 2 := by
  decide

theorem test_warmResetsWithoutEffect_low_hypotheses :
    (onChip (fun c => { c with board := { c.board with porstLow := true } })).chip.board.porstLow = true := by
  decide

theorem test_warmResetsWithoutEffect_faulted_hypotheses :
    let s := onChip (fun c => { c with engine := .faulted }); s.on = true ∧ s.chip.engine = .faulted := by
  decide

theorem test_bootTakesTheLaterSlot_later_hypotheses :
    let f : Flash := { slotA := (⟨0, 0xFFFFFFFF, 1, []⟩ : CalStore).bytes, slotB := (⟨1, 0, 1, []⟩ : CalStore).bytes }; (f.slot 0).valid = true ∧ (f.slot 1).valid = true ∧ laterMod m32 (f.slot 1).seq (f.slot 0).seq = true ∧ f.chooseSlot = some 1 := by
  decide

theorem test_bootTakesTheLaterSlot_none_hypotheses :
    (({} : Flash).slot 0).valid = false ∧ (({} : Flash).slot 1).valid = false ∧ ({} : Flash).chooseSlot = none := by
  decide

theorem test_theLatestNonceIsSigned_hypotheses :
    ((State.reset.chip.takeNonce [1]).takeNonce [2]).faults.signing = true := by
  decide

theorem test_fullFifoDropsTheFrame_hypotheses :
    let c := (onChip (fun c => c.setPort 0 { c.port 0 with fifo := List.replicate 64 ⟨⟨false, 0, false, false, false, false, []⟩, 0, 0⟩ })).chip; (c.port 0).fifo.length = 64 := by
  decide

theorem test_aRetryBufferThatIsFullHoldsDataBack_hypotheses :
    let c := (onChip (fun c => c.setStr 0 { c.str 0 with retry := List.replicate 512 { seq := 0, at_ := 0, tail := true } })).chip; 512 ≤ (c.str 0).retry.length := by
  decide

theorem test_pivotsAreRegularised_nan_hypotheses :
    Fmt.f64.isNan 0x7FF8000000000000 = true ∧ Fmt.f64.isNan 0 = false := by
  decide

theorem test_pivotsAreRegularised_ldlt_hypotheses :
    let tau := add64 (mul64 (to64 (⟨1, true, [], [], [], true, [], 0, 0, 0, 0, 0x3F800000⟩ : Tabl).pivotRel) (Fmt.f64.abs 0)) (to64 (⟨1, true, [], [], [], true, [], 0, 0, 0, 0, 0x3F800000⟩ : Tabl).pivotAbs); Fmt.f64.lt (Fmt.f64.abs 0) tau = true ∧ Fmt.f64.lt 0 0 = false ∧ Fmt.f64.lt (Fmt.f64.abs 0xBFE0000000000000) tau = true ∧ Fmt.f64.lt 0xBFE0000000000000 0 = true ∧ Fmt.f64.lt (Fmt.f64.abs 0x4000000000000000) tau = false := by
  decide

theorem test_dimensionOrderReachesTheDestination_far_hypotheses :
    (0 : Nat) < 1024 ∧ (1023 : Nat) < 1024 ∧ hopsBetween 0 1023 = 69 := by
  decide

theorem test_dimensionOrderReachesTheDestination_nodetour_hypotheses :
    tabGet 0 State.reset.chip.mesh.detours 5 < 0x80 := by
  decide

theorem test_theAppliedLevelIsTheSlowest_hypotheses :
    let c := (onChip (fun c => { c with gov := { c.gov with started := true } })).chip; c.gov.p7 = false ∧ c.engine ≠ .hold ∧ c.gov.started = true := by
  decide

theorem test_quotasFitTheCapacity_hypotheses :
    let s := (onChip (fun c => c.dset (ent (vIdx 2 1) 5) 1)); s.on = true ∧ s.turn 0 ⟨1, 0⟩ = true ∧ goodVia 0 ⟨1, 0⟩ = true ∧ s.chip.engine = .run ∧ (∀ e, findEntry (vIdx 1 1) 5 = some e → e.inRange 768 = true) ∧ 768 < 256 ^ 2 ∧ s.chip.capacity 4 < ((rangeFrom 1 15).map (fun x => if x = 1 then 768 else s.chip.dget (ent (vIdx x 1) 5))).foldl (· + ·) 0 := by
  decide

theorem test_quietEffectsStand_hypotheses :
    let c := (onChip id).chip; c.quiet = true := by
  decide

theorem test_quietCommandsChangeOnlyTheirTargets_hypotheses :
    let s := onChip (fun c => { c with ctl := { c.ctl with bar2Enable := true }, now := 1, trig := [(1, { asserted := true, atOnce := true })] }); s.on = true ∧ s.chip.quiet = true ∧ s.chip.answers 0 = true ∧ s.chip.gov.p7 = false ∧ s.chip.ctl.bar2Enable = true ∧ (s.chip.pin 1).asserted = true ∧ (s.chip.pin 1).at_ < s.chip.now ∧ (s.chip.pin 1).atOnce = true := by
  decide

theorem test_epochCommandsComplete_hypotheses_1 :
    (let s : State := onWith { st := .running, active := some 0x20, estimate := 1000000 }; let src := 0x20; let m := 1; (s.on = true) ∧ (s.chip.takesFrameStart src = true) ∧ (src ≠ 0x30) ∧ (src ≠ 0x31) ∧ ((s.chip.epoch.active = some src ∨ src = 0x20)) ∧ (isGlitch src m s.chip.epoch.estimate = true) ∧ ((isCameraSource src = false ∨ s.chip.epoch.headerSeen = true)) ∧ ((isEncoderSource src = false ∨ s.chip.epoch.st = .stopped))) ∧
    (let s : State := onWith { st := .running, active := some 0x13, estimate := 1000000 }; let src := 0x13; let m := 1; (s.on = true) ∧ (s.chip.takesFrameStart src = true) ∧ (isEncoderSource src = true) ∧ (s.chip.epoch.active = some src) ∧ (isGlitch src m s.chip.epoch.estimate = true) ∧ (s.chip.epoch.st = .running)) ∧
    (let s : State := onWith { st := .running, active := some 0x20, estimate := 1000000 }; let src := 0x20; let m := 1000000; (s.on = true) ∧ (s.chip.takesFrameStart src = true) ∧ (src ≠ 0x30) ∧ (src ≠ 0x31) ∧ ((isGlitch src m s.chip.epoch.estimate = false ∨ (isCameraSource src = true ∧ s.chip.epoch.headerSeen = false) ∨ (s.chip.epoch.active ≠ some src ∧ src ≠ 0x20)))) ∧
    (let s : State := onWith {}; let n := 1; (s.on = true)) ∧
    (let s : State := onWith {}; let src := 0; (s.on = true) ∧ ((isCameraSource src || isEncoderSource src) = true)) ∧
    (let s : State := onWith { st := .running, active := some 5 }; let src := 5; (s.on = true) ∧ (isCameraSource src = true) ∧ (s.chip.epoch.active = some src) ∧ ((s.chip.epoch.st = .running ∨ s.chip.epoch.st = .freewheel))) ∧
    (let s : State := onWith { st := .blanking, estimate := 1 }; (s.on = true) ∧ (s.chip.epoch.st = .blanking) ∧ (s.chip.epoch.estimate ≠ 0) ∧ (s.chip.epoch.synthAt ≤ s.chip.epoch.elapsed) ∧ (s.chip.epoch.pos.line + 1 < s.chip.epoch.frameLines)) ∧
    (let s : State := onWith { st := .blanking, estimate := 1, pos := ⟨0, 1023, 0⟩ }; (s.on = true) ∧ (s.chip.epoch.st = .blanking) ∧ (s.chip.epoch.estimate ≠ 0) ∧ (s.chip.epoch.synthAt ≤ s.chip.epoch.elapsed) ∧ (s.chip.epoch.frameLines ≤ s.chip.epoch.pos.line + 1)) ∧
    (let s : State := withEntry (onWith { st := .running, active := some 0x20, estimate := 1, elapsed := 2 }) (ent 0x2800 4) 0; (s.on = true) ∧ (s.chip.linesMissing = true) ∧ (s.chip.dget (ent 0x2800 4) = 0)) ∧
    (let s : State := onWith { st := .running, active := some 0x20, estimate := 1, elapsed := 2, frameLines := 1 }; (s.on = true) ∧ (s.chip.linesMissing = true) ∧ (s.chip.dget (ent 0x2800 4) ≠ 0) ∧ (s.chip.epoch.frameLines ≤ s.chip.epoch.pos.line + 1)) ∧
    (let s : State := onWith { st := .running, active := some 0x20, estimate := 1, elapsed := 2, frameLines := 2 }; (s.on = true) ∧ (s.chip.linesMissing = true) ∧ (s.chip.dget (ent 0x2800 4) ≠ 0) ∧ (s.chip.epoch.pos.line + 1 < s.chip.epoch.frameLines)) ∧
    (let s : State := onWith { st := .freewheel, estimate := 1, elapsed := 1 }; (s.on = true) ∧ (s.chip.epoch.st = .freewheel) ∧ (s.chip.epoch.estimate ≠ 0) ∧ (s.chip.epoch.estimate ≤ s.chip.epoch.elapsed)) := by
  exact ⟨by decide, by decide, by decide, by decide, by decide, by decide, by decide, by decide, by decide, by decide, by decide, by decide⟩

theorem test_epochCommandsComplete_hypotheses_2 :
    (let s : State := onWith { st := .held, why := .endOfFrame, estimate := 1, elapsed := 1 }; (s.on = true) ∧ (s.chip.epoch.st = .held) ∧ (s.chip.epoch.why = .endOfFrame) ∧ (s.chip.epoch.estimate ≠ 0) ∧ (s.chip.epoch.estimate ≤ s.chip.epoch.elapsed) ∧ (s.chip.dget (ent 0x2800 4) ≠ 0)) ∧
    (let s : State := withEntry (onWith { st := .held, why := .endOfFrame, estimate := 1, elapsed := 1 }) (ent 0x2800 4) 0; (s.on = true) ∧ (s.chip.epoch.st = .held) ∧ (s.chip.epoch.why = .endOfFrame) ∧ (s.chip.epoch.estimate ≠ 0) ∧ (s.chip.epoch.estimate ≤ s.chip.epoch.elapsed) ∧ (s.chip.dget (ent 0x2800 4) = 0)) ∧
    (let s : State := onWith { st := .running, active := some 0x13 }; let src := 0x13; (s.on = true) ∧ (isEncoderSource src = true) ∧ (s.chip.epoch.active = some src) ∧ ((s.chip.epoch.st = .running ∨ s.chip.epoch.st = .freewheel))) ∧
    (let s : State := base .run (fun c => benchy { c with epoch := { st := .running, active := some 0x31, synthOn := true, synthPeriod := 7, synthElapsed := 7, frameLines := 9 } }); (s.on = true) ∧ (s.chip.epoch.synthOn = true) ∧ (s.chip.takesFrameStart 0x31 = true) ∧ (s.chip.epoch.synthPeriod ≤ s.chip.epoch.synthElapsed) ∧ (s.chip.edgeStartsFrame 0x31 = false)) ∧
    (let s : State := base .run (fun c => benchy { c with epoch := { st := .running, active := some 0x31, synthOn := true, synthPeriod := 7, synthElapsed := 7, frameLines := 1 } }); (s.on = true) ∧ (s.chip.epoch.synthOn = true) ∧ (s.chip.takesFrameStart 0x31 = true) ∧ (s.chip.epoch.synthPeriod ≤ s.chip.epoch.synthElapsed) ∧ (s.chip.edgeStartsFrame 0x31 = true)) ∧
    (let s : State := base .run (fun c => meshy { c with epoch := { st := .running, active := some 0x30, virtual := some (3, 5), frameLines := 9 } }); let target := 3; let period := 5; (s.on = true) ∧ (s.chip.epoch.virtual = some (target, period)) ∧ (s.chip.takesFrameStart 0x30 = true) ∧ (s.chip.epoch.pendingSource ≠ some 0x30) ∧ (s.chip.epoch.st ≠ .stopped) ∧ (s.chip.epoch.pos.line + 1 < s.chip.epoch.frameLines)) := by
  exact ⟨by decide, by decide, by decide, by decide, by decide, by decide⟩

theorem test_cueCommandsComplete_hypotheses_1 :
    (let w := ({ voice := 1, slot := 256, write := none } : ArmWait); let s : State := onChip (fun c => { c with armQueue := [w] }); let rest := ([] : List ArmWait); (s.on = true) ∧ (s.chip.engine ≠ .faulted) ∧ (s.chip.armRateFree = true) ∧ (s.chip.armQueue = w :: rest) ∧ (w.write = none) ∧ (w.engine = false)) ∧
    (let w := ({ voice := 0, slot := 300, engine := true, write := none } : ArmWait); let s : State := onChip (fun c => { c with armQueue := [w] }); let rest := ([] : List ArmWait); (s.on = true) ∧ (s.chip.engine ≠ .faulted) ∧ (s.chip.armRateFree = true) ∧ (s.chip.armQueue = w :: rest) ∧ (w.write = none) ∧ (w.engine = true)) ∧
    (let q := ({ voice := 0, via := ⟨2, 0⟩, idx := 0x2D00, sub := 1, data := [1] } : DictReq); let w := ({ voice := 0, slot := 256, write := some q } : ArmWait); let s : State := onChip (fun c => { c with armQueue := [w], cues := [(256, { action := 10, target := 0x100000000, arg := 0 })] }); let rest := ([] : List ArmWait); (s.on = true) ∧ (s.chip.engine ≠ .faulted) ∧ (s.chip.armRateFree = true) ∧ (s.chip.armQueue = w :: rest) ∧ (w.write = some q) ∧ (Chip.codeOf { s.chip with armQueue := [] } q = 0)) ∧
    (let s : State := onWith {}; (s.on = true)) ∧
    (let s : State := onChip (fun c => { c with now := 1, trig := [(5, { asserted := true, atOnce := true })] }); let pin := 5; (s.on = true) ∧ ((s.chip.pin pin).asserted = true) ∧ ((s.chip.pin pin).at_ < s.chip.now) ∧ (((s.chip.pin pin).atOnce = true ∨ (reached s.chip.posNat (s.chip.pin pin).endPos = true ∧ s.chip.epoch.st ≠ .stopped)))) := by
  exact ⟨by decide, by decide, by decide, by decide, by decide⟩

theorem test_resetsAndPinsComplete_hypotheses_1 :
    (let s : State := ({ chip := {} } : State); let mode := 2; let ident := 63; (s.chip.board.refclk = true) ∧ (mode % 4 ≠ 3)) ∧
    (let s : State := ({ chip := { board := { refclk := false } } } : State); let mode := 3; let ident := 0; (s.chip.board.refclk = false)) ∧
    (let s : State := ({ chip := {} } : State); let mode := 3; let ident := 0; (s.chip.board.refclk = true) ∧ (mode % 4 = 3)) ∧
    (let s : State := ({ chip := { board := { porstLow := false, refclk := false } } } : State); let mode := 0; let ident := 5; (s.chip.board.refclk = false) ∧ (s.chip.board.porstLow = false) ∧ (mode % 4 ≠ 3)) ∧
    (let s : State := ({ chip := { board := { refclk := false } } } : State); let mode := 0; let ident := 5; (s.chip.board.refclk = false) ∧ (s.chip.board.porstLow = true)) ∧
    (let s : State := onChip (fun c => { c with engine := .faulted }); (s.chip.engine = .faulted)) ∧
    (let s : State := onWith {}; (s.on = true) ∧ (s.chip.answers 0 = true)) ∧
    (let s : State := onWith {}; let value := m32 - 1; (s.on = true) ∧ (s.chip.answers 0 = true) ∧ (value < m32) ∧ (value ≠ 0x57525354)) ∧
    (let s : State := onWith {}; let value := 1; (s.on = true) ∧ (s.chip.answers 0 = true) ∧ (value < m32)) ∧
    (let s : State := onWith {}; (s.on = true) ∧ (s.chip.board.pfail = false)) ∧
    (let s : State := onWith {}; (s.on = true)) ∧
    (let s : State := onChip (fun c => { c with engine := .boot, flash := { cold := true } }); let failed := [UnitName.lane 3]; (s.on = true) ∧ (s.chip.engine = .boot) ∧ (s.chip.gov.bootHot = false) ∧ (s.chip.flash.cold = true)) := by
  exact ⟨by decide, by decide, by decide, by decide, by decide, by decide, by decide, by decide, by decide, by decide, by decide, by decide⟩

theorem test_resetsAndPinsComplete_hypotheses_2 :
    (let s : State := onChip (fun c => { c with engine := .boot, flash := { cold := false } }); let failed := [UnitName.lane 3]; (s.on = true) ∧ (s.chip.engine = .boot) ∧ (s.chip.gov.bootHot = false) ∧ (s.chip.flash.cold = false)) ∧
    (let s : State := onChip (fun c => { c with engine := .selftest }); (s.on = true) ∧ (s.chip.engine = .selftest) ∧ (s.chip.enterFirstConfig.engine = .config)) ∧
    (let s : State := onWith {}; let ir := TapInstruction.extest; (s.chip.board.porstLow = false) ∧ ((ir = .extest ∨ ir = .clamp ∨ ir = .highz))) := by
  exact ⟨by decide, by decide, by decide⟩

theorem test_registerAccessesComplete_hypotheses_1 :
    (let s : State := onWith {}; let fn := 0; let offset := 0x10014; let value := m32 - 1; (s.on = true) ∧ (s.chip.answers fn = true) ∧ (offset % 4 = 0) ∧ (offset < barSize fn) ∧ ((fn = 0 ∨ s.chip.onTunnel fn = false)) ∧ (value < m32)) ∧
    (let s : State := onWith {}; let value := m32 - 1; (s.on = true) ∧ (s.chip.answers 0 = true) ∧ (value < m32)) ∧
    (let s : State := onWith {}; let value := 1; let be := 14; (s.on = true) ∧ (s.chip.answers 0 = true) ∧ (value < m32) ∧ (0 < be) ∧ (be < 15)) ∧
    (let s : State := onWith {}; let offset := 0x3FFFFFC; let value := 0; (s.on = true) ∧ (s.chip.answers 0 = true) ∧ (offset % 4 = 0) ∧ (offset < 0x4000000) ∧ (value < m32) ∧ (pfWindow s.chip.grade offset = none)) ∧
    (let s : State := onWith {}; let offset := 0x3FFFFFC; (s.on = true) ∧ (s.chip.answers 0 = true) ∧ (offset % 4 = 0) ∧ (offset < 0x4000000) ∧ (pfWindow s.chip.grade offset = none)) ∧
    (let s : State := onWith {}; let offset := 0x10014; let ty := 0x02; let n := 0; let o := 0x14; (s.on = true) ∧ (s.chip.answers 0 = true) ∧ (offset % 4 = 0) ∧ (offset < 0x4000000) ∧ (pfWindow s.chip.grade offset = some (ty, n, o)) ∧ (s.chip.gov.p7 = false) ∧ (s.chip.onTunnel 0 = false)) ∧
    (let s : State := onWith {}; (s.on = true) ∧ (s.chip.answers 0 = true)) ∧
    (let s : State := onChip (fun c => { c with ctl := { bar2Enable := true } }); let offset := 0x2FFFFFF; let data := [some 1, none]; (s.on = true) ∧ (s.chip.answers 0 = true) ∧ (offset + data.length ≤ 0x4000000) ∧ (s.chip.gov.p7 = false) ∧ (s.chip.ctl.bar2Enable = true) ∧ ((∀ p ∈ bar2Bytes offset data, p.1 < 0x3000000 ∧ s.chip.deadBank p.1 = false ∧ s.chip.bar2Busy p.1 = false))) ∧
    (let s : State := onChip (fun c => { c with ctl := { bar2Enable := true } }); let offset := 0; let len := 4; (s.on = true) ∧ (s.chip.answers 0 = true) ∧ (offset + len ≤ 0x3000000) ∧ (s.chip.gov.p7 = false) ∧ (s.chip.ctl.bar2Enable = true)) ∧
    (let s : State := onChip (fun c => { c with ctl := { bar2Enable := false } }); let offset := 0; let data := [some 1]; (s.on = true) ∧ (s.chip.answers 0 = true) ∧ (offset + data.length ≤ 0x4000000) ∧ (s.chip.gov.p7 = false) ∧ (s.chip.ctl.bar2Enable = false)) := by
  exact ⟨by decide, by decide, by decide, by decide, by decide, by decide, by decide, by decide, by decide, by decide⟩

theorem test_dictionaryServiceCompletes_hypotheses_1 :
    (let s : State := onWith {}; let v := 15; let idx := 0x1000; let sub := 1; (s.on = true) ∧ (s.chip.silent = false) ∧ (v < 16)) ∧
    (let s : State := onWith {}; let v := 15; let idx := 0x1000; let sub := 1; (s.on = true) ∧ (s.chip.silent = false) ∧ (v < 16)) ∧
    (let s : State := onChip (fun c => { c with engine := .config }); let v := 0; let via := (⟨1, 0⟩ : Via); let idx := 0x2800; let sub := 2; let data := [9, 0]; (s.accepts v via idx sub data = true)) ∧
    (let s : State := onChip (fun c => { c with engine := .config }); let v := 0; let via := (⟨1, 0⟩ : Via); let idx := 0x1000; let sub := 1; let data := [9, 0]; (s.on = true) ∧ (s.turn v via = true) ∧ (goodVia v via = true) ∧ (s.chip.silent = false) ∧ (s.chip.callWake.writeCode v idx sub data ≠ 0)) ∧
    (let s : State := onChip (fun c => { c with engine := .config, keeps := [(0, { deferred := [{ voice := 0, via := ⟨2, 0⟩, idx := 0x2800, sub := 2, data := [9, 0] }] })] }); let v := 0; let q := ({ voice := 0, via := ⟨2, 0⟩, idx := 0x2800, sub := 2, data := [9, 0] } : DictReq); (s.on = true) ∧ (s.round.inOrder (.deferred v) = true) ∧ (v < 16) ∧ (s.chip.silent = false) ∧ (s.chip.committedNow v = false) ∧ ((s.chip.keep v).deferred = [q]) ∧ (q.via.transport ≤ 255) ∧ ((s.chip.setKeep v { s.chip.keep v with deferred := [] }).codeOf q = 0) ∧ ((s.chip.setKeep v { s.chip.keep v with deferred := [] }).armMustWait q = false)) ∧
    (let s : State := { onWith {} with round := { ops := [.write true { voice := 5, via := ⟨1, 0⟩, idx := 0, sub := 0, data := [] }] } }; let v := 4; let via := (⟨1, 0⟩ : Via); let idx := 0x1010; let sub := 1; let data := [1, 0, 0, 0]; (s.on = true) ∧ (s.turn v via = false)) ∧
    (let r : Round := { ops := [.write true { voice := 5, via := ⟨1, 0⟩, idx := 0, sub := 0, data := [] }, .query 0 1 0x1000 1] }; let c : Chip := {}; let o := RoundOp.write true { voice := 4, via := ⟨1, 0⟩, idx := 0, sub := 0, data := [] }; (r.ops.Pairwise (fun x y => x.place ≤ y.place))) := by
  exact ⟨by decide, by decide, by decide, by decide, by decide, by decide, by decide⟩

theorem test_dictionaryRowsComplete_hypotheses_1 :
    (let s : State := base .config; let v := 0; let via := (⟨1, 0⟩ : Via); let sub := 2; let value := 1; ((sub == 1 || sub == 2) = true) ∧ (s.accepts v via 0x2800 sub (leBytes sub value) = true)) ∧
    (let s : State := base .run (fun c => c.setCue 256 { action := 10, remaining := 1 }); let v := 0; let via := (⟨1, 0⟩ : Via); let slot := 256; (slot < 1024) ∧ (s.accepts v via (0x2C00 + slot) 1 [1] = true)) ∧
    (let s : State := base .run; let v := 0; let via := (⟨1, 0⟩ : Via); let slot := 1023; (slot < 1024) ∧ (s.accepts v via (0x2C00 + slot) 1 [0] = true)) ∧
    (let s : State := base .config; let v := 0; let via := (⟨1, 0⟩ : Via); (s.accepts v via 0x1001 2 [4] = true)) ∧
    (let s : State := base .ready; let v := 0; let via := (⟨1, 0⟩ : Via); (s.accepts v via 0x1001 2 [3] = true)) ∧
    (let s : State := base .ready; let v := 0; let via := (⟨1, 0⟩ : Via); let target := 5; (s.accepts v via 0x1001 2 (leBytes 1 target) = true)) ∧
    (let s : State := base .ready; let v := 0; let via := (⟨1, 0⟩ : Via); (s.accepts v via 0x1001 2 [6] = true)) ∧
    (let s : State := base .hold; let v := 0; let via := (⟨1, 0⟩ : Via); (s.accepts v via 0x1001 2 [4] = true)) ∧
    (let s : State := base .config; let v := 0; let via := (⟨1, 0⟩ : Via); let level := 1; (s.accepts v via 0x1018 3 (leBytes 1 level) = true)) ∧
    (let s : State := base .config; let v := 0; let via := (⟨1, 0⟩ : Via); let value := 1398034258; (s.accepts v via 0x1100 1 (leBytes 4 value) = true)) ∧
    (let s : State := base .config; let v := 0; let via := (⟨1, 0⟩ : Via); let value := 1145390657; (s.accepts v via 0x1101 1 (leBytes 4 value) = true)) ∧
    (let s : State := base .config; let v := 0; let via := (⟨1, 0⟩ : Via); let ch := 31; let value := 0; (ch < 32) ∧ (s.accepts v via (0x7000 + ch) 1 (leBytes 1 value) = true)) := by
  exact ⟨by decide, by decide, by decide, by decide, by decide, by decide, by decide, by decide, by decide, by decide, by decide, by decide⟩

theorem test_dictionaryRowsComplete_hypotheses_2 :
    (let s : State := base .config; let v := 0; let via := (⟨1, 0⟩ : Via); let ch := 31; let k := 15; let value := 0x10000104; ((ch < 32 && k < 16) = true) ∧ (s.accepts v via (0x7020 + ch) (k + 2) (leBytes 4 value) = true)) ∧
    (let s : State := base .run (fun c => c.dset (canKey 1 13) 3); let v := 0; let via := (⟨1, 0⟩ : Via); let port := 1; let value := 1; (port < 2) ∧ (s.accepts v via (0x1800 + port) 12 (leBytes 1 value) = true)) ∧
    (let s : State := base .run; let v := 0; let via := (⟨1, 0⟩ : Via); let target := 1; let value := 1448235860; (target < 16) ∧ (s.accepts v via (0x8000 + 0x40 * target) 4 (leBytes 4 value) = true)) ∧
    (let s : State := base .config meshy; let v := 0; let via := (⟨1, 0⟩ : Via); let target := 12; let value := 1; (target < 16) ∧ (s.accepts v via (0x8000 + 0x40 * target) 5 (leBytes 1 value) = true)) ∧
    (let s : State := base .run; let v := 0; let via := (⟨1, 0⟩ : Via); let target := 1; let sub := 5; let value := 1; ((target < 16 && 1 ≤ sub && sub ≤ 5) = true) ∧ (s.accepts v via (0x8001 + 0x40 * target) sub (leBytes (if sub = 5 then 2 else 4) value) = true)) ∧
    (let s : State := base .run; let v := 0; let via := (⟨1, 0⟩ : Via); let ch := 5; let value := 1; (ch < 6) ∧ (s.accepts v via (0x2000 + ch) 1 (leBytes 1 value) = true)) ∧
    (let s : State := base .run; let v := 0; let via := (⟨1, 0⟩ : Via); let ch := 5; let value := 0; (ch < 6) ∧ (s.accepts v via (0x2000 + ch) 11 (leBytes 1 value) = true)) ∧
    (let s : State := tcon (leBytes 4 0x4D525646 ++ leBytes 2 1280 ++ leBytes 2 800 ++ [43, 0] ++ leBytes 2 0 ++ leBytes 2 1) 2576 (fun c => ((benchy c).dset (camKey 0 34) 1).dset (camKey 0 1) 1); let v := 0; let via := (⟨1, 0⟩ : Via); let ch := 0; let tensor := 5; (ch < 6) ∧ (s.accepts v via (0x2000 + ch) 36 (leBytes 4 tensor) = true)) ∧
    (let s : State := tcon (leBytes 4 0x4E495356 ++ List.replicate 12 0) 16 (fun c => (benchy c).dset (inKey 0 2) 2); let v := 0; let via := (⟨1, 0⟩ : Via); let ch := 0; let tensor := 5; (ch < 16) ∧ (s.accepts v via (0x2100 + ch) 12 (leBytes 4 tensor) = true)) ∧
    (let s : State := tcon coefTensor; let v := 0; let via := (⟨1, 0⟩ : Via); let ch := 0; let tensor := 5; (ch < 16) ∧ (s.accepts v via (0x2100 + ch) 30 (leBytes 4 tensor) = true)) ∧
    (let s : State := base .run; let v := 0; let via := (⟨1, 0⟩ : Via); let ch := 15; let value := 1; (ch < 16) ∧ (s.accepts v via (0x2100 + ch) 31 (leBytes 1 value) = true)) ∧
    (let s : State := base .run; let v := 0; let via := (⟨1, 0⟩ : Via); let ch := 15; let value := 1; (ch < 16) ∧ (s.accepts v via (0x2100 + ch) 33 (leBytes 1 value) = true)) := by
  exact ⟨by decide, by decide, by decide, by decide, by decide, by decide, by decide, by decide, by decide, by decide, by decide, by decide⟩

theorem test_dictionaryRowsComplete_hypotheses_3 :
    (let s : State := base .run; let v := 0; let via := (⟨1, 0⟩ : Via); let ch := 15; let sub := 8; let value := 1; ((ch < 16 && (sub == 1 || sub == 8 || sub == 9)) = true) ∧ (s.accepts v via (0x2100 + ch) sub (leBytes (if sub = 8 then 2 else 1) value) = true)) ∧
    (let s : State := base .run; let v := 0; let via := (⟨1, 0⟩ : Via); let e := 3; let value := 7; (e < 4) ∧ (s.accepts v via (0x2180 + e) 7 (leBytes 4 value) = true)) ∧
    (let s : State := base .config estOk; let v := 0; let via := (⟨1, 0⟩ : Via); (s.accepts v via 0x3000 2 [1] = true)) ∧
    (let s : State := base .config; let v := 0; let via := (⟨1, 0⟩ : Via); (s.accepts v via 0x3000 2 [0] = true)) ∧
    (let s : State := base .config; let v := 0; let via := (⟨1, 0⟩ : Via); let value := 1; (s.accepts v via 0x3020 4 (leBytes 1 value) = true)) ∧
    (let s : State := base .config plainEst; let v := 0; let via := (⟨1, 0⟩ : Via); let value := 1; (s.accepts v via 0x3020 5 (leBytes 1 value) = true)) ∧
    (let s : State := tcon mapBytes mapBytes.length plainEst; let v := 0; let via := (⟨1, 0⟩ : Via); let tensor := 5; (s.accepts v via 0x3020 8 (leBytes 4 tensor) = true)) ∧
    (let s : State := tcon listBytes 64 (fun c => (benchy c).dset (entEst 0 0x3000 9) 1); let v := 0; let via := (⟨1, 0⟩ : Via); let tensor := 5; (s.accepts v via 0x3000 10 (leBytes 4 tensor) = true)) ∧
    (let s : State := base .run (fun c => c.setTablature 5 { voice := 0, lane := 0, image := [], slots := 0, overflow := 0 }); let v := 0; let via := (⟨1, 0⟩ : Via); let tensor := 5; (s.accepts v via 0x3800 21 (leBytes 4 tensor) = true)) ∧
    (let s : State := base .run; let v := 0; let via := (⟨1, 0⟩ : Via); let descriptor := leBytes 8 5 ++ leBytes 4 4096 ++ [0, 1] ++ List.replicate 50 0; (s.accepts v via 0x4100 11 descriptor = true)) ∧
    (let s : State := tcon []; let v := 0; let via := (⟨1, 0⟩ : Via); let tensor := 5; (s.accepts v via 0x4100 12 (leBytes 4 tensor) = true)) ∧
    (let s : State := tcon []; let v := 0; let via := (⟨1, 0⟩ : Via); let tensor := 5; (s.accepts v via 0x4100 13 (leBytes 4 tensor) = true)) := by
  exact ⟨by decide, by decide, by decide, by decide, by decide, by decide, by decide, by decide, by decide, by decide, by decide, by decide⟩

theorem test_dictionaryRowsComplete_hypotheses_4 :
    (let s : State := base .run; let v := 0; let via := (⟨1, 0⟩ : Via); let p := 5; let value := 4; (p < 6) ∧ (s.accepts v via (0x4800 + p) 3 (leBytes 1 value) = true)) ∧
    (let s : State := base .config; let v := 0; let via := (⟨1, 0⟩ : Via); let value := 0; (s.accepts v via 0x4820 4 (leBytes 1 value) = true)) ∧
    (let s : State := base .config; let v := 0; let via := (⟨1, 0⟩ : Via); let value := 1; (s.accepts v via 0x4820 5 (leBytes 1 value) = true)) ∧
    (let s : State := base .config; let v := 0; let via := (⟨1, 0⟩ : Via); let value := 0; (s.accepts v via 0x1820 1 (leBytes 1 value) = true)) ∧
    (let s : State := base .config; let v := 0; let via := (⟨1, 0⟩ : Via); let data := [2, 0, 0, 0, 0, 0, 0, 0]; (s.accepts v via 0x1820 16 data = true)) ∧
    (let s : State := base .config; let v := 0; let via := (⟨1, 0⟩ : Via); let sub := 2; let value := 0; ((sub == 2 || sub == 3) = true) ∧ (s.accepts v via 0x5000 sub (leBytes 1 value) = true)) ∧
    (let s : State := base .config; let v := 0; let via := (⟨1, 0⟩ : Via); let value := 1; (s.accepts v via 0x5800 7 (leBytes 1 value) = true)) ∧
    (let s : State := base .config; let v := 0; let via := (⟨1, 0⟩ : Via); let value := 1; (s.accepts v via 0x5820 5 (leBytes 1 value) = true)) ∧
    (let s : State := base .config; let v := 0; let via := (⟨1, 0⟩ : Via); let value := 1129075282; (s.accepts v via 0x5820 10 (leBytes 4 value) = true)) ∧
    (let s : State := base .config; let v := 0; let via := (⟨1, 0⟩ : Via); let data := List.replicate 32 1; (s.accepts v via 0x1011 1 data = true)) ∧
    (let s : State := base .config; let v := 0; let via := (⟨1, 0⟩ : Via); let value := 1280262987; (s.accepts v via 0x1020 2 (leBytes 4 value) = true)) ∧
    (let s : State := base .config; let v := 0; let via := (⟨1, 0⟩ : Via); let tensor := 5; (s.on = true) ∧ (s.turn v via = true) ∧ (goodVia v via = true) ∧ (s.chip.silent = false) ∧ (s.chip.callWake.committedNow v = false) ∧ ((s.chip.callWake.keep v).deferred = []) ∧ (s.chip.callWake.armMustWait { voice := v, via, idx := 0x6000, sub := 12, data := leBytes 4 tensor } = false)) := by
  exact ⟨by decide, by decide, by decide, by decide, by decide, by decide, by decide, by decide, by decide, by decide, by decide, by decide⟩

theorem test_canProtocolCompletes_hypotheses_1 :
    (let s : State := onChip (fun c => Chip.dset ({ c with straps := { ident := 5 }, can := [(1, { joined := true })] }) (canKey 1 1) 1); let p := 1; let f := ({ ide := false, ident := 0x545, fdf := false, brs := false, esi := false, rtr := false, data := [0x13, 0, 0x10, 1] } : CanFrame); (s.on = true) ∧ (p < 2) ∧ (s.chip.onBus p = true) ∧ (f.rtr = false) ∧ (s.chip.isRequest p f = true) ∧ ((s.chip.heard p).isRequest p f = true) ∧ ((f.data.getD 0 0).toNat / 16 = 1) ∧ ((s.chip.heard p).silent = false) ∧ (((s.chip.heard p).port p).lastReq.any (sameFrame f) = false) ∧ (layoutLength 1 f.data ≤ f.data.length) ∧ (f.data.length ≠ 0)) ∧
    (let s : State := onChip (fun c => Chip.dset ({ c with straps := { ident := 5 }, can := [(1, { joined := true })] }) (canKey 1 1) 1); let p := 1; let f := ({ ide := false, ident := 0x545, fdf := false, brs := false, esi := false, rtr := false, data := [0x2F, 0, 0x28, 1, 0] } : CanFrame); (s.on = true) ∧ (s.turn (canVoice p) ⟨3, 0⟩ = true) ∧ (p < 2) ∧ (s.chip.onBus p = true) ∧ (f.rtr = false) ∧ (s.chip.isRequest p f = true) ∧ ((s.chip.heard p).isRequest p f = true) ∧ ((f.data.getD 0 0).toNat / 16 = 2) ∧ ((s.chip.heard p).silent = false) ∧ (((s.chip.heard p).port p).lastReq.any (sameFrame f) = false) ∧ (layoutLength 2 f.data ≤ f.data.length) ∧ (f.data.length ≠ 0)) ∧
    (let s : State := onChip (fun c => Chip.dset ({ c with straps := { ident := 5 }, can := [(1, { joined := true })] }) (canKey 1 1) 1); let p := 1; let f := ({ ide := false, ident := 0x545, fdf := false, brs := false, esi := false, rtr := false, data := [0x30, 0, 0x28, 1, 8, 0, 0, 0] } : CanFrame); (s.on = true) ∧ (s.turn (canVoice p) ⟨3, 0⟩ = true) ∧ (p < 2) ∧ (s.chip.onBus p = true) ∧ (f.rtr = false) ∧ (s.chip.isRequest p f = true) ∧ ((s.chip.heard p).isRequest p f = true) ∧ ((f.data.getD 0 0).toNat / 16 = 3) ∧ ((s.chip.heard p).silent = false) ∧ (((s.chip.heard p).port p).lastReq.any (sameFrame f) = false) ∧ (layoutLength 3 f.data ≤ f.data.length) ∧ (f.data.length ≠ 0)) ∧
    (let s : State := onChip (fun c => Chip.dset ({ c with straps := { ident := 5 }, can := [(1, { joined := true })] }) (canKey 1 1) 1); let p := 1; let f := ({ ide := false, ident := 0x545, fdf := false, brs := false, esi := false, rtr := false, data := [0x40, 0, 0x28, 1] } : CanFrame); (s.on = true) ∧ (p < 2) ∧ (s.chip.onBus p = true) ∧ (f.rtr = false) ∧ (s.chip.isRequest p f = true) ∧ ((s.chip.heard p).isRequest p f = true) ∧ ((f.data.getD 0 0).toNat / 16 = 4) ∧ ((s.chip.heard p).silent = false) ∧ (((s.chip.heard p).port p).lastReq.any (sameFrame f) = false) ∧ (layoutLength 4 f.data ≤ f.data.length) ∧ (f.data.length ≠ 0)) ∧
    (let s : State := onChip (fun c => Chip.dset ({ c with straps := { ident := 5 }, can := [(1, { joined := true })] }) (canKey 1 1) 1); let p := 1; let f := ({ ide := false, ident := 0x545, fdf := false, brs := false, esi := false, rtr := false, data := [0x50, 0] } : CanFrame); (s.on = true) ∧ (s.turn (canVoice p) ⟨3, 0⟩ = true) ∧ (p < 2) ∧ (s.chip.onBus p = true) ∧ (f.rtr = false) ∧ (s.chip.isRequest p f = true) ∧ ((s.chip.heard p).isRequest p f = true) ∧ ((f.data.getD 0 0).toNat / 16 = 5) ∧ ((s.chip.heard p).silent = false) ∧ (((s.chip.heard p).port p).lastReq.any (sameFrame f) = false) ∧ (layoutLength 5 f.data ≤ f.data.length) ∧ (f.data.length ≠ 0)) ∧
    (let s : State := onChip (fun c => Chip.dset ({ c with straps := { ident := 5 }, can := [(1, { joined := true })] }) (canKey 1 1) 1); let p := 1; let f := ({ ide := false, ident := 0x545, fdf := false, brs := false, esi := false, rtr := false, data := [0x60, 0] } : CanFrame); (s.on = true) ∧ (p < 2) ∧ (s.chip.onBus p = true) ∧ (f.rtr = false) ∧ (s.chip.isRequest p f = true) ∧ ((s.chip.heard p).isRequest p f = true) ∧ ((f.data.getD 0 0).toNat / 16 = 6) ∧ ((s.chip.heard p).silent = false) ∧ (((s.chip.heard p).port p).lastReq.any (sameFrame f) = false) ∧ (layoutLength 6 f.data ≤ f.data.length) ∧ (f.data.length ≠ 0)) ∧
    (let s : State := onChip (fun c => Chip.dset ({ c with straps := { ident := 5 }, can := [(1, { joined := true, transfer := some ({ tag := 3, writing := true, idx := 0x1000, sub := 1, total := 8, fdf := false, brs := false, at_ := 0 } : Transfer) })] }) (canKey 1 1) 1); let p := 1; let f := ({ ide := false, ident := 0x545, fdf := false, brs := false, esi := false, rtr := false, data := [0xE3, 0, 0x10, 1, 0, 0, 0, 0] } : CanFrame); let t := ({ tag := 3, writing := true, idx := 0x1000, sub := 1, total := 8, fdf := false, brs := false, at_ := 0 } : Transfer); (s.on = true) ∧ (s.turn (canVoice p) ⟨3, 0⟩ = true) ∧ (p < 2) ∧ (s.chip.onBus p = true) ∧ (f.rtr = false) ∧ (s.chip.isRequest p f = true) ∧ ((s.chip.heard p).isRequest p f = true) ∧ ((f.data.getD 0 0).toNat / 16 = 14) ∧ ((s.chip.heard p).silent = false) ∧ (((s.chip.heard p).port p).lastReq.any (sameFrame f) = false) ∧ (layoutLength 14 f.data ≤ f.data.length) ∧ (f.data.length ≠ 0) ∧ (((s.chip.heard p).port p).transfer = some t) ∧ (t.tag = frameTag f)) ∧
    (let s : State := onChip (fun c => Chip.dset (Chip.dset ({ c with straps := { ident := 5 }, can := [(1, { joined := true, transfer := some ({ tag := 3, writing := true, idx := 0x1000, sub := 1, total := 8, fdf := false, brs := false, at_ := 0 } : Transfer) })] }) (canKey 1 1) 1) (canKey 1 19) 0); let p := 1; let t := ({ tag := 3, writing := true, idx := 0x1000, sub := 1, total := 8, fdf := false, brs := false, at_ := 0 } : Transfer); (s.on = true) ∧ (p < 2) ∧ ((s.chip.port p).transfer = some t) ∧ (t.at_ + s.chip.dget (canKey p 19) * 250000 ≤ s.chip.now)) ∧
    (let s : State := onChip (fun c => Chip.dset ({ c with straps := { ident := 5 }, can := [(1, { joined := true })] }) (canKey 1 1) 1); let p := 1; let f := ({ ide := false, ident := 0x545, fdf := false, brs := false, esi := false, rtr := false, data := [0x13, 0, 0x10, 1] } : CanFrame); (s.on = true) ∧ (s.turn (canVoice p) ⟨3, 0⟩ = true) ∧ (p < 2) ∧ (s.chip.onBus p = true) ∧ (f.rtr = false) ∧ (s.chip.isRequest p f = true) ∧ ((s.chip.heard p).isRequest p f = true)) ∧
    (let f := ({ ide := false, ident := 0x545, fdf := false, brs := false, esi := false, rtr := false, data := [0x13, 0, 0x10, 1] } : CanFrame); let rsp := f; let s : State := onChip (fun c => Chip.dset ({ c with straps := { ident := 5 }, can := [(1, { joined := true, lastReq := some f, lastRsp := some rsp })] }) (canKey 1 1) 1); let p := 1; (s.on = true) ∧ (p < 2) ∧ (s.chip.onBus p = true) ∧ (f.rtr = false) ∧ (s.chip.isRequest p f = true) ∧ ((s.chip.heard p).isRequest p f = true) ∧ ((f.data.getD 0 0).toNat / 16 = 1) ∧ ((s.chip.heard p).silent = false) ∧ (((s.chip.heard p).port p).lastReq.any (sameFrame f) = true) ∧ (((s.chip.heard p).port p).lastRsp = some rsp)) := by
  exact ⟨by decide, by decide, by decide, by decide, by decide, by decide, by decide, by decide, by decide, by decide⟩

theorem test_canBusCommandsComplete_hypotheses_1 :
    (let s : State := onChip (fun c => Chip.dset ({ c with straps := { ident := 5 }, can := [(1, { joined := true })] }) (canKey 1 1) 1); let p := 1; let m := 31; (s.on = true) ∧ (p < 2) ∧ (m < 32) ∧ (s.chip.mbRefusal p m false = 0)) ∧
    (let s : State := onChip (fun c => Chip.dset ({ c with straps := { ident := 5 }, can := [(1, { joined := true, mailboxes := [(5, { st := .pending })] })] }) (canKey 1 1) 1); let p := 1; let m := 5; (s.on = true) ∧ (p < 2) ∧ (m < 32) ∧ (s.chip.mbRefusal p m true = 0) ∧ (((s.chip.port p).mb m).st = .pending)) ∧
    (let s : State := onChip (fun c => Chip.dset ({ c with straps := { ident := 5 }, can := [(1, { joined := true, mailboxes := [(5, { st := .active })] })] }) (canKey 1 1) 1); let p := 1; let m := 5; (s.on = true) ∧ (p < 2) ∧ (m < 32) ∧ (s.chip.mbRefusal p m true = 0) ∧ (((s.chip.port p).mb m).st = .active)) ∧
    (let s : State := onChip (fun c => Chip.dset ({ c with straps := { ident := 5 }, can := [(1, { joined := true, mailboxes := [(5, { st := .pending })] })] }) (canKey 1 1) 1); let p := 1; let m := 5; (s.on = true) ∧ (p < 2) ∧ (s.chip.onBus p = true) ∧ ((s.chip.port p).attempt = none) ∧ (s.chip.suspended p = false) ∧ ((s.chip.port p).winner = some m)) ∧
    (let s : State := onChip (fun c => Chip.dset ({ c with straps := { ident := 5 }, can := [(1, { joined := true, attempt := some 5 })] }) (canKey 1 1) 1); let p := 1; let m := 5; let tdcv := 0; let dominant := 0; let tdcv := some 0; (s.on = true) ∧ (p < 2) ∧ ((s.chip.port p).attempt = some m)) ∧
    (let s : State := onChip (fun c => Chip.dset ({ c with straps := { ident := 5 }, can := [(1, { joined := true, attempt := some 5, mailboxes := [(5, { host := true, st := .active })] })] }) (canKey 1 1) 1); let p := 1; let m := 5; let dominant := 0; (s.on = true) ∧ (p < 2) ∧ ((s.chip.port p).attempt = some m) ∧ (((s.chip.port p).mb m).cancelOut = false) ∧ (s.chip.abandoned p m = false) ∧ ((s.chip.port p).channelOf m = none)) ∧
    (let s : State := onChip (fun c => Chip.dset ({ c with straps := { ident := 5 }, can := [(1, { joined := true, attempt := some 5, mailboxes := [(5, { host := true, st := .active })] })] }) (canKey 1 1) 1); let p := 1; let m := 5; (s.on = true) ∧ (p < 2) ∧ ((s.chip.port p).attempt = some m)) ∧
    (let s : State := onChip (fun c => Chip.dset ({ c with straps := { ident := 5 }, can := [(1, { joined := true })] }) (canKey 1 1) 1); let p := 1; let f := ({ ide := false, ident := 3, fdf := false, brs := false, esi := false, rtr := false, data := [1] } : CanFrame); (s.on = true) ∧ (p < 2) ∧ (s.chip.onBus p = true) ∧ (f.rtr = false) ∧ (s.chip.isRequest p f = false) ∧ ((s.chip.heard p).isRequest p f = false) ∧ (((s.chip.heard p).isMarker p f = false ∨ (s.chip.heard p).dbool (canKey p 17) = true))) ∧
    (let s : State := onChip (fun c => Chip.dset (Chip.dset ({ c with straps := { ident := 5 }, can := [(1, { joined := true })] }) (canKey 1 1) 1) (canKey 1 17) 0); let p := 1; let f := ({ ide := false, ident := 0x0A0, fdf := false, brs := false, esi := false, rtr := false, data := [1] } : CanFrame); (s.on = true) ∧ (p < 2) ∧ (s.chip.onBus p = true) ∧ (f.rtr = false) ∧ (s.chip.isRequest p f = false) ∧ ((s.chip.heard p).isRequest p f = false) ∧ ((s.chip.heard p).isMarker p f = true) ∧ ((s.chip.heard p).dbool (canKey p 17) = false)) ∧
    (let s : State := onChip (fun c => Chip.dset ({ c with straps := { ident := 5 }, can := [(1, { joined := true })] }) (canKey 1 1) 1); let p := 1; let f := ({ ide := false, ident := 3, fdf := false, brs := false, esi := false, rtr := true, data := [1] } : CanFrame); (s.on = true) ∧ (p < 2) ∧ (s.chip.onBus p = true) ∧ (s.chip.isRequest p f = false) ∧ (f.rtr = true)) ∧
    (let s : State := onChip (fun c => Chip.dset ({ c with straps := { ident := 5 }, can := [(1, { joined := true })] }) (canKey 1 1) 1); let p := 1; (s.on = true) ∧ (p < 2)) ∧
    (let s : State := onChip (fun c => Chip.dset ({ c with straps := { ident := 5 }, can := [(1, { joined := true })] }) (canKey 1 1) 1); let p := 1; let value := 2; (s.on = true) ∧ (p < 2) ∧ (1 < value)) := by
  exact ⟨by decide, by decide, by decide, by decide, by decide, by decide, by decide, by decide, by decide, by decide, by decide, by decide⟩

theorem test_canBusCommandsComplete_hypotheses_2 :
    (let s : State := onChip (fun c => Chip.dset (Chip.dset ({ c with straps := { ident := 5 }, can := [(1, { joined := true })] }) (canKey 1 1) 1) (canKey 1 16) 10); let p := 1; (s.on = true) ∧ (p < 2) ∧ (s.chip.canServes p = true) ∧ (s.chip.dget (canKey p 16) ≠ 0) ∧ (s.chip.beatDue p = true)) ∧
    (let s : State := onChip (fun c => Chip.dset ({ c with straps := { ident := 5 }, can := [(1, { joined := true })] }) (canKey 1 1) 1); let p := 1; let amount := 8; (s.on = true) ∧ (p < 2) ∧ (s.chip.onBus p = true)) ∧
    (let s : State := onChip (fun c => Chip.dset (Chip.dset ({ c with straps := { ident := 5 }, can := [(1, { joined := true })] }) (canKey 1 1) 1) (canKey 1 14) 256); let p := 1; (s.on = true) ∧ (p < 2) ∧ (s.chip.onBus p = true) ∧ (s.chip.dget (canKey p 14) = 256)) ∧
    (let s : State := onChip (fun c => Chip.dset (Chip.dset ({ c with now := 10000000, can := [(1, { joined := true, recovering := true, recovery := 100 })] }) (canKey 1 1) 1) (canKey 1 13) 3); let p := 1; let count := 28; (s.on = true) ∧ (p < 2) ∧ (s.chip.dget (canKey p 13) = 3) ∧ ((s.chip.port p).recovering = true) ∧ (128 ≤ (s.chip.port p).recovery + count) ∧ (128 * Nat.max 1 (s.chip.elevenBits p) ≤ s.chip.now - (s.chip.port p).recoverAt)) ∧
    (let s : State := onChip (fun c => Chip.dset (Chip.dset ({ c with now := 10000000, can := [(1, { joined := true, recovering := true, recovery := 100 })] }) (canKey 1 1) 1) (canKey 1 13) 3); let p := 1; let count := 27; (s.on = true) ∧ (p < 2) ∧ (s.chip.dget (canKey p 13) = 3) ∧ ((s.chip.port p).recovering = true) ∧ (((s.chip.recessive p count).port p).recovery < 128)) := by
  exact ⟨by decide, by decide, by decide, by decide, by decide⟩

theorem test_ringsAndCompletionsComplete_hypotheses_1 :
    (let s : State := onWith {}; let v := 0; let tail := 16; let written := [(0x1000, [1, 2])]; (s.on = true) ∧ ((s.chip.hostWrites written).ownsBlock v = true) ∧ (tail ≤ 0xFFFF) ∧ ((tail + 0x10000 - (s.chip.voice v).cmdHead % 0x10000) % 0x10000 ≤ 2 ^ (s.chip.voice v).cmdLog2)) ∧
    (let s : State := onWith {}; let v := 0; let tail := 17; let written := []; (s.on = true) ∧ ((s.chip.hostWrites written).ownsBlock v = true) ∧ (tail ≤ 0xFFFF) ∧ (2 ^ (s.chip.voice v).cmdLog2 < (tail + 0x10000 - (s.chip.voice v).cmdHead % 0x10000) % 0x10000)) ∧
    (let s : State := vox { cplTail := 3 }; let v := 0; let head := 3; (s.on = true) ∧ (s.chip.ownsBlock v = true) ∧ (head ≤ 0xFFFF) ∧ (((s.chip.voice v).cplTail + 0x10000 - head) % 0x10000 ≤ 2 ^ (s.chip.voice v).cplLog2)) ∧
    (let s : State := vox { cplTail := 3 }; let v := 0; let head := 4; (s.on = true) ∧ (s.chip.ownsBlock v = true) ∧ (head ≤ 0xFFFF) ∧ (2 ^ (s.chip.voice v).cplLog2 < ((s.chip.voice v).cplTail + 0x10000 - head) % 0x10000)) ∧
    (let s : State := onWith {}; let v := 0; let w := 0x10011; (s.on = true) ∧ (s.chip.ownsBlock v = true) ∧ (0xFFFF < w)) ∧
    (let s : State := vox { cmdTail := 3 }; let v := 0; (s.on = true) ∧ (s.chip.ownsBlock v = true) ∧ ((s.chip.voice v).mayEnable = true) ∧ ((s.chip.keep v).notice = false)) ∧
    (let s : State := onChip (fun c => c.setKeep 0 { notice := true }); let v := 0; (s.on = true) ∧ (s.chip.ownsBlock v = true) ∧ ((s.chip.voice v).mayEnable = true) ∧ ((s.chip.keep v).notice = true)) ∧
    (let s : State := vox { state := .active }; let v := 0; (s.on = true) ∧ (s.chip.ownsBlock v = true) ∧ ((s.chip.voice v).state = .active)) ∧
    (let s : State := vox { state := .draining }; let v := 0; (s.on = true) ∧ (v < 16) ∧ ((s.chip.voice v).state = .draining) ∧ ((s.chip.voice v).resetDrain = false) ∧ (s.chip.ringEmpty v = true)) ∧
    (let s : State := adm 1 []; let v := 1; (s.on = true) ∧ (v < 16) ∧ ((s.chip.voice v).resetDrain = false) ∧ (s.chip.ringEmpty v = false)) ∧
    (let s : State := vox { state := .draining, resetDrain := true }; let v := 0; (s.on = true) ∧ (v < 16) ∧ ((s.chip.voice v).state = .draining) ∧ ((s.chip.voice v).resetDrain = true) ∧ (s.chip.engine ≠ .hold) ∧ ((v ≠ 15 ∨ s.chip.usb.ringOn = false)) ∧ ((s.chip.tunnel v).opened = false)) ∧
    (let s : State := vox { dictAddr := 0x10000100 }; let v := 0; let idx := 0x1000; let sub := 1; (s.on = true) ∧ (s.chip.ownsBlock v = true) ∧ ((s.chip.voice v).dictBusy = false) ∧ (s.chip.silent = false) ∧ (idx = (s.chip.voice v).dictAddr / 0x10000) ∧ (sub = (s.chip.voice v).dictAddr / 0x100 % 0x100) ∧ ((s.chip.dictRead v idx sub).1 = 0)) := by
  exact ⟨by decide, by decide, by decide, by decide, by decide, by decide, by decide, by decide, by decide, by decide, by decide, by decide⟩

theorem test_ringsAndCompletionsComplete_hypotheses_2 :
    (let s : State := vox { dictAddr := 0x0FFF0100 }; let v := 0; let idx := 0x0FFF; let sub := 1; (s.on = true) ∧ (s.chip.ownsBlock v = true) ∧ ((s.chip.voice v).dictBusy = false) ∧ (s.chip.silent = false) ∧ (idx = (s.chip.voice v).dictAddr / 0x10000) ∧ (sub = (s.chip.voice v).dictAddr / 0x100 % 0x100) ∧ ((s.chip.dictRead v idx sub).1 ≠ 0)) ∧
    (let s : State := vox { dictAddr := 0x10000100 }; let v := 0; let idx := 0x1000; let sub := 1; (s.on = true) ∧ (s.chip.ownsBlock v = true) ∧ ((s.chip.voice v).dictBusy = false) ∧ (s.chip.silent = false) ∧ (idx = (s.chip.voice v).dictAddr / 0x10000) ∧ (sub = (s.chip.voice v).dictAddr / 0x100 % 0x100) ∧ ((s.chip.dictDescribe v idx sub).1 = 0)) ∧
    (let s : State := vox { dictAddr := 0x0FFF0100 }; let v := 0; let idx := 0x0FFF; let sub := 1; (s.on = true) ∧ (s.chip.ownsBlock v = true) ∧ ((s.chip.voice v).dictBusy = false) ∧ (s.chip.silent = false) ∧ (idx = (s.chip.voice v).dictAddr / 0x10000) ∧ (sub = (s.chip.voice v).dictAddr / 0x100 % 0x100) ∧ ((s.chip.dictDescribe v idx sub).1 ≠ 0)) ∧
    (let s : State := vox {}; let v := 0; (s.on = true) ∧ (s.turn v ⟨1, 0⟩ = true) ∧ (s.chip.ownsBlock v = true) ∧ ((s.chip.voice v).dictBusy = false) ∧ (s.chip.silent = false)) ∧
    (let s : State := vox { dictBusy := true }; let v := 0; (s.on = true) ∧ (s.chip.ownsBlock v = true) ∧ ((s.chip.voice v).dictBusy = true)) ∧
    (let s : State := vox { dictBusy := true }; let v := 0; (s.on = true) ∧ (s.turn v ⟨1, 0⟩ = true) ∧ (s.chip.ownsBlock v = true) ∧ ((s.chip.voice v).dictBusy = true)) ∧
    (let s : State := vox { dictBusy := true }; let v := 0; (s.on = true) ∧ (s.chip.ownsBlock v = true) ∧ ((s.chip.voice v).dictBusy = true)) ∧
    (let s : State := vox { intPending := 5 }; let v := 0; let value := 4; (s.on = true) ∧ (s.chip.ownsBlock v = true) ∧ (value ≤ 0xFF)) ∧
    (let s : State := vox { state := .active, cpl := [{ kind := .command, opcode := 9 }] }; let v := 0; let k := ({ kind := .command, opcode := 9 } : Completion); let rest := ([] : List Completion); (s.on = true) ∧ (v < 16) ∧ ((s.chip.voice v).cpl = k :: rest) ∧ ((s.chip.voice v).state ≠ .idle) ∧ (s.chip.engineRing v = false) ∧ ((s.chip.voice v).cplFull = false) ∧ ((s.chip.voice v).waiting = [])) ∧
    (let s : State := vox { state := .active, cplTail := 16, cpl := [{ kind := .command, opcode := 9 }] }; let v := 0; let k := ({ kind := .command, opcode := 9 } : Completion); let rest := ([] : List Completion); (s.on = true) ∧ (v < 16) ∧ ((s.chip.voice v).cpl = k :: rest) ∧ ((s.chip.voice v).state ≠ .idle) ∧ (s.chip.engineRing v = false) ∧ (k.kind = .command) ∧ (((s.chip.voice v).cplFull = true ∨ (s.chip.voice v).waiting ≠ []))) ∧
    (let s : State := onChip (fun c => c.setVoice 15 { state := .active, cpl := [{ kind := .command, opcode := 9 }] }); let v := 15; let k := ({ kind := .command, opcode := 9 } : Completion); let rest := ([] : List Completion); (s.on = true) ∧ (v < 16) ∧ ((s.chip.voice v).cpl = k :: rest) ∧ ((s.chip.voice v).state ≠ .idle) ∧ (s.chip.engineRing v = true)) ∧
    (let s : State := vox { state := .active, cplTail := 16, cpl := [{ kind := .cueSignal }] }; let v := 0; let k := ({ kind := .cueSignal } : Completion); let rest := ([] : List Completion); (s.on = true) ∧ (v < 16) ∧ ((s.chip.voice v).cpl = k :: rest) ∧ ((s.chip.voice v).state ≠ .idle) ∧ (s.chip.engineRing v = false) ∧ (k.kind ≠ .command) ∧ ((s.chip.voice v).cplFull = true)) := by
  exact ⟨by decide, by decide, by decide, by decide, by decide, by decide, by decide, by decide, by decide, by decide, by decide, by decide⟩

theorem test_ringsAndCompletionsComplete_hypotheses_3 :
    (let s : State := vox { waiting := [{ kind := .command, opcode := 9 }] }; let v := 0; let k := ({ kind := .command, opcode := 9 } : Completion); let rest := ([] : List Completion); (s.on = true) ∧ (v < 16) ∧ ((s.chip.voice v).waiting = k :: rest) ∧ ((s.chip.voice v).cplFull = false)) ∧
    (let s : State := vox { cplTail := 16 }; let v := 0; (s.on = true) ∧ (v < 16) ∧ ((s.chip.voice v).cplFull = true)) ∧
    (let s : State := vox { waitMsg := [1], intCtrl := 0x10000 }; let v := 0; let vector := 1; (s.on = true) ∧ (v < 16) ∧ (vector ∈ (s.chip.voice v).waitMsg) ∧ (bit (s.chip.voice v).intCtrl 16 = true)) := by
  exact ⟨by decide, by decide, by decide⟩

theorem test_voiceCommandsComplete_hypotheses_1 :
    (let s : State := onChip (fun c => c.setVoice 13 { state := .active, ringEnable := true, cmdTail := 1 }); let v := 13; let b := List.replicate 64 0; (s.on = true) ∧ (s.chip.admits = true) ∧ (((List.range 16).map (fun k => (s.chip.countWaits.arbiter + k) % 16)).find? (fun v => (s.chip.countWaits.readyHead v).isSome) = some v) ∧ (s.chip.countWaits.readyHead v = some b)) ∧
    (let s : State := adm 9 ([]) (id); let v := 1; let a := (⟨7, leBytes 8 9 ++ [], 0⟩ : Admitted); (s.on = true) ∧ (v < 16) ∧ (s.chip.admits = true) ∧ ((s.chip.voice v).admitted = some a) ∧ (a.opcode = 9)) ∧
    (let s : State := vox { fence := some { kind := .command, opcode := 9 } }; let v := 0; let k := ({ kind := .command, opcode := 9 } : Completion); (s.on = true) ∧ (v < 16) ∧ ((s.chip.voice v).fence = some k) ∧ (s.chip.ledger.all (fun e => !(e.voice == v && e.source == LedgerSource.ring)) = true) ∧ ((s.chip.voice v).cpl.all (fun k => k.kind != .command) = true) ∧ ((s.chip.voice v).waiting = []) ∧ (s.chip.commandWaits v = false)) ∧
    (let s : State := onChip (fun c => { c with ledger := [{ voice := 0, source := .ring, tag := 1 }] }); let v := 0; (s.on = true) ∧ (v < 16) ∧ ((s.chip.ledger.any (fun e => e.voice == v && e.source == LedgerSource.ring) = true ∨ (s.chip.voice v).waiting ≠ [] ∨ s.chip.commandWaits v = true))) ∧
    (let s : State := adm 10 ([]) (id); let v := 1; let a := (⟨7, leBytes 8 10 ++ [], 0⟩ : Admitted); (s.on = true) ∧ (v < 16) ∧ (s.chip.admits = true) ∧ ((s.chip.voice v).admitted = some a) ∧ (a.opcode = 10) ∧ (s.chip.straps.mode ≠ .mesh)) ∧
    (let s : State := adm 10 ([]) (fun c => { c with straps := { mode := .mesh } }.dset (ent 0x4830 1) 3); let v := 1; let a := (⟨7, leBytes 8 10 ++ [], 0⟩ : Admitted); let c1 := (s.chip.takeUp v).dinc (ent 0x4830 4); let fate := Fate.gone; let c3 := { c1 with mesh := { c1.mesh with waits := c1.mesh.waits ++ [⟨v, { kind := .command, tag := a.tag, opcode := 10, cookie := a.cookie, irq := a.irq, holds := true }, a.arg 8 4, s.chip.dget (ent 0x4830 1)⟩] } }; (s.on = true) ∧ (v < 16) ∧ (s.chip.admits = true) ∧ ((s.chip.voice v).admitted = some a) ∧ (a.opcode = 10) ∧ (s.chip.straps.mode = .mesh) ∧ (s.chip.dget (ent 0x4830 1) ≠ 0xFFFF) ∧ (c1 = (s.chip.takeUp v).dinc (ent 0x4830 4)) ∧ (Chip.route { c1 with mesh := { c1.mesh with waits := c1.mesh.waits ++ [⟨v, { kind := .command, tag := a.tag, opcode := 10, cookie := a.cookie, irq := a.irq, holds := true }, a.arg 8 4, s.chip.dget (ent 0x4830 1)⟩] } } { dest := s.chip.dget (ent 0x4830 1), src := s.chip.address.getD 0, slice := if v = 0 ∧ s.chip.onTunnel 0 then 0xFF else s.chip.slice, class_ := 0, ptype := 2, hops := 0, exit := 0xFF, entry := 0xFF, tag := 0, arg := a.arg 8 4, payload := [], input := 6 } = (c3, fate))) ∧
    (let s : State := adm 4 (leBytes 4 5 ++ [1, 0xFF]) (fun c => c.setTensor 5 { owner := 1, bill := 1, size := 4096 }); let v := 1; let a := (⟨7, leBytes 8 4 ++ leBytes 4 5 ++ [1, 0xFF], 0⟩ : Admitted); let x := ({ owner := 1, bill := 1, size := 4096 } : Tensor); let kind := MoveKind.toHome; (s.on = true) ∧ (v < 16) ∧ (s.chip.admits = true) ∧ ((s.chip.voice v).admitted = some a) ∧ (a.opcode = 4) ∧ (s.chip.tensor? (a.arg 8 4) = some x) ∧ (x.moveKind (a.arg 0x0C 1) (a.arg 0x0D 1) (a.arg 0x10 8) = some kind) ∧ (s.chip.moveCheck v (a.arg 8 4) (a.arg 0x0C 1) (a.arg 0x0D 1) (a.arg 0x10 8) a.born = 0)) ∧
    (let s : State := adm 4 ([]) (id); let v := 1; let a := (⟨7, leBytes 8 4 ++ [], 0⟩ : Admitted); (s.on = true) ∧ (v < 16) ∧ (s.chip.admits = true) ∧ ((s.chip.voice v).admitted = some a) ∧ (a.opcode = 4) ∧ (s.chip.moveCheck v (a.arg 8 4) (a.arg 0x0C 1) (a.arg 0x0D 1) (a.arg 0x10 8) a.born ≠ 0)) ∧
    (let s : State := adm 5 (leBytes 4 5 ++ [1, 1]) (fun c => c.setTensor 5 { owner := 1, bill := 1, size := 4096 }); let v := 1; let a := (⟨7, leBytes 8 5 ++ leBytes 4 5 ++ [1, 1], 0⟩ : Admitted); let x := ({ owner := 1, bill := 1, size := 4096 } : Tensor); let tier := 1; (s.on = true) ∧ (v < 16) ∧ (s.chip.admits = true) ∧ ((s.chip.voice v).admitted = some a) ∧ (a.opcode = 5) ∧ (s.chip.tensor? (a.arg 8 4) = some x) ∧ (s.chip.writeCheck v (a.arg 8 4) = 0) ∧ (tier = a.arg 0x0C 1) ∧ (tier ≤ 2) ∧ (a.arg 0x0D 1 = 1) ∧ ((x.home = tier ∨ x.work = tier)) ∧ ((x.pinTier = 0xFF ∨ x.pinTier = tier))) ∧
    (let s : State := adm 5 (leBytes 4 5 ++ [1, 0]) (fun c => c.setTensor 5 { owner := 1, bill := 1, size := 4096, pinTier := 1 }); let v := 1; let a := (⟨7, leBytes 8 5 ++ leBytes 4 5 ++ [1, 0], 0⟩ : Admitted); let x := ({ owner := 1, bill := 1, size := 4096, pinTier := 1 } : Tensor); (s.on = true) ∧ (v < 16) ∧ (s.chip.admits = true) ∧ ((s.chip.voice v).admitted = some a) ∧ (a.opcode = 5) ∧ (s.chip.tensor? (a.arg 8 4) = some x) ∧ (s.chip.writeCheck v (a.arg 8 4) = 0) ∧ (a.arg 0x0C 1 ≤ 2) ∧ (a.arg 0x0D 1 = 0) ∧ (x.pinTier = a.arg 0x0C 1)) ∧
    (let s : State := adm 6 ([]) (id); let v := 1; let a := (⟨7, leBytes 8 6 ++ [], 0⟩ : Admitted); (s.on = true) ∧ (s.turn v ⟨2, 0⟩ = true) ∧ (v < 16) ∧ (s.chip.admits = true) ∧ ((s.chip.voice v).admitted = some a) ∧ (a.opcode = 6) ∧ (s.chip.armRateFree = true) ∧ (s.chip.armQueue = [])) ∧
    (let s : State := adm 6 ([]) (fun c => { c with lastArm := some 0 }); let v := 1; let a := (⟨7, leBytes 8 6 ++ [], 0⟩ : Admitted); (s.on = true) ∧ (s.turn v ⟨2, 0⟩ = true) ∧ (v < 16) ∧ (s.chip.admits = true) ∧ ((s.chip.voice v).admitted = some a) ∧ (a.opcode = 6) ∧ ((s.chip.armRateFree = false ∨ s.chip.armQueue ≠ []))) := by
  exact ⟨by decide, by decide, by decide, by decide, by decide, by decide, by decide, by decide, by decide, by decide, by decide, by decide⟩

theorem test_voiceCommandsComplete_hypotheses_2 :
    (let s : State := adm 7 (leBytes 2 300) (id); let v := 1; let a := (⟨7, leBytes 8 7 ++ leBytes 2 300, 0⟩ : Admitted); let c1 := s.chip; let gone := true; (s.on = true) ∧ (v < 16) ∧ (s.chip.admits = true) ∧ ((s.chip.voice v).admitted = some a) ∧ (a.opcode = 7) ∧ (256 ≤ a.arg 8 2) ∧ (a.arg 8 2 < 1024) ∧ (s.chip.cancelSlot v (a.arg 8 2) = some (c1, gone))) ∧
    (let s : State := adm 7 ([]) (id); let v := 1; let a := (⟨7, leBytes 8 7 ++ [], 0⟩ : Admitted); (s.on = true) ∧ (v < 16) ∧ (s.chip.admits = true) ∧ ((s.chip.voice v).admitted = some a) ∧ (a.opcode = 7) ∧ (a.arg 8 2 < 256)) ∧
    (let s : State := adm 8 ([1, 1] ++ leBytes 2 0x1000) (id); let v := 1; let a := (⟨7, leBytes 8 8 ++ [1, 1] ++ leBytes 2 0x1000, 0⟩ : Admitted); let d := (s.chip.callWake.dictRead v (a.arg 10 2) (a.arg 9 1)).2; (s.on = true) ∧ (v < 15) ∧ (s.chip.admits = true) ∧ ((s.chip.voice v).admitted = some a) ∧ (a.opcode = 8) ∧ (a.arg 8 1 = 1) ∧ (dictOpCode v a = 0) ∧ (s.chip.callWake.dictRead v (a.arg 10 2) (a.arg 9 1) = (0, d))) ∧
    (let s : State := adm 8 ([4, 1] ++ leBytes 2 0x1000) (id); let v := 1; let a := (⟨7, leBytes 8 8 ++ [4, 1] ++ leBytes 2 0x1000, 0⟩ : Admitted); let d := (s.chip.callWake.dictDescribe v (a.arg 10 2) (a.arg 9 1)).2; (s.on = true) ∧ (v < 15) ∧ (s.chip.admits = true) ∧ ((s.chip.voice v).admitted = some a) ∧ (a.opcode = 8) ∧ (a.arg 8 1 = 4) ∧ (dictOpCode v a = 0) ∧ (s.chip.callWake.dictDescribe v (a.arg 10 2) (a.arg 9 1) = (0, d))) ∧
    (let a := (⟨7, leBytes 8 8 ++ [1, 1] ++ leBytes 2 0x1000, 0⟩ : Admitted); let s : State := onChip (fun c => c.setVoice 15 { state := .active, ringEnable := true, admitted := some a }); let d := (s.chip.callWake.dictRead 15 (a.arg 10 2) (a.arg 9 1)).2; (s.on = true) ∧ (s.chip.admits = true) ∧ ((s.chip.voice 15).admitted = some a) ∧ (a.opcode = 8) ∧ (a.arg 8 1 = 1) ∧ (dictOpCode 15 a = 0) ∧ (s.chip.callWake.dictRead 15 (a.arg 10 2) (a.arg 9 1) = (0, d)) ∧ (d.length ≤ 8)) ∧
    (let s : State := adm 8 ([2, 1] ++ leBytes 2 0x1000 ++ leBytes 2 0 ++ [1]) (id); let v := 1; let a := (⟨7, leBytes 8 8 ++ [2, 1] ++ leBytes 2 0x1000 ++ leBytes 2 0 ++ [1], 0⟩ : Admitted); (s.on = true) ∧ (s.turn v ⟨2, 0⟩ = true) ∧ (v < 16) ∧ (s.chip.admits = true) ∧ ((s.chip.voice v).admitted = some a) ∧ (a.opcode = 8) ∧ (a.arg 8 1 = 2) ∧ (dictOpCode v a = 0) ∧ (a.arg 14 1 = 1)) ∧
    (let s : State := adm 8 ([2, 1] ++ leBytes 2 0x1000 ++ leBytes 4 4 ++ leBytes 8 0x1000) (id); let v := 1; let a := (⟨7, leBytes 8 8 ++ [2, 1] ++ leBytes 2 0x1000 ++ leBytes 4 4 ++ leBytes 8 0x1000, 0⟩ : Admitted); (s.on = true) ∧ (s.turn v ⟨2, 0⟩ = true) ∧ (v < 16) ∧ (s.chip.admits = true) ∧ ((s.chip.voice v).admitted = some a) ∧ (a.opcode = 8) ∧ (a.arg 8 1 = 2) ∧ (dictOpCode v a = 0) ∧ (a.arg 14 1 ≠ 1) ∧ (s.chip.remote v (a.arg 16 8) = false)) := by
  exact ⟨by decide, by decide, by decide, by decide, by decide, by decide, by decide⟩

theorem test_pcieEventsComplete_hypotheses_1 :
    (let s : State := onWith {}; (s.on = true) ∧ (s.chip.pcie.perstLow = false)) ∧
    (let s : State := onWith {}; (s.on = true)) ∧
    (let s : State := onWith {}; (s.on = true) ∧ (s.chip.isRetired .pcie = false) ∧ (s.chip.pcie.trained = true)) ∧
    (let s : State := onChip (fun c => { c with pcie := { vfEnable := true, numVfs := 12 } }); let fn := 12; (s.on = true) ∧ (s.chip.isRetired .pcie = false) ∧ (s.chip.pcie.trained = true) ∧ (s.chip.pcie.vfEnable = true) ∧ (1 ≤ fn) ∧ (fn ≤ s.chip.pcie.numVfs) ∧ (s.chip.pcie.numVfs ≤ 12)) ∧
    (let s : State := onChip (fun c => { c with pcie := { vfEnable := true, numVfs := 12 } }); (s.on = true) ∧ (s.chip.pcie.vfEnable = true)) ∧
    (let s : State := onWith {}; let n := 12; (s.on = true) ∧ (s.chip.pcie.vfEnable = false) ∧ (s.chip.isRetired .pcie = false) ∧ (n ≤ s.chip.pcie.identity.totalVfs) ∧ (s.chip.pcie.trained = true)) ∧
    (let s : State := onChip (fun c => c.setKeep 0 { binding := 0 }); let fn := 0; (s.on = true) ∧ (fn ≤ 12) ∧ (s.chip.hasFn fn = true) ∧ (s.chip.onPcie fn = true)) ∧
    (let s : State := onChip (fun c => c.setKeep 0 { binding := 5 }); let fn := 0; (s.on = true) ∧ (fn ≤ 12) ∧ (s.chip.hasFn fn = true) ∧ (s.chip.onPcie fn = false)) ∧
    (let s : State := onWith {}; let fn := 0; (s.on = true) ∧ (fn ≤ 12) ∧ (s.chip.hasFn fn = true)) ∧
    (let s : State := onChip (fun c => c.setKeep 0 { binding := 1 }); let v := 0; let cause := 3; let e := HostError.poisoned; (s.on = true) ∧ (v < 16) ∧ (1 ≤ cause) ∧ (cause ≤ 3) ∧ (s.chip.onPcie v = true) ∧ ((cause ≠ 3 ∨ s.chip.moves.find? (fun m => m.voice == v && s.chip.usesHost m) = none))) ∧
    (let s : State := onChip (fun c => c.setKeep 1 { binding := 5 }); let v := 1; let cause := 3; let e := HostError.completerAbort; (s.on = true) ∧ (v < 16) ∧ (1 ≤ cause) ∧ (cause ≤ 3) ∧ (s.chip.onPcie v = false) ∧ ((cause ≠ 3 ∨ s.chip.moves.find? (fun m => m.voice == v && s.chip.usesHost m) = none))) ∧
    (let m := ({ tensor := 5, kind := .toHost 0x1000, voice := 1 } : Move); let s : State := onChip (fun c => ({ c with moves := [m] } : Chip).setKeep 1 { binding := 1 }); let v := 1; let e := HostError.completionTimeout; (s.on = true) ∧ (v < 16) ∧ (s.chip.onPcie v = true) ∧ (s.chip.moves.find? (fun m => m.voice == v && s.chip.usesHost m) = some m)) := by
  exact ⟨by decide, by decide, by decide, by decide, by decide, by decide, by decide, by decide, by decide, by decide, by decide, by decide⟩

theorem test_usbPortCompletes_hypotheses_1 :
    (let s : State := usbOn; let u := setupOf 0xC0 1 0x1000 0x0001 255; let d := (s.chip.usbRefuse.callWake.dictRead 15 u.value (usbSub u)).2; (s.on = true) ∧ (s.chip.usbServes = true) ∧ (goodRequest u = true) ∧ (u.request = 1) ∧ (s.chip.usb.lastReq ≠ some (u, [])) ∧ (s.chip.usbRefuse.tagRepeats u = false) ∧ (s.chip.usbRefuse.callWake.dictRead 15 u.value (usbSub u) = (0, d)) ∧ (d.length ≤ u.length)) ∧
    (let s : State := usbOn; let u := setupOf 0xC0 4 0x1000 0x0001 255; let d := (s.chip.usbRefuse.callWake.dictDescribe 15 u.value (usbSub u)).2; (s.on = true) ∧ (s.chip.usbServes = true) ∧ (goodRequest u = true) ∧ (u.request = 4) ∧ (s.chip.usb.lastReq ≠ some (u, [])) ∧ (s.chip.usbRefuse.tagRepeats u = false) ∧ (s.chip.usbRefuse.callWake.dictDescribe 15 u.value (usbSub u) = (0, d)) ∧ (d.length ≤ u.length)) ∧
    (let s : State := usbOn; let u := setupOf 0x40 2 0x2D00 0x103 8; let data := leBytes 8 3; (s.on = true) ∧ (s.chip.usbServes = true) ∧ (goodRequest u = true) ∧ (u.request = 2) ∧ (data.length = u.length) ∧ (s.chip.usb.lastReq ≠ some (u, data)) ∧ (s.chip.usbRefuse.tagRepeats u = false) ∧ (s.chip.usbRefuse.writeCode 15 u.value (usbSub u) data = 0)) ∧
    (let s : State := usbOn (fun c => { c with usb := { c.usb with pendingWrite := some (setupOf 0x41 2 0x1000 1 0, []) } }); let u := setupOf 0x41 2 0x1000 1 0; let data := ([] : List Byte); (s.on = true) ∧ (s.turn 15 ⟨4, 0⟩ = true) ∧ (s.chip.usbServes = true) ∧ (s.chip.usb.pendingWrite = some (u, data)) ∧ (s.chip.usb.lastReq ≠ some (u, data)) ∧ (s.chip.usbWaits u data = false)) ∧
    (let s : State := usbOn id; let u := setupOf 0xC0 0x77 0 0 8; (s.on = true) ∧ (s.chip.usbServes = true) ∧ (definedRequest u = false)) ∧
    (let s : State := usbOn; let u := setupOf 0xC0 15 0 0 8; (s.on = true) ∧ (s.chip.usbServes = true) ∧ (goodRequest u = true) ∧ (u.request = 15)) ∧
    (let s : State := usbOn; let u := setupOf 0xC0 15 1 0 8; (s.on = true) ∧ (s.chip.usbServes = true) ∧ (goodRequest u = false) ∧ (u.request = 15)) ∧
    (let s : State := usbOn; (s.on = true) ∧ (s.chip.usb.attached = true)) ∧
    (let s : State := usbOn; (s.on = true) ∧ (s.chip.usb.attached = true) ∧ (s.chip.usb.configured = true) ∧ (s.chip.usb.ringOn = true)) ∧
    (let s : State := onChip (fun c => { c with usb := { attached := true } }); (s.on = true) ∧ (s.chip.usb.attached = true) ∧ (s.chip.usb.configured = false) ∧ (s.chip.usb.ringOn = false) ∧ ((s.chip.voice 15).state = .idle)) ∧
    (let s : State := usbOn; (s.on = true) ∧ (s.chip.usb.attached = true)) ∧
    (let s : State := onWith {}; (s.on = true)) := by
  exact ⟨by decide, by decide, by decide, by decide, by decide, by decide, by decide, by decide, by decide, by decide, by decide, by decide⟩

theorem test_usbPortCompletes_hypotheses_2 :
    (let s : State := usbOn; (s.on = true)) ∧
    (let s : State := usbOn; let r := (⟨1, 0, 0, 64, 0, 0⟩ : RecordHeader); let d := List.replicate 64 0; (s.on = true) ∧ (s.chip.usbServes = true) ∧ (s.chip.usb.halted = false) ∧ (s.chip.gov.p6 = false) ∧ (s.chip.gov.p7 = false) ∧ (goodHeader r = true) ∧ (r.rtype = 1) ∧ (d.length = r.length) ∧ (s.chip.usb.ringOn = true) ∧ ((s.chip.voice 15).queue.length < 256)) ∧
    (let s : State := usbOn (fun c => c.setTensor 5 { owner := 15, bill := 15, size := 4096 }); let r := (⟨4, 0, 0, 0, 5, 16⟩ : RecordHeader); let x := ({ owner := 15, bill := 15, size := 4096 } : Tensor); (s.on = true) ∧ (s.chip.usbServes = true) ∧ (s.chip.usb.halted = false) ∧ (s.chip.gov.p6 = false) ∧ (s.chip.gov.p7 = false) ∧ (goodHeader r = true) ∧ (r.rtype = 4) ∧ (r.length = 0) ∧ (s.chip.tensor? r.ident = some x) ∧ (s.chip.readCheck 15 r.ident = 0) ∧ (r.offset ≤ x.size) ∧ (¬ (0xFF2000 ≤ r.ident ∧ r.ident < 0xFF2008))) ∧
    (let s : State := usbOn (fun c => c.setTensor 0xFF2000 { owner := 15, bill := 15, size := 4096 }); let r := (⟨4, 0, 0, 0, 16719872, 0⟩ : RecordHeader); let x := ({ owner := 15, bill := 15, size := 4096 } : Tensor); (s.on = true) ∧ (s.chip.usbServes = true) ∧ (s.chip.usb.halted = false) ∧ (s.chip.gov.p6 = false) ∧ (s.chip.gov.p7 = false) ∧ (goodHeader r = true) ∧ (r.rtype = 4) ∧ (r.length = 0) ∧ (s.chip.tensor? r.ident = some x) ∧ (s.chip.readCheck 15 r.ident = 0) ∧ (r.offset ≤ x.size) ∧ (0xFF2000 ≤ r.ident) ∧ (r.ident < 0xFF2008)) ∧
    (let s : State := usbOn; let r := (⟨4, 0, 0, 0, 5, 16⟩ : RecordHeader); (s.on = true) ∧ (s.chip.usbServes = true) ∧ (s.chip.usb.halted = false) ∧ (s.chip.gov.p6 = false) ∧ (s.chip.gov.p7 = false) ∧ (goodHeader r = true) ∧ (r.rtype = 4) ∧ (r.length = 0) ∧ (s.chip.tensor? r.ident = none)) ∧
    (let s : State := usbOn (fun c => ((c.setTensor 5 { owner := 15, bill := 15, size := 64 }).resultSpace 5 15 (usbRun 5)).1); let r := (⟨3, 0, 0, 4, 5, 60⟩ : RecordHeader); let d := [1,2,3,4]; let x := ({ owner := 15, bill := 15, size := 64 } : Tensor); let c1 := (s.chip.resultSpace 5 15 (usbRun 5)).1; (s.on = true) ∧ (s.chip.usbServes = true) ∧ (s.chip.usb.halted = false) ∧ (s.chip.gov.p6 = false) ∧ (s.chip.gov.p7 = false) ∧ (goodHeader r = true) ∧ (r.rtype = 3) ∧ (d.length = r.length) ∧ (r.flags = 0) ∧ (s.chip.tensor? r.ident = some x) ∧ (s.chip.writeCheck 15 r.ident = 0) ∧ (s.chip.inFlight r.ident = false) ∧ (r.offset + d.length ≤ x.size) ∧ (s.chip.resultSpace r.ident 15 (usbRun r.ident) = (c1, 0)) ∧ (c1.transients.length = s.chip.transients.length)) ∧
    (let s : State := usbOn (fun c => ((c.setTensor 5 { owner := 15, bill := 15, size := 64 }).resultSpace 5 15 (usbRun 5)).1); let r := (⟨3, 1, 0, 4, 5, 60⟩ : RecordHeader); let d := [1,2,3,4]; let x := ({ owner := 15, bill := 15, size := 64 } : Tensor); let c1 := (s.chip.resultSpace 5 15 (usbRun 5)).1; let c3 := (let c2 : Chip := if c1.transients.length = s.chip.transients.length then c1 else { c1 with tier1 := c1.tier1.writeBytes (c1.usbPlace r.ident x) (c1.tensorRead x 0 x.size) }; { c2 with tier1 := c2.tier1.writeBytes (c1.usbPlace r.ident x + r.offset) d }); (s.on = true) ∧ (s.chip.usbServes = true) ∧ (s.chip.usb.halted = false) ∧ (s.chip.gov.p6 = false) ∧ (s.chip.gov.p7 = false) ∧ (goodHeader r = true) ∧ (r.rtype = 3) ∧ (d.length = r.length) ∧ (r.flags = 1) ∧ (s.chip.tensor? r.ident = some x) ∧ (s.chip.writeCheck 15 r.ident = 0) ∧ (s.chip.inFlight r.ident = false) ∧ (r.offset + d.length ≤ x.size) ∧ (s.chip.resultSpace r.ident 15 (usbRun r.ident) = (c1, 0)) ∧ (c3 = (let c2 : Chip := if c1.transients.length = s.chip.transients.length then c1 else { c1 with tier1 := c1.tier1.writeBytes (c1.usbPlace r.ident x) (c1.tensorRead x 0 x.size) }; { c2 with tier1 := c2.tier1.writeBytes (c1.usbPlace r.ident x + r.offset) d }))) ∧
    (let s : State := usbOn; let r := (⟨3, 0, 0, 4, 5, 0⟩ : RecordHeader); let d := [1,2,3,4]; (s.on = true) ∧ (s.chip.usbServes = true) ∧ (s.chip.usb.halted = false) ∧ (s.chip.gov.p6 = false) ∧ (s.chip.gov.p7 = false) ∧ (goodHeader r = true) ∧ (r.rtype = 3) ∧ (d.length = r.length) ∧ (s.chip.tensor? r.ident = none)) ∧
    (let s : State := withEntry usbOn (entEst 0 0x3000 3) 15; let r := (⟨7, 0, 0, 4, 0, 0⟩ : RecordHeader); let d := [1,2,3,4]; (s.on = true) ∧ (s.chip.usbServes = true) ∧ (s.chip.usb.halted = false) ∧ (s.chip.gov.p6 = false) ∧ (s.chip.gov.p7 = false) ∧ (goodHeader r = true) ∧ (r.rtype = 7) ∧ (d.length = r.length) ∧ (r.ident < 8) ∧ (s.chip.estVoice r.ident = 15) ∧ (r.flags = 0)) ∧
    (let s : State := withEntry usbOn (entEst 0 0x3000 3) 15; let r := (⟨7, 1, 0, 4, 0, 0⟩ : RecordHeader); let d := [1,2,3,4]; (s.on = true) ∧ (s.chip.usbServes = true) ∧ (s.chip.usb.halted = false) ∧ (s.chip.gov.p6 = false) ∧ (s.chip.gov.p7 = false) ∧ (goodHeader r = true) ∧ (r.rtype = 7) ∧ (d.length = r.length) ∧ (r.ident < 8) ∧ (s.chip.estVoice r.ident = 15) ∧ (r.flags ≠ 0)) ∧
    (let s : State := usbOn; let r := (⟨9, 0, 0, 4, 5, 0⟩ : RecordHeader); (s.on = true) ∧ (s.chip.usbServes = true) ∧ (s.chip.usb.halted = false) ∧ (s.chip.gov.p6 = false) ∧ (s.chip.gov.p7 = false) ∧ (goodHeader r = false)) ∧
    (let s : State := usbOn; (s.on = true)) := by
  exact ⟨by decide, by decide, by decide, by decide, by decide, by decide, by decide, by decide, by decide, by decide, by decide, by decide⟩

theorem test_usbPortCompletes_hypotheses_3 :
    (let s : State := usbOn; (s.on = true) ∧ (s.chip.usbServes = true)) := by
  decide

theorem test_cameraCommandsComplete_hypotheses_1 :
    (let s : State := camOnState; let link := s.chip.linkOf 0; let vc := s.chip.dget (camKey 0 4); let ch := 0; (s.live = true) ∧ (s.chip.gated = false) ∧ (s.chip.channelsOf link = [ch]) ∧ (s.chip.dget (camKey ch 4) = vc)) ∧
    (let s : State := camOnState (fun c => { c with gov := { p6 := true } }); let link := s.chip.linkOf 0; let vc := 0; let ch := 0; (s.live = true) ∧ (s.chip.gated = true) ∧ (s.chip.channelsOf link = [ch])) ∧
    (let s : State := camOnState; let link := s.chip.linkOf 0; let vc := s.chip.dget (camKey 0 4); let ch := 0; (s.live = true) ∧ (s.chip.gated = false) ∧ (s.chip.channelsOf link = [ch]) ∧ (s.chip.dget (camKey ch 4) = vc)) ∧
    (let s : State := camOnState (fun c => { c with gov := { p6 := true } }); let link := s.chip.linkOf 0; let vc := 0; let ch := 0; (s.live = true) ∧ (s.chip.gated = true) ∧ (s.chip.channelsOf link = [ch])) ∧
    (let s : State := camOnState; let link := s.chip.linkOf 0; let ch := 0; let p := (⟨0, 0x2A, [1], false, false, true⟩ : LongPacket); (s.live = true) ∧ (s.chip.channelsOf link = [ch])) ∧
    (let s : State := camOnState (fun c => (((c.dset (camKey 0 6) 4).dset (camKey 0 7) 2).dset (camKey 0 5) 0x2A).setCam 0 { current := some 0 }); let link := s.chip.linkOf 0; let ch := 0; let d := 0; let p := (⟨0, 0x2A, [1, 2, 3, 4], false, false, true⟩ : LongPacket); (s.live = true) ∧ (s.chip.channelsOf link = [ch]) ∧ (s.chip.gated = false) ∧ (p.eccMulti = false) ∧ (p.vc = s.chip.dget (camKey ch 4)) ∧ (p.format = s.chip.dget (camKey ch 5)) ∧ ((s.chip.cam ch).current = some d) ∧ (p.crcOk = true) ∧ ((unpackRow p.format p.payload).length = s.chip.camWidth ch)) ∧
    (let s : State := camOnState (fun c => (((c.dset (camKey 0 6) 4).dset (camKey 0 7) 2).dset (camKey 0 5) 0x2A).setCam 0 { current := some 0 }); let link := s.chip.linkOf 0; let ch := 0; let d := 0; let p := (⟨0, 0x2A, [1, 2, 3, 4], false, false, false⟩ : LongPacket); (s.live = true) ∧ (s.chip.channelsOf link = [ch]) ∧ (s.chip.gated = false) ∧ (p.eccMulti = false) ∧ (p.vc = s.chip.dget (camKey ch 4)) ∧ (p.format = s.chip.dget (camKey ch 5)) ∧ ((s.chip.cam ch).current = some d) ∧ (p.crcOk = false) ∧ ((unpackRow p.format p.payload).length = s.chip.camWidth ch)) ∧
    (let s : State := camOnState (fun c => (((c.dset (camKey 0 6) 4).dset (camKey 0 7) 2).dset (camKey 0 5) 0x2A).setCam 0 { current := some 0 }); let link := s.chip.linkOf 0; let ch := 0; let d := 0; let p := (⟨0, 0x2A, [1, 2, 3], false, false, true⟩ : LongPacket); (s.live = true) ∧ (s.chip.channelsOf link = [ch]) ∧ (s.chip.gated = false) ∧ (p.eccMulti = false) ∧ (p.vc = s.chip.dget (camKey ch 4)) ∧ (p.format = s.chip.dget (camKey ch 5)) ∧ ((s.chip.cam ch).current = some d) ∧ (p.crcOk = true) ∧ ((unpackRow p.format p.payload).length ≠ s.chip.camWidth ch)) ∧
    (let s : State := camOnState; let link := s.chip.linkOf 0; let ch := 0; let p := (⟨0, 0x2A, [1], false, true, true⟩ : LongPacket); (s.live = true) ∧ (s.chip.channelsOf link = [ch]) ∧ (s.chip.gated = false) ∧ (p.eccMulti = true)) ∧
    (let s : State := camOnState; let link := s.chip.linkOf 0; let ch := 0; let p := (⟨0, 0x2A, [1], false, false, true⟩ : LongPacket); (s.live = true) ∧ (s.chip.channelsOf link = [ch]) ∧ (s.chip.gated = false) ∧ (p.eccMulti = false) ∧ ((p.vc ≠ s.chip.dget (camKey ch 4) ∨ p.format ≠ s.chip.dget (camKey ch 5) ∨ (s.chip.cam ch).current = none))) ∧
    (let s : State := camOnState; let ch := 0; (s.live = true)) ∧
    (let s : State := camOnState (fun c => c.setCam 0 { asked := some ({ slot := 0, serial := 1 } : CamRun) }); let ch := 0; let r := ({ slot := 0, serial := 1 } : CamRun); (s.live = true) ∧ (s.chip.gated = false) ∧ ((s.chip.cam ch).asked = some r) ∧ (s.chip.camOn ch = true) ∧ ((s.chip.cam ch).run = none)) := by
  exact ⟨by decide, by decide, by decide, by decide, by decide, by decide, by decide, by decide, by decide, by decide, by decide, by decide⟩

theorem test_cameraCommandsComplete_hypotheses_2 :
    (let s : State := camOnState (fun c => c.setCam 0 { asked := some ({ slot := 0, serial := 1 } : CamRun), run := some ({ slot := 0, serial := 1 } : CamRun) }); let ch := 0; let r := ({ slot := 0, serial := 1 } : CamRun); (s.live = true) ∧ (s.chip.gated = false) ∧ ((s.chip.cam ch).asked = some r) ∧ (s.chip.camOn ch = true) ∧ ((s.chip.cam ch).run.isSome = true) ∧ ((s.chip.cam ch).waiting = none)) ∧
    (let s : State := camOnState (fun c => c.setCam 0 { asked := some ({ slot := 0, serial := 1 } : CamRun), run := some ({ slot := 0, serial := 1 } : CamRun), waiting := some ({ slot := 0, serial := 1 } : CamRun) }); let ch := 0; let r := ({ slot := 0, serial := 1 } : CamRun); (s.live = true) ∧ (s.chip.gated = false) ∧ ((s.chip.cam ch).asked = some r) ∧ (s.chip.camOn ch = true) ∧ ((s.chip.cam ch).run.isSome = true) ∧ ((s.chip.cam ch).waiting.isSome = true)) ∧
    (let s : State := camOnState (fun c => c.setCam 0 { waiting := some ({ slot := 0, serial := 1 } : CamRun), frames := [(0, { serial := 1, start := 0 })] }); let ch := 0; let r := ({ slot := 0, serial := 1 } : CamRun); (s.live = true) ∧ (s.chip.gated = false) ∧ ((s.chip.cam ch).waiting = some r) ∧ ((s.chip.cam ch).run = none) ∧ ((tabGet {} (s.chip.cam ch).frames r.slot).serial = r.serial)) ∧
    (let s : State := camOnState (fun c => c.setCam 0 { waiting := some ({ slot := 0, serial := 1 } : CamRun) }); let ch := 0; let r := ({ slot := 0, serial := 1 } : CamRun); (s.live = true) ∧ (s.chip.gated = false) ∧ ((s.chip.cam ch).waiting = some r) ∧ ((s.chip.cam ch).run = none) ∧ ((tabGet {} (s.chip.cam ch).frames r.slot).serial ≠ r.serial)) ∧
    (let s : State := camOnState (fun c => c.setCam 0 { run := some ({ slot := 0, serial := 1 } : CamRun), frames := [(0, { serial := 1, start := 0, ended := some 5 })] }); let ch := 0; let r := ({ slot := 0, serial := 1 } : CamRun); (s.live = true) ∧ (s.chip.gated = false) ∧ ((s.chip.cam ch).run = some r) ∧ (s.chip.camOn ch = true) ∧ (s.chip.frameThere ch r.slot r.serial = true) ∧ ((tabGet {} (s.chip.cam ch).frames r.slot).ended ≠ none)) ∧
    (let s : State := camOnState (fun c => c.setCam 0 { run := some ({ slot := 0, serial := 1 } : CamRun), frames := [(0, { serial := 1, start := 0 })] }); let ch := 0; let r := ({ slot := 0, serial := 1 } : CamRun); (s.live = true) ∧ (s.chip.gated = false) ∧ ((s.chip.cam ch).run = some r) ∧ (s.chip.camOn ch = true) ∧ (s.chip.frameThere ch r.slot r.serial = true) ∧ ((tabGet {} (s.chip.cam ch).frames r.slot).ended = none)) ∧
    (let s : State := camOnState (fun c => c.setCam 0 { run := some ({ slot := 0, serial := 1 } : CamRun) }); let ch := 0; let r := ({ slot := 0, serial := 1 } : CamRun); (s.live = true) ∧ (s.chip.gated = false) ∧ ((s.chip.cam ch).run = some r) ∧ ((s.chip.camOn ch = false ∨ s.chip.frameThere ch r.slot r.serial = false))) ∧
    (let s : State := camOnState (fun c => (({ c with epoch := { pos := { frame := 1 } } }.dset (camKey 0 34) 1).setCam 0 { named := [⟨0, 5, 8⟩], namedAt := 3 })); let ch := 0; (s.live = true) ∧ (s.chip.camOn ch = true) ∧ (s.chip.dget (camKey ch 34) = 1) ∧ (s.chip.gated = false) ∧ (s.chip.straps.mode ≠ .mesh) ∧ ((s.chip.cam ch).named ≠ []) ∧ (laterMod m32 s.chip.epoch.pos.frame ((s.chip.cam ch).namedAt / m32) = true)) ∧
    (let s : State := camOnState (fun c => (c.dset (camKey 0 34) 1).setCam 0 { virtualFrame := some 0 }); let ch := 0; let f := 0; (s.live = true) ∧ (s.chip.camOn ch = true) ∧ (s.chip.dget (camKey ch 34) = 1) ∧ (s.chip.gated = false) ∧ (s.chip.straps.mode ≠ .mesh) ∧ ((s.chip.cam ch).named = []) ∧ ((s.chip.cam ch).virtualFrame = some f)) := by
  exact ⟨by decide, by decide, by decide, by decide, by decide, by decide, by decide, by decide, by decide⟩

theorem test_inertialAndEncoderCommandsComplete_hypotheses_1 :
    (let s : State := inOnState; let ch := 0; let bs := List.replicate 16 true; let h := List.replicate 16 1; (s.live = true) ∧ (s.chip.chanOn ch = true) ∧ (s.chip.dget (inKey ch 2) = 0) ∧ (s.chip.gated = false) ∧ (bs.length = 16) ∧ (h = bs.reverse.map (fun b => if b then (1 : Int) else -1) ++ (s.chip.chan ch).comb)) ∧
    (let s : State := onChip (fun c => c.dset (spiKey 0 50) 1); let m := 0; (s.live = true) ∧ (s.chip.dget (spiKey m 50) ≠ 0) ∧ (s.chip.isRetired (.spiMaster m) = false) ∧ (s.chip.gated = false) ∧ ((s.chip.master m).running = none)) ∧
    (let s : State := onChip (fun c => (c.dset (spiKey 0 50) 1).setMaster 0 { running := some capNow }); let m := 0; (s.live = true) ∧ (s.chip.dget (spiKey m 50) ≠ 0) ∧ (s.chip.isRetired (.spiMaster m) = false) ∧ (s.chip.gated = false) ∧ ((s.chip.master m).running.isSome = true) ∧ ((s.chip.master m).waiting = none)) ∧
    (let s : State := onChip (fun c => (c.dset (spiKey 0 50) 1).setMaster 0 { running := some capNow, waiting := some capNow }); let m := 0; let old := capNow; (s.live = true) ∧ (s.chip.dget (spiKey m 50) ≠ 0) ∧ (s.chip.isRetired (.spiMaster m) = false) ∧ (s.chip.gated = false) ∧ ((s.chip.master m).running.isSome = true) ∧ ((s.chip.master m).waiting = some old)) ∧
    (let s : State := onChip (fun c => c.dset (spiKey 0 50) 0); let m := 0; (s.live = true) ∧ (s.chip.dget (spiKey m 50) = 0)) ∧
    (let s : State := onChip (fun c => c.setMaster 0 { running := some capNow }); let m := 0; let rx := [1,2,3]; let cap := capNow; (s.live = true) ∧ ((s.chip.master m).running = some cap)) ∧
    (let s : State := onChip (fun c => ({ c with gov := { p6 := true } }).setMaster 0 { running := some capNow }); let m := 0; let rx := [1,2,3]; let cap := capNow; (s.live = true) ∧ ((s.chip.master m).running = some cap) ∧ ((s.chip.master m).waiting = none) ∧ (((s.chip.dinc (spiKey m 56)).setMaster m {}).gated = true)) ∧
    (let s : State := onChip (fun c => c.setMaster 0 { running := some capNow }); let m := 0; let rx := [1,2,3]; let cap := capNow; let c1 := (s.chip.setMaster m { running := (s.chip.master m).waiting }).dinc (spiKey m 56); (s.live = true) ∧ ((s.chip.master m).running = some cap) ∧ ((s.chip.master m).waiting = none) ∧ (c1 = (s.chip.dinc (spiKey m 56)).setMaster m {}) ∧ (c1.gated = false) ∧ (c1.channelsOfMaster m = []) ∧ ((s.chip.master m).skipped = [])) ∧
    (let s : State := onChip (fun c => c.setMaster 0 { running := some capNow, waiting := some capNow }); let m := 0; let rx : List Byte := [1]; let cap := capNow; let next := capNow; let c1 := (s.chip.dinc (spiKey m 56)).startBurst m {} next; (s.live = true) ∧ ((s.chip.master m).running = some cap) ∧ ((s.chip.master m).waiting = some next) ∧ (c1 = (s.chip.dinc (spiKey m 56)).startBurst m {} next) ∧ (c1.gated = false) ∧ (c1.channelsOfMaster m = []) ∧ ((s.chip.master m).skipped = [])) ∧
    (let s : State := inOnState (fun c => c.setChan 0 { emerging := [({ value := 1, stamp := 0, period := 1, seq := 0, satOut := false, satInternal := false, held := false, stopped := false, bank := 0, settled := false } : InOut)] }); let ch := 0; let o := ({ value := 1, stamp := 0, period := 1, seq := 0, satOut := false, satInternal := false, held := false, stopped := false, bank := 0, settled := false } : InOut); let r := ([] : List InOut); (s.live = true) ∧ (s.chip.gated = false) ∧ ((s.chip.chan ch).emerging = o :: r) ∧ (s.chip.chanOn ch = true) ∧ (o.settled = false)) ∧
    (let s : State := inOnState (fun c => c.setChan 0 { emerging := [({ value := 1, stamp := 0, period := 1, seq := 0, satOut := false, satInternal := false, held := false, stopped := false, bank := 0, settled := true } : InOut)] }); let ch := 0; let o := ({ value := 1, stamp := 0, period := 1, seq := 0, satOut := false, satInternal := false, held := false, stopped := false, bank := 0, settled := true } : InOut); let r := ([] : List InOut); (s.live = true) ∧ (s.chip.gated = false) ∧ ((s.chip.chan ch).emerging = o :: r) ∧ (s.chip.chanOn ch = true) ∧ (o.settled = true)) ∧
    (let s : State := inOnState (fun c => (c.dset (inKey 0 2) 2).setChan 0 { virt := [⟨0, 5, 1⟩] }); let ch := 0; let x := (⟨0, 5, 1⟩ : VirtualSample); let r := ([] : List VirtualSample); (s.live = true) ∧ ((s.chip.chan ch).virt = x :: r) ∧ (s.chip.chanOn ch = true) ∧ (s.chip.dget (inKey ch 2) = 2) ∧ (s.chip.gated = false) ∧ (reached s.chip.posNat x.pos = true) ∧ (-0x800000 ≤ toSigned 32 x.value) ∧ (toSigned 32 x.value ≤ 0x7FFFFF)) := by
  exact ⟨by decide, by decide, by decide, by decide, by decide, by decide, by decide, by decide, by decide, by decide, by decide, by decide⟩

theorem test_inertialAndEncoderCommandsComplete_hypotheses_2 :
    (let s : State := inOnState (fun c => (c.dset (inKey 0 2) 2).setChan 0 { virt := [⟨1, 5, 1⟩] }); let ch := 0; let x := (⟨1, 5, 1⟩ : VirtualSample); let r := ([] : List VirtualSample); (s.live = true) ∧ ((s.chip.chan ch).virt = x :: r) ∧ (reached s.chip.posNat x.pos = false)) ∧
    (let s : State := onChip (fun c => c.setGrp 3 { loading := some [1] }); let g := 3; let vs := [1]; (s.live = true) ∧ ((s.chip.grp g).loading = some vs) ∧ ((s.chip.grp g).active = 0)) ∧
    (let s : State := onChip (fun c => c.setGrp 3 { active := 1, loading := some [1] }); let g := 3; let vs := [1]; (s.live = true) ∧ ((s.chip.grp g).loading = some vs) ∧ ((s.chip.grp g).active ≠ 0)) ∧
    (let s : State := onWith {}; (s.live = true)) ∧
    (let s : State := onChip (fun c => c.dset (encKey 0 1) 1); let e := 0; let a := true; let b := false; (s.live = true) ∧ (e < 4) ∧ (s.chip.encCounts e = true) ∧ ((quadrature a b + 4 - quadrature (s.chip.board.encLevels e).1 (s.chip.board.encLevels e).2) % 4 = 1) ∧ (s.chip.dbool (encKey e 2) = false)) ∧
    (let s : State := onChip (fun c => c.dset (encKey 0 1) 1); let e := 0; let a := false; let b := true; (s.live = true) ∧ (e < 4) ∧ (s.chip.encCounts e = true) ∧ ((quadrature a b + 4 - quadrature (s.chip.board.encLevels e).1 (s.chip.board.encLevels e).2) % 4 = 3) ∧ (s.chip.dbool (encKey e 2) = false)) ∧
    (let s : State := onChip (fun c => c.dset (encKey 0 1) 1); let e := 0; let a := true; let b := true; (s.live = true) ∧ (e < 4) ∧ (s.chip.encCounts e = true) ∧ ((quadrature a b + 4 - quadrature (s.chip.board.encLevels e).1 (s.chip.board.encLevels e).2) % 4 = 2)) ∧
    (let s : State := onWith {}; let e := 0; let a := true; let b := true; (s.live = true) ∧ (e < 4) ∧ (s.chip.encCounts e = false)) ∧
    (let s : State := onChip (fun c => ((c.dset (encKey 0 1) 1).dset (encKey 0 3) 1).dset (encKey 0 4) 0); let e := 0; (s.live = true) ∧ (e < 4) ∧ (s.chip.dbool (encKey e 1) = true) ∧ (s.chip.encAlive e = true) ∧ (s.chip.dget (encKey e 3) = 1) ∧ ((s.chip.dget (encKey e 4) ≠ 1 ∨ s.chip.board.encLevels e = (true, true))) ∧ (s.chip.gov.p6 = false) ∧ (s.chip.gov.p7 = false)) ∧
    (let s : State := onChip (fun c => ((c.dset (encKey 0 1) 1).dset (encKey 0 3) 2).dset (encKey 0 4) 0); let e := 0; (s.live = true) ∧ (e < 4) ∧ (s.chip.dbool (encKey e 1) = true) ∧ (s.chip.encAlive e = true) ∧ (s.chip.dget (encKey e 3) = 2) ∧ ((s.chip.dget (encKey e 4) ≠ 1 ∨ s.chip.board.encLevels e = (true, true))) ∧ (s.chip.gov.p6 = false) ∧ (s.chip.gov.p7 = false)) := by
  exact ⟨by decide, by decide, by decide, by decide, by decide, by decide, by decide, by decide, by decide, by decide⟩

theorem test_estimatorCommandsComplete_hypotheses_1 :
    (let s : State := estWith {}; let i := 0; (s.live = true) ∧ (i < 8) ∧ ((((s.chip.takeInjected i).sendClosure i).est i).mode ≠ .init) ∧ ((((s.chip.takeInjected i).sendClosure i).est i).mode ≠ .tracking) ∧ ((((s.chip.takeInjected i).sendClosure i).est i).mode ≠ .lost)) ∧
    (let s : State := estWith { mode := .tracking }; let i := 0; (s.live = true) ∧ (i < 8) ∧ ((((s.chip.takeInjected i).sendClosure i).est i).mode = .tracking) ∧ (((s.chip.takeInjected i).sendClosure i).computeGated = false) ∧ ((((s.chip.takeInjected i).sendClosure i).est i).cur = none)) ∧
    (let s : State := estWith { mode := .tracking, cur := some est0 }; let i := 0; let f := est0; (s.live = true) ∧ (i < 8) ∧ ((((s.chip.takeInjected i).sendClosure i).est i).mode = .tracking) ∧ (((s.chip.takeInjected i).sendClosure i).computeGated = false) ∧ ((((s.chip.takeInjected i).sendClosure i).est i).cur = some f) ∧ (f.stage = .describe)) ∧
    (let s : State := estWith { closure := some ⟨1, 2, 0, [], 0, 1, 0, true, some 9⟩ }; let i := 0; let tok := 9; let q := (⟨1, 2, 0, [], 0, 1, 0, true, some 9⟩ : EstClosure); (s.live = true) ∧ (i < 8) ∧ ((s.chip.est i).closure = some q) ∧ (reached s.chip.posNat q.due = true) ∧ (q.solved = some tok)) ∧
    (let s : State := estWith { closure := some ⟨1, 2, 0, [], 0, 1, 0, true, none⟩ }; let i := 0; let q := (⟨1, 2, 0, [], 0, 1, 0, true, none⟩ : EstClosure); (s.live = true) ∧ (i < 8) ∧ ((s.chip.est i).closure = some q) ∧ (reached s.chip.posNat q.due = true) ∧ (q.solved = none)) ∧
    (let s : State := estWith { closure := some ⟨1, 2, 1, [], 0, 1, 0, true, none⟩ }; let i := 0; let q := (⟨1, 2, 1, [], 0, 1, 0, true, none⟩ : EstClosure); (s.live = true) ∧ (i < 8) ∧ ((s.chip.est i).closure = some q) ∧ (reached s.chip.posNat q.due = false)) ∧
    (let s : State := estWith { snapshot := some [1] }; let i := 0; let bs := [1]; (s.live = true) ∧ (i < 8) ∧ ((s.chip.est i).snapshot = some bs)) := by
  exact ⟨by decide, by decide, by decide, by decide, by decide, by decide, by decide⟩

theorem test_solverAndArrayCommandsComplete_hypotheses_1 :
    (let s : State := laneWith { tab := 5, voice := 1 }; let l := 0; let r := ({ tab := 5, voice := 1 } : SolveReq); (s.live = true) ∧ (s.chip.computeGated = false) ∧ (s.chip.isRetired (.lane l) = false) ∧ ((s.chip.lane l).running = some r) ∧ (r.started = false) ∧ (r.est = none)) ∧
    (let s : State := laneWith { tab := 5, voice := 1, est := some (0, .start, 3) }; let l := 0; let r := ({ tab := 5, voice := 1, est := some (0, .start, 3) } : SolveReq); (s.live = true) ∧ (s.chip.computeGated = false) ∧ (s.chip.isRetired (.lane l) = false) ∧ ((s.chip.lane l).running = some r) ∧ (r.started = false) ∧ (r.est ≠ none)) ∧
    (let s : State := laneWith { tab := 5, voice := 1, started := true, result := 6 } (fun c => (c.setTablature 5 { voice := 1, lane := 0, image := [], slots := 0, overflow := 0 }).setTensor 6 { owner := 1, bill := 1, size := 64 }); let l := 0; let r := ({ tab := 5, voice := 1, started := true, result := 6 } : SolveReq); let x := ({ voice := 1, lane := 0, image := [], slots := 0, overflow := 0 } : Tablature); (s.live = true) ∧ ((s.chip.lane l).running = some r) ∧ (s.chip.canWrite l r = true) ∧ (r.est = none) ∧ (s.chip.tablature? r.tab = some x) ∧ (s.chip.writeCheck r.voice r.result = 0)) ∧
    (let s : State := laneWith { tab := 5, voice := 1, started := true, result := 6 } (fun c => c.setTablature 5 { voice := 1, lane := 0, image := [], slots := 0, overflow := 0 }); let l := 0; let r := ({ tab := 5, voice := 1, started := true, result := 6 } : SolveReq); let x := ({ voice := 1, lane := 0, image := [], slots := 0, overflow := 0 } : Tablature); (s.live = true) ∧ ((s.chip.lane l).running = some r) ∧ (s.chip.canWrite l r = true) ∧ (r.est = none) ∧ (s.chip.tablature? r.tab = some x) ∧ (s.chip.writeCheck r.voice r.result ≠ 0)) ∧
    (let r := ({ tab := 5, voice := 1, started := true, est := some (0, .window, 3) } : SolveReq); let s : State := laneWith r; let l := 0; let i := 0; let kind := EstSolve.window; let f := 3; (s.live = true) ∧ ((s.chip.lane l).running = some r) ∧ (s.chip.canWrite l r = true) ∧ (r.est = some (i, kind, f))) ∧
    (let s : State := laneWith { tab := 5, voice := 1 }; let l := 0; let r := ({ tab := 5, voice := 1 } : SolveReq); (s.live = true) ∧ ((s.chip.lane l).running = some r) ∧ (s.chip.canWrite l r = false)) ∧
    (let s : State := laneWith { tab := 5, voice := 1, est := some (0, .window, 3), started := true, iterations := 2 }; let l := 0; let r := ({ tab := 5, voice := 1, est := some (0, .window, 3), started := true, iterations := 2 } : SolveReq); (s.live = true) ∧ ((s.chip.lane l).running = some r) ∧ (r.est.isSome = true) ∧ (r.started = true) ∧ (s.chip.computeGated = false) ∧ (r.evals + 1 < r.iterations)) ∧
    (let s : State := laneWith { tab := 5, voice := 1 }; let l := 0; let r := ({ tab := 5, voice := 1 } : SolveReq); (s.live = true) ∧ ((s.chip.lane l).running = some r) ∧ (r.iterations ≤ r.evals + 1)) ∧
    (let s : State := admC 1 (leBytes 4 5) (fun c => (c.setTensor 5 { owner := 1, bill := 1, size := 64 }).setPassage 5 { voice := 1, gen := 1, image := [] }); let v := 1; let a := (⟨7, leBytes 8 1 ++ leBytes 4 5, 0⟩ : Admitted); (s.live = true) ∧ (v < 16) ∧ (s.chip.admits = true) ∧ ((s.chip.voice v).admitted = some a) ∧ (a.opcode = 1) ∧ (s.chip.passageCheck v a = 0)) ∧
    (let s : State := admC 1 []; let v := 1; let a := (⟨7, leBytes 8 1, 0⟩ : Admitted); (s.live = true) ∧ (v < 16) ∧ (s.chip.admits = true) ∧ ((s.chip.voice v).admitted = some a) ∧ (a.opcode = 1) ∧ (s.chip.passageCheck v a ≠ 0)) ∧
    (let s : State := admC 2 (leBytes 4 5 ++ [0xFF, 1] ++ leBytes 10 0 ++ leBytes 4 0 ++ leBytes 4 6) (fun c => ((c.setTensor 5 { owner := 1, bill := 1, size := 64 }).setTensor 6 { owner := 1, bill := 1, size := 64 }).setTablature 5 { voice := 1, lane := 0, image := [], slots := 0, overflow := 0 }); let v := 1; let a := (⟨7, leBytes 8 2 ++ (leBytes 4 5 ++ [0xFF, 1] ++ leBytes 10 0 ++ leBytes 4 0 ++ leBytes 4 6), 0⟩ : Admitted); (s.live = true) ∧ (v < 16) ∧ (s.chip.admits = true) ∧ ((s.chip.voice v).admitted = some a) ∧ (a.opcode = 2) ∧ (s.chip.solveCheck v a = 0) ∧ ((a.arg 0x10 8 = 0 ∨ s.chip.ledgerRoom v = true))) ∧
    (let s : State := admC 2 []; let v := 1; let a := (⟨7, leBytes 8 2, 0⟩ : Admitted); (s.live = true) ∧ (v < 16) ∧ (s.chip.admits = true) ∧ ((s.chip.voice v).admitted = some a) ∧ (a.opcode = 2) ∧ (s.chip.solveCheck v a ≠ 0)) := by
  exact ⟨by decide, by decide, by decide, by decide, by decide, by decide, by decide, by decide, by decide, by decide, by decide, by decide⟩

theorem test_solverAndArrayCommandsComplete_hypotheses_2 :
    (let s : State := admC 3 (leBytes 4 5 ++ [0xFF, 1] ++ leBytes 10 0 ++ leBytes 4 0 ++ leBytes 4 6) (fun c => ((c.setTensor 5 { owner := 1, bill := 1, size := 64 }).setTensor 6 { owner := 1, bill := 1, size := 64 }).setTablature 5 { voice := 1, lane := 0, image := [], slots := 0, overflow := 0 }); let v := 1; let a := (⟨7, leBytes 8 3 ++ (leBytes 4 5 ++ [0xFF, 1] ++ leBytes 10 0 ++ leBytes 4 0 ++ leBytes 4 6), 0⟩ : Admitted); (s.live = true) ∧ (v < 16) ∧ (s.chip.admits = true) ∧ ((s.chip.voice v).admitted = some a) ∧ (a.opcode = 3) ∧ (s.chip.solveCheck v a = 0) ∧ ((a.arg 0x10 8 = 0 ∨ s.chip.ledgerRoom v = true))) ∧
    (let s : State := admC 3 []; let v := 1; let a := (⟨7, leBytes 8 3, 0⟩ : Admitted); (s.live = true) ∧ (v < 16) ∧ (s.chip.admits = true) ∧ ((s.chip.voice v).admitted = some a) ∧ (a.opcode = 3) ∧ (s.chip.solveCheck v a ≠ 0)) ∧
    (let s : State := runWith ({ voice := 1, image := [], tensors := [] } : PassRun); let p := 5; let r := ({ voice := 1, image := [], tensors := [] } : PassRun); let q := ({ voice := 1, gen := 1, image := [], running := some ({ voice := 1, image := [], tensors := [] } : PassRun) } : Passage); let total := 0; let placed := ([] : List HomePlace); (s.live = true) ∧ (s.chip.passage? p = some q) ∧ (q.running = some r) ∧ (s.chip.computeGated = false) ∧ (r.started = false) ∧ (s.chip.runCheck r = 0) ∧ (r.est = none) ∧ (total = ((Pass.ofBytes r.image).homes.map (·.bytes)).foldl (· + ·) 0) ∧ (s.chip.refuses r.voice 0 total = false) ∧ ((s.chip.evictFor r.voice 0 total).usage r.voice 0 + total ≤ (s.chip.evictFor r.voice 0 total).limitBytes r.voice 0) ∧ ((s.chip.evictFor r.voice 0 total).placeHomes (Pass.ofBytes r.image).homes [] = (placed, none))) ∧
    (let s : State := runWith ({ voice := 1, image := (List.replicate 10 0 ++ leBytes 2 1 ++ List.replicate 24 0 ++ leBytes 4 0x30 ++ List.replicate 30 0), tensors := [9] } : PassRun); let p := 5; let r := ({ voice := 1, image := (List.replicate 10 0 ++ leBytes 2 1 ++ List.replicate 24 0 ++ leBytes 4 0x30 ++ List.replicate 30 0), tensors := [9] } : PassRun); let q := ({ voice := 1, gen := 1, image := [], running := some ({ voice := 1, image := (List.replicate 10 0 ++ leBytes 2 1 ++ List.replicate 24 0 ++ leBytes 4 0x30 ++ List.replicate 30 0), tensors := [9] } : PassRun) } : Passage); (s.live = true) ∧ (s.chip.passage? p = some q) ∧ (q.running = some r) ∧ (s.chip.computeGated = false) ∧ (r.started = false) ∧ (s.chip.runCheck r ≠ 0)) ∧
    (let s : State := onWith {}; (s.live = true) ∧ (s.chip.computeGated = false)) ∧
    (let s : State := runWith ({ voice := 1, image := anOp, tensors := [], started := true, whole := [0], active := [{ op := 0, array := 0, quads := 1, stolen := false }] } : PassRun); let p := 5; let j := 0; let r := ({ voice := 1, image := anOp, tensors := [], started := true, whole := [0], active := [{ op := 0, array := 0, quads := 1, stolen := false }] } : PassRun); let q := ({ voice := 1, gen := 1, image := [], running := some ({ voice := 1, image := anOp, tensors := [], started := true, whole := [0], active := [{ op := 0, array := 0, quads := 1, stolen := false }] } : PassRun) } : Passage); let a := ({ op := 0, array := 0, quads := 1, stolen := false } : ActiveOp); let o := ((Pass.ofBytes anOp).ops.headD ⟨0,0,0,false,0,0,0,0,0,0,0,0,0,false⟩); let out := ([] : List Byte); let sat := 0; let nan := 0; (s.live = true) ∧ (s.chip.passage? p = some q) ∧ (q.running = some r) ∧ (s.chip.computeGated = false) ∧ (r.active.find? (fun a => a.op == j) = some a) ∧ ((Pass.ofBytes r.image).ops[j]? = some o) ∧ (s.chip.opFed p r (Pass.ofBytes r.image) o = true) ∧ ((Pass.ofBytes r.image).compute o (s.chip.slotBytes r (Pass.ofBytes r.image) o.inp) (s.chip.slotBytes r (Pass.ofBytes r.image) o.wgt) (s.chip.slotBytes r (Pass.ofBytes r.image) o.bias) = (out, sat, nan))) ∧
    (let s : State := runWith ({ voice := 1, image := [], tensors := [], started := true } : PassRun); let p := 5; let r := ({ voice := 1, image := [], tensors := [], started := true } : PassRun); let q := ({ voice := 1, gen := 1, image := [], running := some ({ voice := 1, image := [], tensors := [], started := true } : PassRun) } : Passage); (s.live = true) ∧ (s.chip.passage? p = some q) ∧ (q.running = some r) ∧ (s.chip.computeGated = false) ∧ (r.started = true) ∧ ((List.range (Pass.ofBytes r.image).ops.length).all r.ended.contains = true) ∧ (r.est = none) ∧ (s.chip.runCheck r = 0)) ∧
    (let s : State := runWith ({ voice := 1, image := [], tensors := [], started := true, est := some (0, true, 3) } : PassRun); let p := 5; let i := 0; let f := 3; let d := true; let r := ({ voice := 1, image := [], tensors := [], started := true, est := some (0, true, 3) } : PassRun); let q := ({ voice := 1, gen := 1, image := [], running := some ({ voice := 1, image := [], tensors := [], started := true, est := some (0, true, 3) } : PassRun) } : Passage); (s.live = true) ∧ (s.chip.passage? p = some q) ∧ (q.running = some r) ∧ (s.chip.computeGated = false) ∧ (r.started = true) ∧ ((List.range (Pass.ofBytes r.image).ops.length).all r.ended.contains = true) ∧ (r.est = some (i, d, f))) ∧
    (let s : State := runWith ({ voice := 1, image := anOp, tensors := [], started := true } : PassRun); let p := 5; let r := ({ voice := 1, image := anOp, tensors := [], started := true } : PassRun); let q := ({ voice := 1, gen := 1, image := [], running := some ({ voice := 1, image := anOp, tensors := [], started := true } : PassRun) } : Passage); (s.live = true) ∧ (s.chip.passage? p = some q) ∧ (q.running = some r) ∧ (s.chip.computeGated = false) ∧ ((List.range (Pass.ofBytes r.image).ops.length).all r.ended.contains = false)) := by
  exact ⟨by decide, by decide, by decide, by decide, by decide, by decide, by decide, by decide, by decide⟩

theorem test_tensorCommandsComplete_hypotheses_1 :
    (let s : State := tens ({ owner := 1, bill := 1, size := 64 } : Tensor) [({ tensor := 5, kind := .toHost 0x1000, voice := 1, cpl := some kk } : Move)]; let t := 5; let addr := 0x1000; let m := ({ tensor := 5, kind := .toHost 0x1000, voice := 1, cpl := some kk } : Move); let x := ({ owner := 1, bill := 1, size := 64 } : Tensor); (s.live = true) ∧ (s.chip.moves.find? (fun m => m.tensor == t && m.cpl.isSome) = some m) ∧ (s.chip.tensor? t = some x) ∧ (s.chip.namedBeside t = false) ∧ (x.lost = false) ∧ (m.kind = .toHost addr)) ∧
    (let s : State := tens ({ owner := 1, bill := 1, size := 64 } : Tensor) [({ tensor := 5, kind := .toHome, voice := 1, cpl := some kk } : Move)]; let t := 5; let m := ({ tensor := 5, kind := .toHome, voice := 1, cpl := some kk } : Move); let x := ({ owner := 1, bill := 1, size := 64 } : Tensor); let y := ({ owner := 1, bill := 1, size := 64 } : Tensor); (s.live = true) ∧ (s.chip.moves.find? (fun m => m.tensor == t && m.cpl.isSome) = some m) ∧ (s.chip.tensor? t = some x) ∧ (s.chip.namedBeside t = false) ∧ (x.lost = false) ∧ (m.kind = .toHome) ∧ ((s.chip.writeBack t).tensor? t = some y)) ∧
    (let s : State := tens ({ owner := 1, bill := 1, size := 64, home := 2, work := 1 } : Tensor) [({ tensor := 5, kind := .toWork 1 0xFF, voice := 1, cpl := some kk } : Move)]; let t := 5; let tier := 1; let array := 0xFF; let m := ({ tensor := 5, kind := .toWork 1 0xFF, voice := 1, cpl := some kk } : Move); let x := ({ owner := 1, bill := 1, size := 64, home := 2, work := 1 } : Tensor); (s.live = true) ∧ (s.chip.moves.find? (fun m => m.tensor == t && m.cpl.isSome) = some m) ∧ (s.chip.tensor? t = some x) ∧ (s.chip.namedBeside t = false) ∧ (x.lost = false) ∧ (m.kind = .toWork tier array) ∧ (x.work = tier) ∧ ((tier ≠ 0 ∨ array = 0xFF ∨ array = x.array))) ∧
    (let s : State := tens ({ owner := 1, bill := 1, size := 64, home := 2 } : Tensor) [({ tensor := 5, kind := .toWork 1 0xFF, voice := 1, cpl := some kk } : Move)] (fun c => c.dset (ent (vIdx 1 2) 7) 1000); let t := 5; let array := 0xFF; let addr := 0; let m := ({ tensor := 5, kind := .toWork 1 0xFF, voice := 1, cpl := some kk } : Move); let x := ({ owner := 1, bill := 1, size := 64, home := 2 } : Tensor); (s.live = true) ∧ (s.chip.moves.find? (fun m => m.tensor == t && m.cpl.isSome) = some m) ∧ (s.chip.tensor? t = some x) ∧ (s.chip.namedBeside t = false) ∧ (x.lost = false) ∧ (m.kind = .toWork 1 array) ∧ (x.work ≠ 1) ∧ ((s.chip.evictFor x.bill 1 (charge 1 x.size)).usage x.bill 1 + charge 1 x.size ≤ (s.chip.evictFor x.bill 1 (charge 1 x.size)).limitBytes x.bill 1) ∧ ((s.chip.evictFor x.bill 1 (charge 1 x.size)).place 1 0xFF x.size [] = some addr)) ∧
    (let s : State := tens ({ owner := 1, bill := 1, size := 64, lost := true } : Tensor) [({ tensor := 5, kind := .toHome, voice := 1, cpl := some kk } : Move)]; let t := 5; let m := ({ tensor := 5, kind := .toHome, voice := 1, cpl := some kk } : Move); let x := ({ owner := 1, bill := 1, size := 64, lost := true } : Tensor); (s.live = true) ∧ (s.chip.moves.find? (fun m => m.tensor == t && m.cpl.isSome) = some m) ∧ (s.chip.tensor? t = some x) ∧ (s.chip.namedBeside t = false) ∧ (x.lost = true)) ∧
    (let s : State := onWith {}; let x := 5; let array := 0; (s.live = true)) ∧
    (let s : State := runWith ({ voice := 1, image := (List.replicate 10 0 ++ leBytes 2 1 ++ List.replicate 24 0 ++ leBytes 4 0x30 ++ List.replicate 30 0), tensors := [5], started := true, homes := [⟨0, 0, 64, none⟩] } : PassRun); let x := 5; let array := 0; let p := 5; let w := (5, 0); let r := ({ voice := 1, image := (List.replicate 10 0 ++ leBytes 2 1 ++ List.replicate 24 0 ++ leBytes 4 0x30 ++ List.replicate 30 0), tensors := [5], started := true, homes := [⟨0, 0, 64, none⟩] } : PassRun); let q := ({ voice := 1, gen := 1, image := [], running := some ({ voice := 1, image := (List.replicate 10 0 ++ leBytes 2 1 ++ List.replicate 24 0 ++ leBytes 4 0x30 ++ List.replicate 30 0), tensors := [5], started := true, homes := [⟨0, 0, 64, none⟩] } : PassRun) } : Passage); (s.live = true) ∧ (s.chip.slotWaiters x array = [w]) ∧ (s.chip.passage? w.1 = some q) ∧ (q.running = some r)) ∧
    (let s : State := tens ({ owner := 1, bill := 1, size := 64 } : Tensor) [({ tensor := 5, kind := .toHome, voice := 1 } : Move)]; let t := 5; let m := ({ tensor := 5, kind := .toHome, voice := 1 } : Move); let x := ({ owner := 1, bill := 1, size := 64 } : Tensor); (s.live = true) ∧ (s.chip.moves.find? (fun m => m.tensor == t && m.cpl.isNone && m.kind == .toHome) = some m) ∧ ((({ s.chip with moves := s.chip.moves.erase m } : Chip).writeBack t).tensor? t = some x)) ∧
    (let s : State := tens ({ owner := 1, bill := 1, size := 64 } : Tensor) []; let t := 5; let tier := 1; let target := 0x100000; let x := ({ owner := 1, bill := 1, size := 64 } : Tensor); (s.live = true) ∧ (s.chip.tensor? t = some x) ∧ ((tier = 1 ∨ tier = 2)) ∧ (x.home = tier) ∧ (x.work ≠ tier) ∧ (x.lost = false) ∧ (x.pinTier ≠ tier) ∧ (s.chip.inFlight t = false) ∧ (s.chip.freeFor tier target x.size (x.homeAddr, charge tier x.size) = true)) ∧
    (let x := ({ owner := 1, bill := 1, size := 64, home := 2, work := 1, workAddr := 0 } : Tensor); let s : State := tens x []; let t := 5; let tier := 1; let target := 0x100000; (s.live = true) ∧ (s.chip.tensor? t = some x) ∧ ((tier = 1 ∨ tier = 2)) ∧ (x.work = tier) ∧ (x.pinTier ≠ tier) ∧ (s.chip.inFlight t = false) ∧ (s.chip.freeFor tier target x.size (x.workAddr, charge tier x.size) = true)) ∧
    (let s : State := tens ({ owner := 1, bill := 1, size := 64, pinTier := 1 } : Tensor) []; let t := 5; let tier := 1; let target := 0x100000; let x := ({ owner := 1, bill := 1, size := 64, pinTier := 1 } : Tensor); (s.live = true) ∧ (s.chip.tensor? t = some x) ∧ (x.pinTier = tier)) ∧
    (let s : State := onWith {}; let address := 0x100000; (s.live = true) ∧ (s.chip.isRetired (.tier2Frame (address / 0x100000)) = false)) := by
  exact ⟨by decide, by decide, by decide, by decide, by decide, by decide, by decide, by decide, by decide, by decide, by decide, by decide⟩

theorem test_tensorCommandsComplete_hypotheses_2 :
    (let s : State := onWith {}; let address := 0x100000; (s.live = true) ∧ (s.chip.isRetired (.tier2Frame (address / 0x100000)) = false)) ∧
    (let s : State := onChip (fun c => c.setTensor 0xFF1000 ({ owner := 0, bill := 0, size := 64, lost := true } : Tensor)); let t := 0xFF1000; let x := ({ owner := 0, bill := 0, size := 64, lost := true } : Tensor); let c1 := (s.chip.recreate t).getD s.chip; (s.live = true) ∧ (s.chip.tensor? t = some x) ∧ (isEngineTensor t = true) ∧ (x.lost = true) ∧ (s.chip.recreate t = some c1)) ∧
    (let s : State := onChip (fun c => c.setTensor 0xFF1000 ({ owner := 0, size := 64, lost := true, home := 2, bill := 1 } : Tensor)); let t := 0xFF1000; let x := ({ owner := 0, size := 64, lost := true, home := 2, bill := 1 } : Tensor); (s.live = true) ∧ (s.chip.tensor? t = some x) ∧ (isEngineTensor t = true) ∧ (x.lost = true) ∧ (s.chip.recreate t = none)) ∧
    (let s : State := tens ({ owner := 1, bill := 1, size := 64 } : Tensor) []; let t := 5; let x := ({ owner := 1, bill := 1, size := 64 } : Tensor); (s.live = true) ∧ (s.chip.tensor? t = some x) ∧ (x.lost = false)) := by
  exact ⟨by decide, by decide, by decide, by decide⟩

theorem test_stringCommandsComplete_hypotheses_1 :
    (let s : State := strAt 2 {} (id); let p := 0; let lane := 3; let hs : List (BitVec 2) := [1, 2, 3, 1]; let r := (1, 1); (s.on = true) ∧ (p < 6) ∧ (s.chip.strState p = 2) ∧ ((s.chip.healthy p).contains lane = true) ∧ ((s.chip.str p).locked.contains lane = false) ∧ (searchLock (tabGet (0, 0) (s.chip.str p).search lane) hs = (r, false))) ∧
    (let s : State := strAt 2 { search := [(3, (7, 63))] } (id); let p := 0; let lane := 3; let hs : List (BitVec 2) := [1]; let r := (7, 64); (s.on = true) ∧ (p < 6) ∧ (s.chip.strState p = 2) ∧ ((s.chip.healthy p).contains lane = true) ∧ ((s.chip.str p).locked.contains lane = false) ∧ (searchLock (tabGet (0, 0) (s.chip.str p).search lane) hs = (r, true)) ∧ ((s.chip.healthy p).all (((s.chip.str p).locked ++ [lane]).contains ·) = false)) ∧
    (let s : State := strAt 2 { locked := [0, 1, 2], search := [(3, (7, 62))] } (id); let p := 0; let lane := 3; let hs : List (BitVec 2) := [1, 2]; let r := (7, 64); (s.on = true) ∧ (p < 6) ∧ (s.chip.strState p = 2) ∧ ((s.chip.healthy p).contains lane = true) ∧ ((s.chip.str p).locked.contains lane = false) ∧ (searchLock (tabGet (0, 0) (s.chip.str p).search lane) hs = (r, true)) ∧ ((s.chip.healthy p).all (((s.chip.str p).locked ++ [lane]).contains ·) = true)) ∧
    (let s : State := strAt 6 { active := [0, 1] } (id); let p := 0; let hs : List LaneHeaders := [⟨1, List.replicate 16 (0 : BitVec 2)⟩]; let w := (s.chip.str p).watch hs; (s.on = true) ∧ (p < 6) ∧ (s.chip.strState p = 6) ∧ ((s.chip.str p).watch hs = w) ∧ ((s.chip.str p).active.filter (w.2.contains ·) ≠ []) ∧ ((s.chip.str p).active.all (w.2.contains ·) = false)) ∧
    (let s : State := strAt 6 { active := [0, 1] } (id); let p := 0; let hs : List LaneHeaders := [⟨0, List.replicate 16 (0 : BitVec 2)⟩, ⟨1, List.replicate 16 (0 : BitVec 2)⟩]; let w := (s.chip.str p).watch hs; (s.on = true) ∧ (p < 6) ∧ (s.chip.strState p = 6) ∧ ((s.chip.str p).watch hs = w) ∧ ((s.chip.str p).active.filter (w.2.contains ·) ≠ []) ∧ ((s.chip.str p).active.all (w.2.contains ·) = true)) ∧
    (let s : State := strAt 6 { active := [0, 1] } (id); let p := 0; let hs : List LaneHeaders := [⟨0, List.replicate 15 (3 : BitVec 2)⟩]; let w := (s.chip.str p).watch hs; (s.on = true) ∧ (p < 6) ∧ (s.chip.strState p = 6) ∧ ((s.chip.str p).watch hs = w) ∧ ((s.chip.str p).active.filter (w.2.contains ·) = [])) ∧
    (let s : State := strAt 1 {} (id); let p := 0; (s.on = true) ∧ (p < 6) ∧ (s.chip.straps.mode = .mesh) ∧ (s.chip.role p ≠ 0) ∧ (s.chip.board.rclkIn = true) ∧ (s.chip.engine.trains = true) ∧ (s.chip.strState p ≤ 1) ∧ (s.chip.isRetired (.string p) = false) ∧ (s.chip.isRetired .meshRouter = false)) ∧
    (let s : State := strAt 2 { firstLock := some 0, locked := [0] } (fun c => { c with now := 2500000 }); let p := 0; let t := 0; (s.on = true) ∧ (p < 6) ∧ (s.chip.strState p = 2) ∧ ((s.chip.str p).firstLock = some t) ∧ (t + 2500000 ≤ s.chip.now)) ∧
    (let s : State := strAt 2 { firstLock := some 0, locked := [0] } (fun c => { c with now := 2499999 }); let p := 0; let t := 0; (s.on = true) ∧ (p < 6) ∧ ((s.chip.str p).firstLock = some t) ∧ (s.chip.now < t + 2500000)) ∧
    (let s : State := onChip (fun c => { c with straps := { mode := .mesh }, now := 250000, mesh := { announcedAt := some 0, implied := [(0, 7)] } }); let t := 0; let a := 7; let r := ([] : List Nat); (s.on = true) ∧ (s.chip.mesh.announcedAt = some t) ∧ (s.chip.straps.mode = .mesh) ∧ (s.chip.dget (ent 0x4810 1) = 0) ∧ (s.chip.mesh.learned = none) ∧ (t + 250000 ≤ s.chip.now) ∧ (s.chip.mesh.implied.map (·.2) = a :: r)) ∧
    (let s : State := strAt 3 {} (id); let p := 0; let fs : List LaneFlit := [⟨0, 0, lineOf dataHeader (dataBody 0 3)⟩, ⟨1, 0, lineOf controlHeader (ctlBody 0 [])⟩]; (s.on = true) ∧ (p < 6) ∧ (s.chip.strState p = 3) ∧ (trainIdent fs = none)) ∧
    (let s : State := strAt 3 {} (fun c => (c.dset (ent 0x4810 1) 1).dset (strKey 0 1) 2); let p := 0; let fs : List LaneFlit := [⟨2, 0, lineOf controlHeader (trainBody 2 0x10)⟩]; let f := (trainIdent fs).getD (farEnd 0 false); let c1 := (s.chip.dadd (strKey p 15) ((trainControls fs).countP (fun q => badControlBody q.2))).announced p f; (s.on = true) ∧ (p < 6) ∧ (s.chip.strState p = 3) ∧ (trainIdent fs = some f) ∧ ((s.chip.dadd (strKey p 15) ((trainControls fs).countP (fun q => badControlBody q.2))).announced p f = c1) ∧ (c1.planStatus p f = some 1)) := by
  exact ⟨by decide, by decide, by decide, by decide, by decide, by decide, by decide, by decide, by decide, by decide, by decide, by decide⟩

theorem test_stringCommandsComplete_hypotheses_2 :
    (let s : State := strAt 3 {} (id); let p := 0; let fs : List LaneFlit := [⟨2, 0, lineOf controlHeader (trainBody 2 2)⟩]; let f := (trainIdent fs).getD (farEnd 0 false); let c1 := (s.chip.dadd (strKey p 15) ((trainControls fs).countP (fun q => badControlBody q.2))).announced p f; (s.on = true) ∧ (p < 6) ∧ (s.chip.strState p = 3) ∧ (trainIdent fs = some f) ∧ ((s.chip.dadd (strKey p 15) ((trainControls fs).countP (fun q => badControlBody q.2))).announced p f = c1) ∧ (c1.planStatus p f = none)) ∧
    (let s : State := strAt 3 {} (fun c => (c.dset (ent 0x4810 1) 1).dset (strKey 0 1) 2); let p := 0; let st := 6; let fs : List LaneFlit := [⟨2, 0, lineOf controlHeader (trainBody 1 0x10)⟩]; let f := (trainIdent fs).getD (farEnd 0 false); let c1 := (s.chip.dadd (strKey p 15) ((trainControls fs).countP (fun q => badControlBody q.2))).announced p f; (s.on = true) ∧ (p < 6) ∧ (s.chip.strState p = 3) ∧ (trainIdent fs = some f) ∧ ((s.chip.dadd (strKey p 15) ((trainControls fs).countP (fun q => badControlBody q.2))).announced p f = c1) ∧ (c1.planStatus p f = some st) ∧ (st ≠ 1)) ∧
    (let s : State := strAt 7 {} (fun c => { c with now := 250000000 }); let p := 0; (s.on = true) ∧ (p < 6) ∧ (s.chip.strState p = 7) ∧ ((s.chip.str p).since + 250000000 ≤ s.chip.now)) ∧
    (let s : State := strAt 4 {} (id); let p := 0; let re := [0, 1, 2, 3]; (s.on = true) ∧ (p < 6) ∧ (s.chip.strState p = 4) ∧ ((s.chip.bothHealthy p).filter (fun l => !re.contains l) = []) ∧ (((s.chip.retireLanes p [] 9).setStrState p 5).healthy p ≠ [])) ∧
    (let s : State := strAt 4 {} (fun c => { c with now := 2500000 }); let p := 0; let re := [0, 1, 2]; (s.on = true) ∧ (p < 6) ∧ (s.chip.strState p = 4) ∧ ((s.chip.str p).since + 2500000 ≤ s.chip.now) ∧ ((((s.chip.retireLanes p ((s.chip.bothHealthy p).filter (fun l => !re.contains l)) 9).setStrState p 5).healthy p).isEmpty = false)) ∧
    (let s : State := strAt 5 {} (id); let p := 0; let ok : List LaneTail := [⟨0, 1⟩, ⟨3, 2⟩]; (s.on = true) ∧ (p < 6) ∧ (s.chip.strState p = 5)) ∧
    (let s : State := strAt 6 {} (id); (s.on = true) ∧ (s.chip.straps.mode = .mesh)) ∧
    (let s : State := onWith {}; (s.on = true) ∧ (s.chip.straps.mode ≠ .mesh)) ∧
    (let s : State := onWith {}; (s.on = true)) ∧
    (let s : State := strAt 6 { far := some (farEnd 0x10 true) } (id); let p := 0; let sent := 9; let echo := 5; let turn := 70000; let elapsed := 1; (s.on = true) ∧ (p < 6) ∧ (s.chip.rtQualifies p = true) ∧ ((s.chip.dset (strKey p 10) (Nat.min (s.chip.roundTrip echo turn elapsed) 0xFFFF)).dget (ent 0x4810 6) = 0)) ∧
    (let s : State := strAt 6 {} (id); let p := 0; let sent := 9; let echo := 5; let turn := 70000; let elapsed := 1; (s.on = true) ∧ (p < 6) ∧ (s.chip.rtQualifies p = false)) ∧
    (let s : State := upAt {} (id); let p := 0; let body := trainBody 0 2; let b := lineOf controlHeader body; let c1 := (s.chip.readBlock p b).1; (s.on = true) ∧ (p < 6) ∧ (s.chip.strState p = 6) ∧ (s.chip.readBlock p b = (c1, .control body)) ∧ (badControlBody body = false) ∧ (fieldAt body 28 1 = 1)) := by
  exact ⟨by decide, by decide, by decide, by decide, by decide, by decide, by decide, by decide, by decide, by decide, by decide, by decide +kernel⟩

theorem test_stringCommandsComplete_hypotheses_3 :
    (let s : State := upAt {} (id); let p := 0; let body := ctlBody 0 []; let b := lineOf controlHeader body; let c1 := (s.chip.readBlock p b).1; (s.on = true) ∧ (p < 6) ∧ (s.chip.strState p = 6) ∧ (s.chip.readBlock p b = (c1, .control body)) ∧ (badControlBody body = false) ∧ (fieldAt body 28 1 = 0)) ∧
    (let s : State := upAt { rxSeq := 7, toAck := 62 } (id); let p := 0; let body := dataBody 7 3; let b := lineOf dataHeader body; let c1 := (s.chip.readBlock p b).1; (s.on = true) ∧ (p < 6) ∧ (s.chip.strState p = 6) ∧ (s.chip.readBlock p b = (c1, .data body)) ∧ (goodBody (seqBytes (s.chip.str p).rxSeq) body = true) ∧ ((s.chip.str p).discarding = false) ∧ ((s.chip.str p).dups = 0) ∧ ((s.chip.str p).toAck < 63)) ∧
    (let s : State := upAt { rxSeq := 7, toAck := 63 } (id); let p := 0; let body := dataBody 7 3; let b := lineOf dataHeader body; let c1 := (s.chip.readBlock p b).1; (s.on = true) ∧ (p < 6) ∧ (s.chip.strState p = 6) ∧ (s.chip.readBlock p b = (c1, .data body)) ∧ (goodBody (seqBytes (s.chip.str p).rxSeq) body = true) ∧ ((s.chip.str p).discarding = false) ∧ ((s.chip.str p).dups = 0) ∧ (63 ≤ (s.chip.str p).toAck)) ∧
    (let s : State := upAt { rxSeq := 7 } (id); let p := 0; let body := dataBody 8 3; let b := lineOf dataHeader body; let c1 := (s.chip.readBlock p b).1; (s.on = true) ∧ (p < 6) ∧ (s.chip.strState p = 6) ∧ ((s.chip.str p).discarding = false) ∧ ((s.chip.str p).dups = 0) ∧ (s.chip.readBlock p b = (c1, .data body)) ∧ (goodBody (seqBytes (s.chip.str p).rxSeq) body = false)) ∧
    (let s : State := upAt {} (id); let p := 0; let body := dataBody 7 3; let b := lineOf 3 body; let c1 := (s.chip.readBlock p b).1; (s.on = true) ∧ (p < 6) ∧ (s.chip.strState p = 6) ∧ ((s.chip.str p).discarding = false) ∧ ((s.chip.str p).dups = 0) ∧ (s.chip.readBlock p b = (c1, .invalid))) ∧
    (let s : State := upAt { discarding := true } (id); let p := 0; let body := dataBody 0 3; let b := lineOf dataHeader body; let c1 := (s.chip.readBlock p b).1; (s.on = true) ∧ (p < 6) ∧ (s.chip.strState p = 6) ∧ ((s.chip.str p).discarding = true) ∧ (s.chip.readBlock p b = (c1, .data body))) ∧
    (let s : State := upAt { dups := 1 } (id); let p := 0; let body := dataBody 0 3; let b := lineOf dataHeader body; let c1 := (s.chip.readBlock p b).1; (s.on = true) ∧ (p < 6) ∧ (s.chip.strState p = 6) ∧ ((s.chip.str p).discarding = false) ∧ (0 < (s.chip.str p).dups) ∧ (s.chip.readBlock p b = (c1, .data body))) ∧
    (let s : State := upAt {} (id); let p := 0; let body := ctlBody 3 [1]; let b := lineOf controlHeader body; let c1 := (s.chip.readBlock p b).1; (s.on = true) ∧ (p < 6) ∧ (s.chip.strState p = 6) ∧ (s.chip.readBlock p b = (c1, .control body)) ∧ (badControlBody body = false) ∧ (fieldAt body 28 1 = 3)) ∧
    (let s : State := upAt { rxSeq := 3 } (id); let p := 0; let body := ctlBody 4 [1]; let b := lineOf controlHeader body; let c1 := (s.chip.readBlock p b).1; (s.on = true) ∧ (p < 6) ∧ (s.chip.strState p = 6) ∧ (s.chip.readBlock p b = (c1, .control body)) ∧ (badControlBody body = false) ∧ (fieldAt body 28 1 = 4) ∧ (laterMod m32 (fieldAt body 0 4) (s.chip.str p).rxSeq = false)) ∧
    (let s : State := upAt { rxSeq := 3 } (id); let p := 0; let body := ctlBody 4 [4]; let b := lineOf controlHeader body; let c1 := (s.chip.readBlock p b).1; (s.on = true) ∧ (p < 6) ∧ (s.chip.strState p = 6) ∧ (s.chip.readBlock p b = (c1, .control body)) ∧ (badControlBody body = false) ∧ (fieldAt body 28 1 = 4) ∧ (laterMod m32 (fieldAt body 0 4) (s.chip.str p).rxSeq = true)) ∧
    (let s : State := upAt { retry := [⟨4, 0, true, 0, []⟩, ⟨5, 0, true, 0, []⟩] } (id); let p := 0; let body := ctlBody 2 [4]; let b := lineOf controlHeader body; let c1 := (s.chip.readBlock p b).1; let kept : List SentFlit := [⟨5, 0, true, 0, []⟩]; (s.on = true) ∧ (p < 6) ∧ (s.chip.strState p = 6) ∧ (s.chip.readBlock p b = (c1, .control body)) ∧ (badControlBody body = false) ∧ (fieldAt body 28 1 = 2) ∧ ((s.chip.str p).retry.filter (fun f => laterMod m32 f.seq (fieldAt body 0 4)) = kept)) ∧
    (let s : State := strAt 6 { toAck := 1 } (id); let p := 0; (s.on = true) ∧ (p < 6) ∧ (s.chip.strState p = 6) ∧ ((s.chip.str p).toAck ≠ 0)) := by
  exact ⟨by decide +kernel, by decide +kernel, by decide +kernel, by decide +kernel, by decide, by decide +kernel, by decide +kernel, by decide +kernel, by decide +kernel, by decide +kernel, by decide +kernel, by decide⟩

theorem test_stringCommandsComplete_hypotheses_4 :
    (let f := ({ seq := 4, at_ := 0, tail := true } : SentFlit); let s : State := strAt 6 { retry := [f] } (fun c => { c with now := 1000 }); let p := 0; let r := ([] : List SentFlit); (s.on = true) ∧ (p < 6) ∧ (s.chip.strState p = 6) ∧ ((s.chip.str p).retry = f :: r) ∧ (f.at_ + 1000 ≤ s.chip.now)) ∧
    (let s : State := upAt {} (id); let p := 0; let body := ctlBody 5 [1, 2, 3, 65535]; let b := lineOf controlHeader body; let c1 := (s.chip.readBlock p b).1; (s.on = true) ∧ (p < 6) ∧ (s.chip.strState p = 6) ∧ (s.chip.readBlock p b = (c1, .control body)) ∧ (badControlBody body = false) ∧ (fieldAt body 28 1 = 5)) ∧
    (let s : State := strAt 6 {} (id); let p := 0; (s.on = true) ∧ (p < 6) ∧ (s.chip.strState p = 6)) ∧
    (let s : State := strAt 2 {} (fun c => { c with now := 25000000 }); let p := 0; (s.on = true) ∧ (p < 6) ∧ (s.chip.strState p = 2) ∧ (s.chip.role p = 1) ∧ ((s.chip.str p).locked = []) ∧ ((s.chip.str p).since + 25000000 ≤ s.chip.now)) ∧
    (let s : State := upAt {} (id); let p := 0; let body := ctlBody 6 []; let b := lineOf controlHeader body; let c1 := (s.chip.readBlock p b).1; (s.on = true) ∧ (p < 6) ∧ (s.chip.strState p = 6) ∧ (s.chip.readBlock p b = (c1, .control body)) ∧ (badControlBody body = true)) := by
  exact ⟨by decide, by decide +kernel, by decide, by decide, by decide +kernel⟩

theorem test_meshPacketsComplete_hypotheses_1 :
    (let s : State := meshOn (fun c => ({ c with epoch := { active := some 0x30 } }).dset (ent 0x4810 6) 1); let k := (pk 1 0 0 0x2710 (leBytes 8 (5 * m32) ++ leBytes 8 0)); let c1 := (s.chip.route k).1; (s.on = true) ∧ (s.chip.atInput k = true) ∧ (s.chip.route k = (c1, .mine)) ∧ (s.chip.engine ≠ .faulted) ∧ (k.ptype = 1) ∧ (c1.epoch.active = some 0x30) ∧ (c1.dget (ent 0x4810 6) = 1) ∧ (laterMod (2 ^ 48) c1.rt (fieldAt (s.chip.stamped k).payload 8 6) = false)) ∧
    (let s : State := meshOn (fun c => { c with epoch := { active := some 0x30 } }); let k := (pk 1 0 0 0x2710 (leBytes 8 (5 * m32) ++ leBytes 8 0)); let c1 := (s.chip.route k).1; (s.on = true) ∧ (s.chip.atInput k = true) ∧ (s.chip.route k = (c1, .mine)) ∧ (s.chip.engine ≠ .faulted) ∧ (k.ptype = 1) ∧ (c1.epoch.active = some 0x30) ∧ (c1.dget (ent 0x4810 6) = 0)) ∧
    (let s : State := meshOn; let k := (pk 1 0 0 0x2710 (leBytes 8 (5 * m32) ++ leBytes 8 0)); let c1 := (s.chip.route k).1; (s.on = true) ∧ (s.chip.atInput k = true) ∧ (s.chip.route k = (c1, .mine)) ∧ (s.chip.engine ≠ .faulted) ∧ (k.ptype = 1) ∧ (c1.epoch.active ≠ some 0x30) ∧ (c1.epoch.pendingSource ≠ some 0x30)) ∧
    (let s : State := meshOn; (s.on = true)) ∧
    (let s : State := meshOn; let k := (pk 2 0 0 7 []); let c1 := (s.chip.route k).1; (s.on = true) ∧ (s.chip.atInput k = true) ∧ (s.chip.route k = (c1, .mine)) ∧ (s.chip.engine ≠ .faulted) ∧ (k.ptype = 2)) ∧
    (let s : State := meshOn; let k := (pk 3 0 0 7 []); let c1 := (s.chip.route k).1; (s.on = true) ∧ (s.chip.atInput k = true) ∧ (s.chip.route k = (c1, .mine)) ∧ (s.chip.engine ≠ .faulted) ∧ (k.ptype = 3)) ∧
    (let s : State := meshOn; let k := (pk 4 0 0 7 (List.replicate 16 0)); let c1 := (s.chip.route k).1; (s.on = true) ∧ (s.chip.atInput k = true) ∧ (s.chip.route k = (c1, .mine)) ∧ (s.chip.engine ≠ .faulted) ∧ (k.ptype = 4)) ∧
    (let s : State := meshOn (fun c => (c.setKeep 2 { binding := 5 }).setVoice 2 { state := .active }); let k := (pk 0x10 1 2 0 []); let c1 := (s.chip.route k).1; (s.on = true) ∧ (s.chip.atInput k = true) ∧ (s.chip.route k = (c1, .mine)) ∧ (s.chip.engine ≠ .faulted) ∧ (k.ptype = 16) ∧ (c1.tunnelVoice (s.chip.stamped k) = true) ∧ (((c1.setTunnel (s.chip.stamped k).tag { c1.tunnel (s.chip.stamped k).tag with origin := some ((s.chip.stamped k).src, (s.chip.stamped k).entry) }).voice (s.chip.stamped k).tag).state ≠ .idle) ∧ (((c1.setTunnel (s.chip.stamped k).tag { c1.tunnel (s.chip.stamped k).tag with origin := some ((s.chip.stamped k).src, (s.chip.stamped k).entry) }).voice (s.chip.stamped k).tag).resetDrain = false)) ∧
    (let s : State := meshOn (fun c => c.setKeep 2 { binding := 5 }); let k := (pk 0x10 1 2 0 []); let c1 := (s.chip.route k).1; (s.on = true) ∧ (s.chip.atInput k = true) ∧ (s.chip.route k = (c1, .mine)) ∧ (s.chip.engine ≠ .faulted) ∧ (k.ptype = 16) ∧ (c1.tunnelVoice (s.chip.stamped k) = true) ∧ (((c1.setTunnel (s.chip.stamped k).tag { c1.tunnel (s.chip.stamped k).tag with origin := some ((s.chip.stamped k).src, (s.chip.stamped k).entry) }).voice (s.chip.stamped k).tag).state = .idle) ∧ (((c1.setTunnel (s.chip.stamped k).tag { c1.tunnel (s.chip.stamped k).tag with origin := some ((s.chip.stamped k).src, (s.chip.stamped k).entry) }).voice (s.chip.stamped k).tag).resetDrain = false)) ∧
    (let s : State := meshOn (fun c => (c.setKeep 2 { binding := 5 }).setVoice 2 { resetDrain := true }); let k := (pk 0x10 1 2 0 []); let c1 := (s.chip.route k).1; let d := c1.setTunnel (s.chip.stamped k).tag { c1.tunnel (s.chip.stamped k).tag with origin := some ((s.chip.stamped k).src, (s.chip.stamped k).entry) }; (s.on = true) ∧ (s.chip.atInput k = true) ∧ (s.chip.route k = (c1, .mine)) ∧ (s.chip.engine ≠ .faulted) ∧ (k.ptype = 16) ∧ (c1.tunnelVoice (s.chip.stamped k) = true) ∧ ((c1.tunnel (s.chip.stamped k).tag).opened = false) ∧ (c1.setTunnel (s.chip.stamped k).tag { c1.tunnel (s.chip.stamped k).tag with origin := some ((s.chip.stamped k).src, (s.chip.stamped k).entry) } = d) ∧ ((d.voice (s.chip.stamped k).tag).resetDrain = true)) ∧
    (let s : State := meshOn; let k := (pk 0x10 1 2 0 []); let c1 := (s.chip.route k).1; (s.on = true) ∧ (s.chip.atInput k = true) ∧ (s.chip.route k = (c1, .mine)) ∧ (s.chip.engine ≠ .faulted) ∧ (k.ptype = 16) ∧ (c1.tunnelVoice (s.chip.stamped k) = false)) ∧
    (let s : State := meshOn (fun c => ((c.setKeep 2 { binding := 5 }).setVoice 2 { state := .active, ringEnable := true }).setTunnel 2 { origin := some (9, 1) }); let k := (pk 0x11 1 2 0 (List.replicate 64 0)); let c1 := (s.chip.route k).1; (s.on = true) ∧ (s.chip.atInput k = true) ∧ (s.chip.route k = (c1, .mine)) ∧ (s.chip.engine ≠ .faulted) ∧ (k.ptype = 17) ∧ (c1.fromOrigin (s.chip.stamped k) = true) ∧ ((c1.callWake.voice (s.chip.stamped k).tag).queue.length < 256) ∧ ((c1.callWake.voice (s.chip.stamped k).tag).ringEnable = true)) := by
  exact ⟨by decide, by decide, by decide, by decide, by decide, by decide, by decide, by decide, by decide, by decide, by decide, by decide⟩

theorem test_meshPacketsComplete_hypotheses_2 :
    (let s : State := meshOn; let k := (pk 0x11 1 2 0 (List.replicate 64 0)); let c1 := (s.chip.route k).1; (s.on = true) ∧ (s.chip.atInput k = true) ∧ (s.chip.route k = (c1, .mine)) ∧ (s.chip.engine ≠ .faulted) ∧ (k.ptype = 17) ∧ (c1.fromOrigin (s.chip.stamped k) = false)) ∧
    (let s : State := meshOn (fun c => ((c.setKeep 2 { binding := 5 }).setVoice 2 { state := .active, ringEnable := true }).setTunnel 2 { origin := some (9, 1) }); let k := (pk 0x13 1 2 7 [1, 1, 0, 0x10]); let c1 := (s.chip.route k).1; let idx := 0x1000; let sub := 1; (s.on = true) ∧ (s.chip.atInput k = true) ∧ (s.chip.route k = (c1, .mine)) ∧ (k.ptype = 19) ∧ (c1.fromOrigin (s.chip.stamped k) = true) ∧ (c1.silent = false) ∧ ((c1.tunnel (s.chip.stamped k).tag).lastReq ≠ some ((s.chip.stamped k).arg, (s.chip.stamped k).payload)) ∧ (fieldAt (s.chip.stamped k).payload 0 1 = 1) ∧ (idx = fieldAt (s.chip.stamped k).payload 2 2) ∧ (sub = fieldAt (s.chip.stamped k).payload 1 1)) ∧
    (let s : State := meshOn (fun c => ((c.setKeep 2 { binding := 5 }).setVoice 2 { state := .active, ringEnable := true }).setTunnel 2 { origin := some (9, 1) }); let k := (pk 0x13 1 2 7 [4, 1, 0, 0x10]); let c1 := (s.chip.route k).1; let idx := 0x1000; let sub := 1; (s.on = true) ∧ (s.chip.atInput k = true) ∧ (s.chip.route k = (c1, .mine)) ∧ (k.ptype = 19) ∧ (c1.fromOrigin (s.chip.stamped k) = true) ∧ (c1.silent = false) ∧ ((c1.tunnel (s.chip.stamped k).tag).lastReq ≠ some ((s.chip.stamped k).arg, (s.chip.stamped k).payload)) ∧ (fieldAt (s.chip.stamped k).payload 0 1 = 4) ∧ (idx = fieldAt (s.chip.stamped k).payload 2 2) ∧ (sub = fieldAt (s.chip.stamped k).payload 1 1)) ∧
    (let s : State := meshOn (fun c => ((c.setKeep 2 { binding := 5 }).setVoice 2 { state := .active, ringEnable := true }).setTunnel 2 { origin := some (9, 1) }); let k := (pk 0x13 1 2 7 [2, 1, 0, 0x10]); let c1 := (s.chip.route k).1; (s.on = true) ∧ (s.turn k.tag ⟨5, 0⟩ = true) ∧ (s.chip.atInput k = true) ∧ (s.chip.route k = (c1, .mine)) ∧ (k.ptype = 19) ∧ (c1.fromOrigin (s.chip.stamped k) = true) ∧ (c1.silent = false) ∧ ((c1.tunnel (s.chip.stamped k).tag).lastReq ≠ some ((s.chip.stamped k).arg, (s.chip.stamped k).payload)) ∧ (fieldAt (s.chip.stamped k).payload 0 1 = 2)) ∧
    (let s : State := ({ meshOn (fun c => (c.setKeep 2 { binding := 5 }).setTunnel 2 { origin := some (9, 1) }) with }).chipMap (fun c => { c with mesh := { c.mesh with dma := [⟨2, 7, 0x1000, 4, 0⟩] } }); let k := (pk 22 3 2 7 (leBytes 4 0 ++ [1, 2, 3, 4])); let c1 := (s.chip.route k).1; let d := (⟨2, 7, 0x1000, 4, 0⟩ : DmaReq); (s.on = true) ∧ (s.chip.atInput k = true) ∧ (s.chip.route k = (c1, .mine)) ∧ (s.chip.engine ≠ .faulted) ∧ (k.ptype = 22) ∧ (c1.fromOrigin (s.chip.stamped k) = true) ∧ (c1.mesh.dma.find? (fun d => d.voice == (s.chip.stamped k).tag && d.id == (s.chip.stamped k).arg) = some d) ∧ (fieldAt (s.chip.stamped k).payload 0 4 = 0)) ∧
    (let s : State := ({ meshOn (fun c => (c.setKeep 2 { binding := 5 }).setTunnel 2 { origin := some (9, 1) }) with }).chipMap (fun c => { c with mesh := { c.mesh with dma := [⟨2, 7, 0x1000, 4, 0⟩] } }); let k := (pk 22 3 2 7 (leBytes 4 1)); let c1 := (s.chip.route k).1; let d := (⟨2, 7, 0x1000, 4, 0⟩ : DmaReq); (s.on = true) ∧ (s.chip.atInput k = true) ∧ (s.chip.route k = (c1, .mine)) ∧ (s.chip.engine ≠ .faulted) ∧ (k.ptype = 22) ∧ (c1.fromOrigin (s.chip.stamped k) = true) ∧ (c1.mesh.dma.find? (fun d => d.voice == (s.chip.stamped k).tag && d.id == (s.chip.stamped k).arg) = some d) ∧ (fieldAt (s.chip.stamped k).payload 0 4 ≠ 0)) ∧
    (let s : State := ({ meshOn (fun c => (c.setKeep 2 { binding := 5 }).setTunnel 2 { origin := some (9, 1) }) with }).chipMap (fun c => { c with mesh := { c.mesh with dma := [⟨2, 7, 0x1000, 4, 0⟩] } }); let k := (pk 49 3 2 7 (leBytes 4 0 ++ [1, 2, 3, 4])); let c1 := (s.chip.route k).1; let d := (⟨2, 7, 0x1000, 4, 0⟩ : DmaReq); (s.on = true) ∧ (s.chip.atInput k = true) ∧ (s.chip.route k = (c1, .mine)) ∧ (s.chip.engine ≠ .faulted) ∧ (k.ptype = 49) ∧ (c1.mesh.dma.find? (fun d => d.voice == (s.chip.stamped k).tag && d.id == (s.chip.stamped k).arg) = some d) ∧ (fieldAt (s.chip.stamped k).payload 0 4 = 0)) ∧
    (let s : State := ({ meshOn (fun c => (c.setKeep 2 { binding := 5 }).setTunnel 2 { origin := some (9, 1) }) with }).chipMap (fun c => { c with mesh := { c.mesh with dma := [⟨2, 7, 0x1000, 4, 0⟩] } }); let k := (pk 49 3 2 7 (leBytes 4 1)); let c1 := (s.chip.route k).1; let d := (⟨2, 7, 0x1000, 4, 0⟩ : DmaReq); (s.on = true) ∧ (s.chip.atInput k = true) ∧ (s.chip.route k = (c1, .mine)) ∧ (s.chip.engine ≠ .faulted) ∧ (k.ptype = 49) ∧ (c1.mesh.dma.find? (fun d => d.voice == (s.chip.stamped k).tag && d.id == (s.chip.stamped k).arg) = some d) ∧ (fieldAt (s.chip.stamped k).payload 0 4 ≠ 0)) ∧
    (let s : State := meshOn (fun c => { c with now := 250000, mesh := { dma := [⟨2, 7, 0x1000, 4, 0⟩] } }); let v := 2; let id := 7; let d := (⟨2, 7, 0x1000, 4, 0⟩ : DmaReq); (s.on = true) ∧ (s.chip.mesh.dma.find? (fun d => d.voice == v && d.id == id) = some d) ∧ (d.at_ + 250000 ≤ s.chip.now)) ∧
    (let s : State := meshOn (fun c => { c with now := 249999, mesh := { dma := [⟨2, 7, 0x1000, 4, 0⟩] } }); let v := 2; let id := 7; let d := (⟨2, 7, 0x1000, 4, 0⟩ : DmaReq); (s.on = true) ∧ (s.chip.mesh.dma.find? (fun d => d.voice == v && d.id == id) = some d) ∧ (s.chip.now < d.at_ + 250000)) ∧
    (let s : State := meshOn (fun c => c.dset (camKey 0 34) 1); let k := (pk 0x20 2 0 0 (List.replicate 9 0)); let c1 := (s.chip.route k).1; (s.on = true) ∧ (s.chip.atInput k = true) ∧ (s.chip.route k = (c1, .mine)) ∧ (s.chip.engine ≠ .faulted) ∧ (k.ptype = 32) ∧ ((s.chip.stamped k).tag < 6) ∧ (c1.dget (camKey (s.chip.stamped k).tag 34) = 1) ∧ ((c1.camOn (s.chip.stamped k).tag = false ∨ c1.gated = true))) ∧
    (let s : State := meshOn (fun c => ({ c with epoch := { pos := { line := 500 } } }.dset (camKey 0 34) 1).dset (camKey 0 1) 1); let k := (pk 0x20 2 0 0 (leBytes 4 1 ++ leBytes 4 0 ++ [1])); let c1 := (s.chip.route k).1; let n := c1.camWidth 0 * pixelBytes (c1.dget (camKey 0 5)); let rows := c1.openRows 0 1; (s.on = true) ∧ (s.chip.atInput k = true) ∧ (s.chip.route k = (c1, .mine)) ∧ (s.chip.engine ≠ .faulted) ∧ (k.ptype = 32) ∧ ((s.chip.stamped k).tag < 6) ∧ (c1.dget (camKey (s.chip.stamped k).tag 34) = 1) ∧ (c1.camOn (s.chip.stamped k).tag = true) ∧ (c1.gated = false) ∧ (c1.camWidth (s.chip.stamped k).tag * pixelBytes (c1.dget (camKey (s.chip.stamped k).tag 5)) = n) ∧ (c1.openRows (s.chip.stamped k).tag (fieldAt (s.chip.stamped k).payload 0 4) = rows) ∧ (rows.1 * n ≤ fieldAt (s.chip.stamped k).payload 4 4) ∧ (fieldAt (s.chip.stamped k).payload 4 4 + ((s.chip.stamped k).payload.drop 8).length ≤ rows.2 * n) ∧ ((s.chip.stamped k).payload.drop 8 ≠ [])) := by
  exact ⟨by decide, by decide, by decide, by decide, by decide, by decide, by decide, by decide, by decide, by decide, by decide, by decide⟩

theorem test_meshPacketsComplete_hypotheses_3 :
    (let s : State := meshOn (fun c => c.dset (inKey 0 2) 2); let k := (pk 0x21 2 0 0 (List.replicate 16 1)); let c1 := (s.chip.route k).1; (s.on = true) ∧ (s.chip.atInput k = true) ∧ (s.chip.route k = (c1, .mine)) ∧ (s.chip.engine ≠ .faulted) ∧ (k.ptype = 33) ∧ ((s.chip.stamped k).tag < 16) ∧ (c1.dget (inKey (s.chip.stamped k).tag 2) = 2) ∧ (c1.gated = false)) ∧
    (let s : State := meshOn; let k := (pk 0x21 2 0 0 (List.replicate 16 1)); let c1 := (s.chip.route k).1; (s.on = true) ∧ (s.chip.atInput k = true) ∧ (s.chip.route k = (c1, .mine)) ∧ (s.chip.engine ≠ .faulted) ∧ (k.ptype = 33) ∧ ((16 ≤ (s.chip.stamped k).tag ∨ c1.dget (inKey (s.chip.stamped k).tag 2) ≠ 2 ∨ c1.gated = true))) ∧
    (let s : State := meshOn (fun c => c.dset (entEst 0 0x3000 9) 1); let k := (pk 0x22 2 0 0 (leBytes 4 0 ++ leBytes 4 64 ++ [1])); let c1 := (s.chip.route k).1; (s.on = true) ∧ (s.chip.atInput k = true) ∧ (s.chip.route k = (c1, .mine)) ∧ (s.chip.engine ≠ .faulted) ∧ (k.ptype = 34) ∧ ((s.chip.stamped k).tag < 8) ∧ (c1.eget (s.chip.stamped k).tag 0x3000 9 = 1) ∧ (c1.gated = false) ∧ (listWhole ((c1.est (s.chip.stamped k).tag).parts ++ [(fieldAt (s.chip.stamped k).payload 0 4, (s.chip.stamped k).payload.drop 8)]) (fieldAt (s.chip.stamped k).payload 4 4) = false)) ∧
    (let s : State := meshOn (fun c => c.dset (entEst 0 0x3000 9) 1); let k := (pk 0x22 2 0 0 (leBytes 4 0 ++ leBytes 4 64 ++ leBytes 4 0x46544C53 ++ List.replicate 60 0)); let c1 := (s.chip.route k).1; (s.on = true) ∧ (s.chip.atInput k = true) ∧ (s.chip.route k = (c1, .mine)) ∧ (s.chip.engine ≠ .faulted) ∧ (k.ptype = 34) ∧ ((s.chip.stamped k).tag < 8) ∧ (c1.eget (s.chip.stamped k).tag 0x3000 9 = 1) ∧ (c1.gated = false) ∧ (listWhole ((c1.est (s.chip.stamped k).tag).parts ++ [(fieldAt (s.chip.stamped k).payload 0 4, (s.chip.stamped k).payload.drop 8)]) (fieldAt (s.chip.stamped k).payload 4 4) = true) ∧ (fieldAt ((joinChunks ((c1.est (s.chip.stamped k).tag).parts ++ [(fieldAt (s.chip.stamped k).payload 0 4, (s.chip.stamped k).payload.drop 8)])).take (fieldAt (s.chip.stamped k).payload 4 4)) 0 4 = 0x46544C53) ∧ (goodInject ((joinChunks ((c1.est (s.chip.stamped k).tag).parts ++ [(fieldAt (s.chip.stamped k).payload 0 4, (s.chip.stamped k).payload.drop 8)])).take (fieldAt (s.chip.stamped k).payload 4 4)) = true)) ∧
    (let s : State := meshOn (fun c => c.dset (entEst 0 0x3000 9) 1); let k := (pk 0x23 2 0 0 (List.replicate 32 1)); let c1 := (s.chip.route k).1; (s.on = true) ∧ (s.chip.atInput k = true) ∧ (s.chip.route k = (c1, .mine)) ∧ (s.chip.engine ≠ .faulted) ∧ (k.ptype = 35) ∧ ((s.chip.stamped k).tag < 8) ∧ (c1.eget (s.chip.stamped k).tag 0x3000 9 = 1) ∧ (c1.gated = false)) ∧
    (let s : State := meshOn (fun c => c.dset (strKey 0 4) 6); let k := ({ pk 2 0 0 7 [] with slice := 5, dest := 7, input := 0 }); let c1 := (s.chip.route k).1; (s.on = true) ∧ (s.chip.atInput k = true) ∧ (s.chip.route k = (c1, .gone))) ∧
    (let s : State := meshOn; let k := ({ pk 2 0 0 7 [] with slice := 0xFF, dest := 7, src := 3 }); let c1 := (s.chip.route k).1; (s.on = true) ∧ (s.chip.atInput k = true) ∧ (s.chip.route k = (c1, .failed))) ∧
    (let s : State := meshOn; let k := (pk 2 0 0 7 []); let c1 := (s.chip.route k).1; (s.on = true) ∧ (s.chip.atInput k = true) ∧ (s.chip.route k = (c1, .mine)) ∧ (s.chip.engine ≠ .faulted)) ∧
    (let s : State := meshOn; let k := ({ pk 2 0 0 7 [] with input := 3 }); (s.on = true) ∧ (s.chip.atInput k = false)) := by
  exact ⟨by decide, by decide, by decide, by decide, by decide, by decide, by decide, by decide, by decide⟩

theorem test_breezeCommandsComplete_hypotheses_1 :
    (let s : State := bz 0 4 {}; let c1 : Chip := { ((s.chip.dinc (bzKey 19)).dset (bzKey 25) s.chip.breeze.heard) with breeze := { s.chip.breeze with heard := 0, beacon := some (s.chip.now - s.chip.syncAfter) } }; (s.live = true) ∧ (s.chip.radioOn = true) ∧ (s.chip.bzState = 4) ∧ (s.chip.beaconDue = true) ∧ (({ ((s.chip.dinc (bzKey 19)).dset (bzKey 25) s.chip.breeze.heard) with breeze := { s.chip.breeze with heard := 0, beacon := some (s.chip.now - s.chip.syncAfter) } } : Chip) = c1) ∧ (c1.oldest = none)) ∧
    (let m := um 2; let i := 0; let s : State := bz 0 4 { queue := [m] }; let c1 : Chip := { ((s.chip.dinc (bzKey 19)).dset (bzKey 25) s.chip.breeze.heard) with breeze := { s.chip.breeze with heard := 0, beacon := some (s.chip.now - s.chip.syncAfter) } }; (s.live = true) ∧ (s.chip.radioOn = true) ∧ (s.chip.bzState = 4) ∧ (s.chip.beaconDue = true) ∧ (({ ((s.chip.dinc (bzKey 19)).dset (bzKey 25) s.chip.breeze.heard) with breeze := { s.chip.breeze with heard := 0, beacon := some (s.chip.now - s.chip.syncAfter) } } : Chip) = c1) ∧ (c1.oldest = some (i, m)) ∧ (28 + m.body.length ≤ s.chip.longest false)) ∧
    (let m := { um 2 with body := List.replicate 240 (0 : Byte) }; let i := 0; let s : State := bz 0 4 { queue := [m] }; let c1 : Chip := { ((s.chip.dinc (bzKey 19)).dset (bzKey 25) s.chip.breeze.heard) with breeze := { s.chip.breeze with heard := 0, beacon := some (s.chip.now - s.chip.syncAfter) } }; (s.live = true) ∧ (s.chip.radioOn = true) ∧ (s.chip.bzState = 4) ∧ (s.chip.beaconDue = true) ∧ (({ ((s.chip.dinc (bzKey 19)).dset (bzKey 25) s.chip.breeze.heard) with breeze := { s.chip.breeze with heard := 0, beacon := some (s.chip.now - s.chip.syncAfter) } } : Chip) = c1) ∧ (c1.oldest = some (i, m)) ∧ (s.chip.longest false < 28 + m.body.length)) ∧
    (let s : State := bz 0 4 { beacon := some 0 }; (s.live = true) ∧ (s.chip.beaconDue = false)) ∧
    (let s : State := bzAt 500000 1 2 { beacon := some 0 }; let t := 500000; let c1 := ({ s.chip with breeze := { s.chip.breeze with used := some t } } : Chip).dset (bzKey 21) (Nat.min 0xFFFF (divRne (s.chip.offsetScaled t) 25000000)); (s.live = true) ∧ (s.chip.radioOn = true) ∧ (s.chip.bzState = 2) ∧ (s.chip.ownStart = some t) ∧ (s.chip.offsetScaled t ≤ 5000000000) ∧ (({ s.chip with breeze := { s.chip.breeze with used := some t } } : Chip).dset (bzKey 21) (Nat.min 0xFFFF (divRne (s.chip.offsetScaled t) 25000000)) = c1) ∧ (c1.oldest = none)) ∧
    (let s : State := bzAt 48500000 1 2 { beacon := some 0 }; let t := 48500000; (s.live = true) ∧ (s.chip.radioOn = true) ∧ ((s.chip.bzState = 2 ∨ s.chip.bzState = 3)) ∧ (s.chip.ownStart = some t) ∧ (5000000000 < s.chip.offsetScaled t)) ∧
    (let s : State := bzAt 500000 1 3 { beacon := some 0 }; let t := 500000; (s.live = true) ∧ (s.chip.radioOn = true) ∧ (s.chip.bzState = 3) ∧ (s.chip.ownStart = some t) ∧ (s.chip.offsetScaled t ≤ 5000000000)) ∧
    (let s : State := bzAt 500000 1 2 { beacon := some 0, used := some 500000 }; (s.live = true) ∧ (s.chip.ownStart = none)) ∧
    (let m := um 0xFF; let i := 0; let s : State := bzAt 500000 1 2 { beacon := some 0, queue := [m] }; let t := 500000; let c1 := ({ s.chip with breeze := { s.chip.breeze with used := some t } } : Chip).dset (bzKey 21) (Nat.min 0xFFFF (divRne (s.chip.offsetScaled t) 25000000)); (s.live = true) ∧ (s.chip.radioOn = true) ∧ (s.chip.bzState = 2) ∧ (s.chip.ownStart = some t) ∧ (s.chip.offsetScaled t ≤ 5000000000) ∧ (({ s.chip with breeze := { s.chip.breeze with used := some t } } : Chip).dset (bzKey 21) (Nat.min 0xFFFF (divRne (s.chip.offsetScaled t) 25000000)) = c1) ∧ (c1.oldest = some (i, m)) ∧ (4 + m.body.length ≤ c1.messageRoom m.dest) ∧ (m.dest = 0xFF)) ∧
    (let m := um 2; let i := 0; let s : State := bzAt 500000 1 2 { beacon := some 0, queue := [m] }; let t := 500000; let c1 := ({ s.chip with breeze := { s.chip.breeze with used := some t } } : Chip).dset (bzKey 21) (Nat.min 0xFFFF (divRne (s.chip.offsetScaled t) 25000000)); (s.live = true) ∧ (s.chip.radioOn = true) ∧ (s.chip.bzState = 2) ∧ (s.chip.ownStart = some t) ∧ (s.chip.offsetScaled t ≤ 5000000000) ∧ (({ s.chip with breeze := { s.chip.breeze with used := some t } } : Chip).dset (bzKey 21) (Nat.min 0xFFFF (divRne (s.chip.offsetScaled t) 25000000)) = c1) ∧ (c1.oldest = some (i, m)) ∧ (4 + m.body.length ≤ c1.messageRoom m.dest) ∧ (m.dest ≠ 0xFF)) ∧
    (let s : State := bzAt (syncEnd - 10000) 1 2 { beacon := some 0 }; let levels := syncLevels; let w := levels.take 16; let r := levels.drop 16; let k := 0; let slot := 0; let ack := false; (s.live = true) ∧ (s.chip.radioOn = true) ∧ (s.chip.breeze.sync = none) ∧ (s.chip.breeze.deaf + levels.length * s.chip.bitUpdates ≤ s.chip.now) ∧ (findPreamble levels = some (w, r)) ∧ (s.chip.syncAt w.sum r 0 = some k) ∧ (r.length = k + 32) ∧ (s.chip.syncWindow s.chip.now = some (slot, ack))) ∧
    (let s : State := bzAt (syncEnd - 10001) 1 2 { beacon := some 0 }; let levels := syncLevels; let w := levels.take 16; let r := levels.drop 16; let k := 0; (s.live = true) ∧ (s.chip.radioOn = true) ∧ (s.chip.breeze.sync = none) ∧ (s.chip.breeze.deaf + levels.length * s.chip.bitUpdates ≤ s.chip.now) ∧ (findPreamble levels = some (w, r)) ∧ (s.chip.syncAt w.sum r 0 = some k) ∧ (r.length = k + 32) ∧ (s.chip.syncWindow s.chip.now = none)) := by
  exact ⟨by decide, by decide, by decide, by decide, by decide, by decide, by decide, by decide, by decide, by decide, by decide, by decide⟩

theorem test_breezeCommandsComplete_hypotheses_2 :
    (let s : State := bz 1 2 {}; let levels := levelsOf [0x55, 0x55, 0, 0, 0, 0]; (s.live = true) ∧ ((findPreamble levels).all (fun q => (s.chip.syncAt q.1.sum q.2 0).isNone) = true)) ∧
    (let bs : List Byte := airHeader 1 0; let x : BreezeRx := rxSync; let s : State := bz 1 2 { sync := some x }; let levels := levelsOf bs; (s.live = true) ∧ (s.chip.breeze.sync = some x) ∧ (s.chip.radioOn = true) ∧ (s.chip.breeze.header = none) ∧ (((x.hear s.chip.posNat levels).bytes 32).take 3 = bs) ∧ (bs.length = 3) ∧ (fieldAt bs 2 1 = crc8 (bs.take 2)) ∧ (fieldAt bs 0 1 % 8 < 4) ∧ (fieldAt bs 1 1 ≤ s.chip.typeRoom (fieldAt bs 0 1 % 8)) ∧ (x.ack = (fieldAt bs 0 1 % 8 == 3)) ∧ ((s.chip.bzState = 1 → fieldAt bs 0 1 % 8 = 0))) ∧
    (let bs : List Byte := [1, 0] ++ leBytes 1 (crc8 [1, 0] + 1); let x : BreezeRx := rxSync; let s : State := bz 1 2 { sync := some x }; let levels := levelsOf bs; (s.live = true) ∧ (s.chip.breeze.sync = some x) ∧ (s.chip.radioOn = true) ∧ (s.chip.breeze.header = none) ∧ (((x.hear s.chip.posNat levels).bytes 32).take 3 = bs) ∧ (bs.length = 3) ∧ ((fieldAt bs 2 1 ≠ crc8 (bs.take 2) ∨ 4 ≤ fieldAt bs 0 1 % 8 ∨ s.chip.typeRoom (fieldAt bs 0 1 % 8) < fieldAt bs 1 1))) ∧
    (let bs : List Byte := airHeader 3 2; let x : BreezeRx := rxSync; let s : State := bz 1 2 { sync := some x }; let levels := levelsOf bs; (s.live = true) ∧ (s.chip.breeze.sync = some x) ∧ (s.chip.radioOn = true) ∧ (s.chip.breeze.header = none) ∧ (((x.hear s.chip.posNat levels).bytes 32).take 3 = bs) ∧ (bs.length = 3) ∧ (fieldAt bs 2 1 = crc8 (bs.take 2)) ∧ (fieldAt bs 0 1 % 8 < 4) ∧ (fieldAt bs 1 1 ≤ s.chip.typeRoom (fieldAt bs 0 1 % 8)) ∧ ((x.ack ≠ (fieldAt bs 0 1 % 8 == 3) ∨ (s.chip.bzState = 1 ∧ fieldAt bs 0 1 % 8 ≠ 0)))) ∧
    (let a := 17; let m : List Byte := List.replicate 8 1; let n := m.length; let x := 8; let r := 7; let s : State := (bz 1 2 { header := some (a, n), sync := some (rxHead a n) }).chipMap (fun c => c); let payload := (levelsOf (air a n m)).take (8 * n); let crc := (levelsOf (air a n m)).drop (8 * n); let c1 := (s.chip.takePayload (payload ++ crc)).1; let y := (rxHead a n).hear s.chip.posNat (payload ++ crc); (s.live = true) ∧ (s.chip.breeze.header = some (a, n)) ∧ (s.chip.radioOn = true) ∧ ((a % 8 = 1 ∨ a % 8 = 2)) ∧ (s.chip.takePayload (payload ++ crc) = (c1, some (y, m)))) ∧
    (let a := 17; let m : List Byte := List.replicate 8 1; let n := m.length; let x := 8; let r := 7; let s : State := (bz 1 2 { header := some (a, n), sync := some (rxHead a n) }).chipMap (fun c => c); let payload := (levelsOf (air a n m ++ [0])).take (8 * n); let crc := (levelsOf (air a n m ++ [0])).drop (8 * n); let c1 := (s.chip.takePayload (payload ++ crc)).1; let y := (rxHead a n).hear s.chip.posNat (payload ++ crc); (s.live = true) ∧ (s.chip.breeze.header = some (a, n)) ∧ (s.chip.radioOn = true) ∧ ((a % 8 = 1 ∨ a % 8 = 2)) ∧ (s.chip.takePayload (payload ++ crc) = (c1, none))) ∧
    (let a := 0; let m : List Byte := List.replicate 24 1; let n := m.length; let x := 8; let r := 7; let s : State := (bz 1 2 { header := some (a, n), sync := some (rxHead a n) }).chipMap (fun c => c.dset (bzKey 3) 8); let payload := (levelsOf (air a n m)).take (8 * n); let crc := (levelsOf (air a n m)).drop (8 * n); let c1 := (s.chip.takePayload (payload ++ crc)).1; let y := (rxHead a n).hear s.chip.posNat (payload ++ crc); (s.live = true) ∧ (s.chip.breeze.header = some (a, n)) ∧ (s.chip.radioOn = true) ∧ (a % 8 = 0) ∧ (s.chip.bzState ≠ 4) ∧ (s.chip.takePayload (payload ++ crc) = (c1, some (y, m))) ∧ ((m.length < 24 ∨ fieldAt m 0x14 1 ≠ s.chip.dget (bzKey 3)))) ∧
    (let a := 0; let m : List Byte := List.replicate 20 1 ++ [8, 0, 0, 0]; let n := m.length; let x := 8; let r := 7; let s : State := (bz 1 2 { header := some (a, n), sync := some (rxHead a n) }).chipMap (fun c => c.dset (bzKey 3) 8); let payload := (levelsOf (air a n m)).take (8 * n); let crc := (levelsOf (air a n m)).drop (8 * n); let c1 := (s.chip.takePayload (payload ++ crc)).1; let y := (rxHead a n).hear s.chip.posNat (payload ++ crc); let d : Chip := { c1 with breeze := c1.heardBeacon y (fieldAt m 0 4) }; let e := ((((((d.noteFrame 0 (y.quality m.length) x r).dset (bzKey 19) (fieldAt m 0 4)).dset (bzKey 22) (fieldAt m 4 8)).dset (bzKey 24) (fieldAt m 0x0C 4)).dset (bzKey 25) (fieldAt m 0x10 4)).dset (bzKey 23) y.stamp).dset (bzKey 20) 2; (s.live = true) ∧ (s.chip.breeze.header = some (a, n)) ∧ (s.chip.radioOn = true) ∧ (a % 8 = 0) ∧ (s.chip.bzState ≠ 4) ∧ (s.chip.takePayload (payload ++ crc) = (c1, some (y, m))) ∧ (24 ≤ m.length) ∧ (fieldAt m 0x14 1 = s.chip.dget (bzKey 3)) ∧ ({ c1 with breeze := c1.heardBeacon y (fieldAt m 0 4) } = d) ∧ (((((((d.noteFrame 0 (y.quality m.length) x r).dset (bzKey 19) (fieldAt m 0 4)).dset (bzKey 22) (fieldAt m 4 8)).dset (bzKey 24) (fieldAt m 0x0C 4)).dset (bzKey 25) (fieldAt m 0x10 4)).dset (bzKey 23) y.stamp).dset (bzKey 20) 2 = e)) ∧
    (let s : State := bzAt 25005 1 2 { ackDue := some (3, 4, 5) }; let a := 3; let q := 4; let t := 5; (s.live = true) ∧ (s.chip.breeze.ackDue = some (a, q, t)) ∧ (t + 25000 ≤ s.chip.now) ∧ (({ s.chip with breeze := { s.chip.breeze with ackDue := none } } : Chip).radioOn = true) ∧ (s.chip.bzState ≠ 1)) ∧
    (let s : State := bzAt 25004 1 2 { ackDue := some (3, 4, 5) }; let a := 3; let q := 4; let t := 5; (s.live = true) ∧ (s.chip.breeze.ackDue = some (a, q, t)) ∧ (s.chip.now < t + 25000)) ∧
    (let i := 0; let u := { um 2 with seq := some 5 }; let a := 19; let m : List Byte := [5, 9]; let n := m.length; let x := 8; let r := 7; let s : State := (bz 1 2 { header := some (a, n), sync := some (rxHead a n), awaiting := some 0, queue := [{ um 2 with seq := some 5 }] }).chipMap (fun c => c); let payload := (levelsOf (air a n m)).take (8 * n); let crc := (levelsOf (air a n m)).drop (8 * n); let c1 := (s.chip.takePayload (payload ++ crc)).1; let y := (rxHead a n).hear s.chip.posNat (payload ++ crc); let c2 := (c1.noteFrame (a / 8) (y.quality m.length) x r).dinc (bzKey 44); (s.live = true) ∧ (s.chip.breeze.header = some (a, n)) ∧ (s.chip.radioOn = true) ∧ (a % 8 = 3) ∧ (s.chip.takePayload (payload ++ crc) = (c1, some (y, m))) ∧ ((c1.noteFrame (a / 8) (y.quality m.length) x r).dinc (bzKey 44) = c2) ∧ (c2.breeze.awaiting.isSome = true) ∧ (c2.oldest = some (i, u)) ∧ (u.dest = a / 8) ∧ (u.seq = some (fieldAt m 0 1))) ∧
    (let a := 19; let m : List Byte := [5, 9]; let n := m.length; let x := 8; let r := 7; let s : State := (bz 1 2 { header := some (a, n), sync := some (rxHead a n) }).chipMap (fun c => c); let payload := (levelsOf (air a n m)).take (8 * n); let crc := (levelsOf (air a n m)).drop (8 * n); let c1 := (s.chip.takePayload (payload ++ crc)).1; let y := (rxHead a n).hear s.chip.posNat (payload ++ crc); let c2 := (c1.noteFrame (a / 8) (y.quality m.length) x r).dinc (bzKey 44); (s.live = true) ∧ (s.chip.breeze.header = some (a, n)) ∧ (s.chip.radioOn = true) ∧ (a % 8 = 3) ∧ (s.chip.takePayload (payload ++ crc) = (c1, some (y, m))) ∧ ((c1.noteFrame (a / 8) (y.quality m.length) x r).dinc (bzKey 44) = c2) ∧ (c2.breeze.awaiting = none)) := by
  exact ⟨by decide, by decide, by decide, by decide, by decide, by decide, by decide, by decide, by decide, by decide, by decide, by decide⟩

theorem test_breezeCommandsComplete_hypotheses_3 :
    (let m := um 2; let i := 0; let t := 0; let s : State := bzAt (25000 + syncEnd - 10000 + 2001) 1 2 { awaiting := some t, queue := [m] }; (s.live = true) ∧ (s.chip.breeze.awaiting = some t) ∧ (t + s.chip.ackAfter + 2000 < s.chip.now) ∧ (s.chip.breeze.sync.any (fun x => x.ack) = false) ∧ ((({ s.chip with breeze := { s.chip.breeze with awaiting := none } } : Chip).dinc (bzKey 38)).oldest = some (i, m)) ∧ (m.sends ≤ s.chip.dget (bzKey 10))) ∧
    (let m := { um 2 with sends := 256 }; let i := 0; let t := 0; let s : State := bzAt (25000 + syncEnd - 10000 + 2001) 1 2 { awaiting := some t, queue := [m] }; (s.live = true) ∧ (s.chip.breeze.awaiting = some t) ∧ (t + s.chip.ackAfter + 2000 < s.chip.now) ∧ (s.chip.breeze.sync.any (fun x => x.ack) = false) ∧ ((({ s.chip with breeze := { s.chip.breeze with awaiting := none } } : Chip).dinc (bzKey 38)).oldest = some (i, m)) ∧ (s.chip.dget (bzKey 10) < m.sends)) ∧
    (let t := 0; let s : State := bzAt (25000 + syncEnd - 10000 + 2000) 1 2 { awaiting := some t }; (s.live = true) ∧ (s.chip.breeze.awaiting = some t) ∧ (s.chip.now ≤ t + s.chip.ackAfter + 2000)) ∧
    (let s : State := bzAt (48000000 + syncEnd + 10001) 1 2 { beacon := some 0, misses := 2 }; (s.live = true) ∧ (s.chip.radioOn = true) ∧ ((s.chip.bzState = 2 ∨ s.chip.bzState = 3)) ∧ (s.chip.breeze.sync = none) ∧ (s.chip.slotStart (32 * (s.chip.breeze.misses + 1)) + s.chip.syncAfter + 10000 < s.chip.now) ∧ (s.chip.breeze.misses < 3)) ∧
    (let s : State := bzAt (64000000 + syncEnd + 10001) 1 3 { beacon := some 0, misses := 3 }; (s.live = true) ∧ (s.chip.radioOn = true) ∧ ((s.chip.bzState = 2 ∨ s.chip.bzState = 3)) ∧ (s.chip.breeze.sync = none) ∧ (s.chip.slotStart (32 * (s.chip.breeze.misses + 1)) + s.chip.syncAfter + 10000 < s.chip.now) ∧ (3 ≤ s.chip.breeze.misses)) ∧
    (let s : State := bzAt (64000000 + syncEnd + 10000) 1 3 { beacon := some 0, misses := 3 }; (s.live = true) ∧ (s.chip.now ≤ s.chip.slotStart (32 * (s.chip.breeze.misses + 1)) + s.chip.syncAfter + 10000)) ∧
    (let x := rxSync; let s : State := bzAt 500000 1 2 { beacon := some 0, sync := some x }; (s.live = true) ∧ (s.chip.radioOn = true) ∧ (s.chip.bzState ≠ 1) ∧ (s.chip.breeze.sync = some x) ∧ (x.ended < s.chip.slotStart (s.chip.slotAt s.chip.now))) ∧
    (let s : State := (bz 1 2 { sources := [(3, ⟨0, 0, 0⟩)] }).chipMap (fun c => c.dset (bzKey 19) 16); let src := 3; let x := (⟨0, 0, 0⟩ : BreezeSource); (s.live = true) ∧ (tabGet? s.chip.breeze.sources src = some x) ∧ (16 ≤ (s.chip.dget (bzKey 19) + m32 - x.heard % m32) % m32)) ∧
    (let s : State := (bz 1 2 { sources := [(3, ⟨0, 0, 0⟩)] }).chipMap (fun c => c.dset (bzKey 19) 15); let src := 3; let x := (⟨0, 0, 0⟩ : BreezeSource); (s.live = true) ∧ (tabGet? s.chip.breeze.sources src = some x) ∧ ((s.chip.dget (bzKey 19) + m32 - x.heard % m32) % m32 < 16)) := by
  exact ⟨by decide, by decide, by decide, by decide, by decide, by decide, by decide, by decide, by decide⟩

theorem test_governorCommandsComplete_hypotheses_1 :
    (let s : State := gov .run { demandAt := some 0 }; let u := 50; (s.on = true) ∧ (s.chip.msSince s.chip.gov.demandAt = false)) ∧
    (let s : State := gov .run {}; let u := 101; (s.on = true) ∧ (s.chip.msSince s.chip.gov.demandAt = true) ∧ ((s.chip.gov.started = false ∨ s.chip.gov.p7 = true ∨ s.chip.engine = .hold ∨ s.chip.engine = .faulted))) ∧
    (let s : State := gov .run { started := true }; let u := 100; (s.on = true) ∧ (s.chip.msSince s.chip.gov.demandAt = true) ∧ (s.chip.gov.started = true) ∧ (s.chip.gov.p7 = false) ∧ (s.chip.engine ≠ .hold) ∧ (s.chip.engine ≠ .faulted) ∧ (s.chip.dget (govKey 5) ≤ Nat.min u 100)) ∧
    (let s : State := gov .run { started := true }; let u := 0; (s.on = true) ∧ (s.chip.msSince s.chip.gov.demandAt = true) ∧ (s.chip.gov.started = true) ∧ (s.chip.gov.p7 = false) ∧ (s.chip.engine ≠ .hold) ∧ (s.chip.engine ≠ .faulted) ∧ (Nat.min u 100 < s.chip.dget (govKey 5)) ∧ (Nat.min u 100 < s.chip.dget (govKey 6))) ∧
    (let s : State := gov .run { started := true }; let u := 60; (s.on = true) ∧ (s.chip.msSince s.chip.gov.demandAt = true) ∧ (s.chip.gov.started = true) ∧ (s.chip.gov.p7 = false) ∧ (s.chip.engine ≠ .hold) ∧ (s.chip.engine ≠ .faulted) ∧ (Nat.min u 100 < s.chip.dget (govKey 5)) ∧ (s.chip.dget (govKey 6) ≤ Nat.min u 100)) ∧
    (let s : State := gov .run { coolSince := some 0 } (fun c => { c with now := 2500000 }); let t := 0; (s.on = true) ∧ (s.chip.gov.coolSince = some t) ∧ (t + 2500000 ≤ s.chip.now)) ∧
    (let s : State := gov .run { coolSince := some 0 } (fun c => { c with now := 2499999 }); let t := 0; (s.on = true) ∧ (s.chip.gov.coolSince = some t) ∧ (s.chip.now < t + 2500000)) ∧
    (let s : State := gov .run {}; let ts := [-440, 1200, 0, 0, 0, 0, 0, 0]; (s.on = true) ∧ ((List.range 8).filter (fun k => !s.chip.isRetired (.sensor k) && (ts.getD k 0 < -440 || 1200 < ts.getD k 0)) = [])) ∧
    (let s : State := gov .run {}; let ts := [-440, 1201, 0, 0, 0, 0, 0, 0]; let k := 1; (s.on = true) ∧ ((List.range 8).filter (fun k => !s.chip.isRetired (.sensor k) && (ts.getD k 0 < -440 || 1200 < ts.getD k 0)) = [k])) ∧
    (let s : State := gov .run {}; let i := 5; let c2 := (let c1 := s.chip.dset (railKey 2) (Nat.min i 0xFFFF); if c1.dget (railKey 3) < Nat.min i 0xFFFF then c1.dset (railKey 3) (Nat.min i 0xFFFF) else c1); (s.on = true) ∧ ((let c1 := s.chip.dset (railKey 2) (Nat.min i 0xFFFF); if c1.dget (railKey 3) < Nat.min i 0xFFFF then c1.dset (railKey 3) (Nat.min i 0xFFFF) else c1) = c2) ∧ (Nat.min i 0xFFFF ≤ c2.dget (railKey 1))) ∧
    (let s : State := gov .run {}; let i := 65535; let c2 := (let c1 := s.chip.dset (railKey 2) (Nat.min i 0xFFFF); if c1.dget (railKey 3) < Nat.min i 0xFFFF then c1.dset (railKey 3) (Nat.min i 0xFFFF) else c1); (s.on = true) ∧ ((let c1 := s.chip.dset (railKey 2) (Nat.min i 0xFFFF); if c1.dget (railKey 3) < Nat.min i 0xFFFF then c1.dset (railKey 3) (Nat.min i 0xFFFF) else c1) = c2) ∧ (c2.dget (railKey 1) < Nat.min i 0xFFFF) ∧ ((c2.gov.stepAt = none ∨ ∃ t, c2.gov.stepAt = some t ∧ t + 12500 ≤ c2.now))) ∧
    (let s : State := gov .run { lowSince := some 0 } (fun c => { c with now := 2500000 }); let t := 0; (s.on = true) ∧ (s.chip.gov.lowSince = some t) ∧ (t + 2500000 ≤ s.chip.now)) := by
  exact ⟨by decide, by decide, by decide, by decide, by decide, by decide, by decide, by decide, by decide, by decide, by decide, by decide⟩

theorem test_governorCommandsComplete_hypotheses_2 :
    (let s : State := withEntry (gov .config {}) (thermalKey 1) 920; let tj := (920 : Int); (s.on = true) ∧ (920 ≤ tj) ∧ (920 ≤ s.chip.temp (thermalKey 1)) ∧ (s.chip.engine = .config)) ∧
    (let s : State := withEntry (gov .ready {}) (thermalKey 1) 920; let tj := (920 : Int); (s.on = true) ∧ (920 ≤ tj) ∧ (920 ≤ s.chip.temp (thermalKey 1)) ∧ (s.chip.engine = .ready)) ∧
    (let s : State := withEntry (gov .run {}) (thermalKey 1) 920; let tj := (920 : Int); (s.on = true) ∧ (920 ≤ tj) ∧ (920 ≤ s.chip.temp (thermalKey 1)) ∧ (s.chip.engine = .run)) ∧
    (let s : State := withEntry (gov .boot {}) (thermalKey 1) 920; let tj := (920 : Int); (s.on = true) ∧ (920 ≤ tj) ∧ (920 ≤ s.chip.temp (thermalKey 1)) ∧ (s.chip.engine = .boot) ∧ (s.chip.gov.bootHot = false)) ∧
    (let s : State := withEntry (gov .selftest {}) (thermalKey 1) 920; let tj := (920 : Int); (s.on = true) ∧ (920 ≤ tj) ∧ (920 ≤ s.chip.temp (thermalKey 1)) ∧ (s.chip.engine = .selftest) ∧ (s.chip.gov.bootHot = false)) ∧
    (let s : State := withEntry (gov .hold {}) (thermalKey 1) 920; let tj := (920 : Int); (s.on = true) ∧ (920 ≤ tj) ∧ (920 ≤ s.chip.temp (thermalKey 1)) ∧ (s.chip.engine = .hold) ∧ (s.chip.dget (govKey 10) ≠ 2)) ∧
    (let s : State := gov .boot { bootHot := true }; let tj := (920 : Int); (s.on = true) ∧ (((s.chip.engine = .hold ∧ s.chip.dget (govKey 10) = 2) ∨ ((s.chip.engine = .boot ∨ s.chip.engine = .selftest) ∧ s.chip.gov.bootHot = true)))) ∧
    (let s : State := gov .run {}; let tj := (919 : Int); (s.on = true) ∧ ((tj < 920 ∨ s.chip.temp (thermalKey 1) < 920))) ∧
    (let s : State := gov .boot { bootHot := true }; let tj := (0 : Int); (s.on = true) ∧ (s.chip.gov.bootHot = true) ∧ (tj ≤ s.chip.temp (thermalKey 11) - 80)) ∧
    (let s : State := gov .run {}; (s.on = true)) ∧
    (let s : State := gov .run { vrFails := 1 }; (s.on = true) ∧ (s.chip.gov.vrFails < 2)) ∧
    (let s : State := gov .run { vrFails := 2 }; (s.on = true) ∧ (2 ≤ s.chip.gov.vrFails)) := by
  exact ⟨by decide, by decide, by decide, by decide, by decide, by decide, by decide, by decide, by decide, by decide, by decide, by decide⟩

theorem test_governorCommandsComplete_hypotheses_3 :
    (let s : State := gov .run {}; let w := 0x20; (s.on = true) ∧ (statusShowsOutputFault w = true)) ∧
    (let s : State := gov .run {}; let w := 1; (s.on = true) ∧ (statusShowsOutputFault w = false)) ∧
    (let s : State := gov .run { settle := some 0 }; let t := 0; (s.on = true) ∧ (s.chip.gov.settle = some t) ∧ (t ≤ s.chip.now) ∧ (s.chip.gov.p7 = false) ∧ (s.chip.gov.leaving = none)) ∧
    (let s : State := gov .hold { settle := some 0, p7 := true }; let t := 0; (s.on = true) ∧ (s.chip.gov.settle = some t) ∧ (t ≤ s.chip.now) ∧ (s.chip.gov.p7 = true) ∧ (s.chip.gov.leaving = none)) ∧
    (let s : State := gov .hold { settle := some 0, p7 := true, leaving := some 0 }; let t := 0; let u := 0; (s.on = true) ∧ (s.chip.gov.settle = some t) ∧ (t ≤ s.chip.now) ∧ (s.chip.gov.p7 = true) ∧ (s.chip.gov.leaving = some u)) ∧
    (let s : State := gov .run { settle := some 1 }; let t := 1; (s.on = true) ∧ (s.chip.gov.settle = some t) ∧ (s.chip.now < t)) ∧
    (let s : State := gov .ready {} (fun c => { c with now := 1000000000 }.dset (govKey 8) 1); (s.on = true) ∧ (s.chip.engine = .ready) ∧ (s.chip.dbool (govKey 8) = true) ∧ (s.chip.gov.p6 = false) ∧ (s.chip.ledger.all LedgerEntry.ofCue = true) ∧ (s.chip.working = false) ∧ (s.chip.gov.workAt + 250 * s.chip.dget (govKey 9) ≤ s.chip.now)) ∧
    (let s : State := gov .run {}; (s.on = true) ∧ (s.chip.engine ≠ .ready)) ∧
    (let s : State := gov .ready { p6 := true, wake := true }; (s.on = true) ∧ (s.chip.gov.p6 = true) ∧ (s.chip.gov.wake = true)) ∧
    (let s : State := gov .ready { p6 := true }; (s.on = true) ∧ (s.chip.gov.wake = false)) ∧
    (let s : State := gov .hold {}; (s.on = true) ∧ (s.chip.engine = .hold) ∧ (s.chip.gov.p7 = false) ∧ (s.chip.gov.leaving = none)) ∧
    (let s : State := gov .hold { leaving := some 0 } (fun c => { c with now := 1000000000 }); let t := 0; (s.on = true) ∧ (s.chip.engine = .hold) ∧ (s.chip.gov.leaving = some t) ∧ (t + 250 * s.chip.dget (railKey 9) ≤ s.chip.now)) := by
  exact ⟨by decide, by decide, by decide, by decide, by decide, by decide, by decide, by decide, by decide, by decide, by decide, by decide⟩

theorem test_governorCommandsComplete_hypotheses_4 :
    (let s : State := gov .hold { leaving := some 0 }; let t := 0; (s.on = true) ∧ (s.chip.gov.leaving = some t) ∧ (s.chip.now < t + 250 * s.chip.dget (railKey 9))) := by
  decide

theorem test_faultAndFlashCommandsComplete_hypotheses_1 :
    (let s : State := gov .run {}; let unit := UnitName.stringLane 5 3; let check := 9; let address := 0; (s.on = true) ∧ (unitExists unit = true) ∧ (s.chip.engine ≠ .reset) ∧ (s.chip.isRetired unit = false) ∧ (s.chip.noFrame unit = false)) ∧
    (let s : State := gov .run {} (fun c => { c with faults := { retired := [.breeze] } }); let unit := UnitName.breeze; let check := 1; let address := 0; (s.on = true) ∧ (s.chip.isRetired unit = true)) ∧
    (let s : State := gov .boot {}; let cause := 10; (s.on = true) ∧ (1 ≤ cause) ∧ (cause ≤ 10) ∧ (s.chip.engine ≠ .reset) ∧ (s.chip.engine ≠ .faulted) ∧ ((s.chip.engine = .boot ∨ (cause ≠ 6 ∧ cause ≠ 10)))) ∧
    (let x := (⟨1, 7, 2, []⟩ : CalStore); let s : State := gov .run {} (fun c => { c with flash := { storing := some x } }); (s.on = true) ∧ (s.chip.flash.storing = some x)) ∧
    (let x := (⟨1, 7, 2, []⟩ : CalStore); let s : State := gov .run {} (fun c => { c with flash := { storing := some x } }); (s.on = true) ∧ (s.chip.flash.storing ≠ none)) ∧
    (let s : State := gov .run {} (fun c => { c with faults := { signing := true } }); (s.on = true) ∧ (s.chip.faults.signing = true)) ∧
    (let x := ({ image := { seq := 7, version := 1, levels := 3, sound := true, models := true }, tensor := 5, bytes := [1] } : FwWrite); let s : State := tcon [1] 1 (fun c => { c with flash := { installing := some x } }); (s.on = true) ∧ (s.chip.flash.installing = some x) ∧ (s.chip.dget (ent 0x6000 9) = 0) ∧ ((s.chip.contents x.tensor).take x.bytes.length = x.bytes)) ∧
    (let x := ({ image := { seq := 7, version := 1, levels := 3, sound := true, models := true }, tensor := 5, bytes := [1] } : FwWrite); let s : State := tcon [1] 1 (fun c => { c with flash := { installing := some x } }.dset (ent 0x6000 9) 1); (s.on = true) ∧ (s.chip.flash.installing = some x) ∧ (s.chip.dget (ent 0x6000 9) ≠ 0) ∧ ((s.chip.contents x.tensor).take x.bytes.length = x.bytes)) ∧
    (let x := ({ image := { seq := 7, version := 1, levels := 3, sound := true, models := true }, tensor := 5, bytes := [2] } : FwWrite); let s : State := tcon [1] 1 (fun c => { c with flash := { installing := some x } }); (s.on = true) ∧ (s.chip.flash.installing = some x) ∧ ((s.chip.contents x.tensor).take x.bytes.length ≠ x.bytes)) ∧
    (let x := ({ image := { seq := 7, version := 1, levels := 3, sound := true, models := true }, tensor := 5, bytes := [1] } : FwWrite); let s : State := tcon [1] 1 (fun c => { c with flash := { installing := some x } }); (s.on = true) ∧ (s.chip.flash.installing ≠ none)) := by
  exact ⟨by decide, by decide, by decide, by decide, by decide, by decide, by decide, by decide, by decide, by decide⟩

end Sys2Proof.Machine
end

section
/-! SUPPORT. How a command's completion is proved: what `Does` and `Leaves` ask of a command that is one of the shared
operations, and the two cold resets case by case (R804, R805, R856, R20). -/

namespace Sys2Proof.Machine

/-! ### From the shared operations to `Does` and `Leaves` -/

theorem State.off_of_on {s : State} (hs : s.on = true) : s.chip.off = false := by simpa [State.on] using hs

/-- A command that is a `run` completes on a running engine with the effect it runs. -/
theorem does_of_run {i : Instr} {s : State} {f : Chip → Chip} {c : Chip} (hs : s.on = true) (he : exec i s = run f s)
    (hc : f s.chip = c) : Does i s c :=
  ⟨{}, by rw [he, run_on f s (State.off_of_on hs), hc]⟩

/-- On a running engine a change of a pin is no more than a `run`. -/
theorem runPin_on (pin : Board → Board) (f : Chip → Chip) (s : State) (h : s.chip.off = false) :
    runPin pin f s = run f s := by simp [runPin, h]

theorem does_of_runPin {i : Instr} {s : State} {pin : Board → Board} {f : Chip → Chip} {c : Chip} (hs : s.on = true)
    (he : exec i s = runPin pin f s) (hc : f s.chip = c) : Does i s c :=
  does_of_run hs (he.trans (runPin_on pin f s (State.off_of_on hs))) hc

/-- A dictionary operation in its place completes on a running engine with its effect. -/
theorem does_of_runRound {i : Instr} {s : State} {o : RoundOp} {c : Chip} (hs : s.on = true) (ho : s.round.inOrder o = true)
    (he : exec i s = runRound o s) (hc : o.effect s.chip = c) : Does i s c :=
  ⟨s.round.push s.chip o, by rw [he, runRound_on o s (State.off_of_on hs) ho, hc]⟩

/-- A command that is a reset leaves the chip at its effect. -/
theorem leaves_of_runReset {i : Instr} {s : State} {f : Chip → Chip} {c : Chip} (he : exec i s = runReset f s)
    (hc : f s.chip = c) : Leaves i s c :=
  ⟨{}, by rw [he, runReset_next, hc]⟩

/-- What is no reset always answers a next state. -/
theorem Ordinary.next {s : State} {o : Host.Outcome State Fault Refusal} (h : Ordinary s o) : ∃ t, o = .next t := by
  obtain ⟨hoff, hon⟩ := h
  cases hs : s.chip.off with
  | true => obtain ⟨pin, -, ho⟩ := hoff hs; exact ⟨_, ho⟩
  | false => obtain ⟨c, r, ho⟩ := hon hs; exact ⟨_, ho⟩

/-! ### POWER_ON_RESET and REFCLK_25_RETURN -/

theorem manufacturing_iff (mode : Nat) : manufacturing mode = true ↔ mode % 4 = 3 := by simp [manufacturing]

theorem exec_powerOnReset_noClock (mode ident : Nat) (s : State) (hr : s.chip.board.refclk = false) :
    exec (.powerOnReset mode ident) s = runReset (fun c => { c.held with board := { c.board with porstLow := false } }) s := by
  simp [exec, execPowerOnReset, hr]

theorem exec_powerOnReset_test (mode ident : Nat) (s : State) (hr : s.chip.board.refclk = true) (hm : mode % 4 = 3) :
    exec (.powerOnReset mode ident) s = .fault .manufacturingTest := by
  simp [exec, execPowerOnReset, hr, manufacturing, hm]

theorem exec_powerOnReset_cold (mode ident : Nat) (s : State) (hr : s.chip.board.refclk = true) (hm : mode % 4 ≠ 3) :
    exec (.powerOnReset mode ident) s =
      runReset (fun c => ({ c with board := { c.board with porstLow := false } }).coldReset mode ident) s := by
  simp [exec, execPowerOnReset, hr, manufacturing, hm]

/-- A clock that is there does not return. -/
theorem exec_refclk25Return_clocked (mode ident : Nat) (s : State) (hr : s.chip.board.refclk = true) :
    exec (.refclk25Return mode ident) s = .next s := by
  simp [exec, execRefclk25Return, hr]

theorem exec_refclk25Return_held (mode ident : Nat) (s : State) (hr : s.chip.board.refclk = false)
    (hp : s.chip.board.porstLow = true) :
    exec (.refclk25Return mode ident) s = runReset (fun c => { c with board := { c.board with refclk := true } }) s := by
  simp [exec, execRefclk25Return, hr, hp]

theorem exec_refclk25Return_test (mode ident : Nat) (s : State) (hr : s.chip.board.refclk = false)
    (hp : s.chip.board.porstLow = false) (hm : mode % 4 = 3) :
    exec (.refclk25Return mode ident) s = .fault .manufacturingTest := by
  simp [exec, execRefclk25Return, hr, hp, manufacturing, hm]

theorem exec_refclk25Return_cold (mode ident : Nat) (s : State) (hr : s.chip.board.refclk = false)
    (hp : s.chip.board.porstLow = false) (hm : mode % 4 ≠ 3) :
    exec (.refclk25Return mode ident) s =
      runReset (fun c => ({ c with board := { c.board with refclk := true } }).coldReset mode ident) s := by
  simp [exec, execRefclk25Return, hr, hp, manufacturing, hm]

/-! ### Every command completes, but a reset into manufacturing test -/

theorem powerOnReset_next_or_stops (mode ident : Nat) (s : State) :
    (∃ t, exec (.powerOnReset mode ident) s = .next t) ∨
      (exec (.powerOnReset mode ident) s = .fault .manufacturingTest ∧ manufacturing mode = true) := by
  cases hr : s.chip.board.refclk with
  | false => exact .inl ⟨_, exec_powerOnReset_noClock mode ident s hr⟩
  | true =>
    by_cases hm : mode % 4 = 3
    · exact .inr ⟨exec_powerOnReset_test mode ident s hr hm, (manufacturing_iff mode).2 hm⟩
    · exact .inl ⟨_, exec_powerOnReset_cold mode ident s hr hm⟩

theorem refclk25Return_next_or_stops (mode ident : Nat) (s : State) :
    (∃ t, exec (.refclk25Return mode ident) s = .next t) ∨
      (exec (.refclk25Return mode ident) s = .fault .manufacturingTest ∧ manufacturing mode = true) := by
  cases hr : s.chip.board.refclk with
  | true => exact .inl ⟨_, exec_refclk25Return_clocked mode ident s hr⟩
  | false =>
    cases hp : s.chip.board.porstLow with
    | true => exact .inl ⟨_, exec_refclk25Return_held mode ident s hr hp⟩
    | false =>
      by_cases hm : mode % 4 = 3
      · exact .inr ⟨exec_refclk25Return_test mode ident s hr hp hm, (manufacturing_iff mode).2 hm⟩
      · exact .inl ⟨_, exec_refclk25Return_cold mode ident s hr hp hm⟩

/-- Settles O3: an ordinary command answers a next state (`Ordinary.next`), and so does every reset but the two whose straps
select manufacturing test. -/
theorem onlyManufacturingTestStops : Obligations.OnlyManufacturingTestStops := by
  intro i s
  obtain h | ⟨mode, ident, rfl⟩ | rfl | ⟨mode, ident, rfl⟩ | rfl | ⟨ir, rfl⟩ := exec_cases i
  case inl => exact .inl (exec_ordinary i h s).next
  case inr.inl => exact powerOnReset_next_or_stops mode ident s
  case inr.inr.inr.inl => exact refclk25Return_next_or_stops mode ident s
  -- REFCLK_25_LOSS, WARMRST_N_FALL and TAP_INSTRUCTION are resets on every path
  all_goals exact .inl ⟨_, rfl⟩

end Sys2Proof.Machine
end

section
/-! SUPPORT. The order of wrapping quantities (R10, R11). -/

namespace Sys2Proof.Machine

/-- The distance that `laterMod` compares is the integer distance modulo m. -/
theorem wrapDistance_eq (m a b : Nat) (hm : 0 < m) :
    (((a % m + (m - b % m)) % m : Nat) : Int) = ((a : Int) - b) % m := by
  have hb : b % m ≤ m := (Nat.mod_lt b hm).le
  push_cast [Nat.cast_sub hb]
  calc ((a : Int) % m + (m - (b : Int) % m)) % m
      = ((a : Int) % m - (b : Int) % m + m) % m := by ring_nf
    _ = ((a : Int) - b) % m := by rw [Int.add_emod_right, ← Int.sub_emod]

/-- R10, with the distance as an integer. -/
theorem laterMod_iff (m a b : Nat) (hm : 0 < m) :
    laterMod m a b = true ↔ 0 < ((a : Int) - b) % m ∧ ((a : Int) - b) % m < (m / 2 : Nat) := by
  simp only [laterMod, Bool.and_eq_true, decide_eq_true_eq, ← wrapDistance_eq m a b hm, Nat.cast_pos, Nat.cast_lt]

/-- Settles O11: `laterMod_iff` at the modulus 2^n, half of which is 2^(n-1). -/
theorem laterIsHalfTheCircle : Obligations.LaterIsHalfTheCircle := by
  intro n a b hn
  have half : 2 ^ n / 2 = 2 ^ (n - 1) := by
    obtain ⟨k, rfl⟩ := Nat.exists_eq_succ_of_ne_zero hn.ne'
    simp [Nat.pow_succ]
  have later := laterMod_iff (2 ^ n) a b (by positivity)
  rw [half] at later
  push_cast at later
  constructor
  · rw [later]; omega
  · intro opposite
    rw [Bool.eq_false_iff, Ne, later, opposite]; omega

end Sys2Proof.Machine
end

section
/-! SUPPORT. The dictionary server's refusal of another voice's entry (R18, R151), and the state after reset. -/

namespace Sys2Proof.Machine

/-- R18: check 3 refuses an entry marked OWN to every voice but V0, read or written. -/
theorem foreign_owned (c : Chip) (v idx sub : Nat) (e : Entry) (write : Bool) (hv : v ≠ 0)
    (hown : bit (c.accessOf idx sub e) 3 = true) : c.foreign v idx sub e write = 0x0A020003 := by
  simp [Chip.foreign, hv, hown]

theorem accessOf_callWake (c : Chip) (idx sub : Nat) (e : Entry) : c.callWake.accessOf idx sub e = c.accessOf idx sub e := rfl

/-- R151: a READ that check 3 refuses answers its code, whatever the later checks say. -/
theorem dictRead_foreign (c : Chip) (v idx sub : Nat) (e : Entry) (he : findEntry idx sub = some e)
    (hf : c.foreign v idx sub e false = 0x0A020003) : c.dictRead v idx sub = (0x0A020003, []) := by
  have hcode : ∀ rest, firstCode (0x0A020003 :: rest) = 0x0A020003 := fun rest => firstCode_foreign _ List.mem_cons_self
  simp [Chip.dictRead, he, hf, hcode]

/-- R151: so does a WRITE, whatever its value and length. -/
theorem writeCode_foreign (c : Chip) (v idx sub : Nat) (data : List Byte) (e : Entry) (he : findEntry idx sub = some e)
    (hf : c.foreign v idx sub e true = 0x0A020003) : c.writeCode v idx sub data = 0x0A020003 := by
  have hearly : 0x0A020003 ∈ c.earlyCodes v idx sub data.length e := by simp [Chip.earlyCodes, hf]
  have hlate : ∀ own range, firstCode (own :: range :: c.earlyCodes v idx sub data.length e) = 0x0A020003 :=
    fun _ _ => firstCode_foreign _ (List.mem_cons_of_mem _ (List.mem_cons_of_mem _ hearly))
  simp only [Chip.writeCode, he]
  split
  · exact firstCode_foreign _ hearly
  · simp only [hlate]; rfl

/-- A READ of a running engine that answers: the reply is noted, whatever the update's round holds. -/
theorem does_dictRead {s : State} {v idx sub code : Nat} {data : List Byte} (hs : s.on = true) (hq : s.chip.silent = false)
    (hv : v < 16) (hr : s.chip.callWake.dictRead v idx sub = (code, data)) :
    Does (.dictRead v idx sub) s (s.chip.callWake.noteReply v 1 idx sub code data) := by
  refine does_of_runRound hs (inOrder_read _ (.query v 1 idx sub) rfl) rfl ?_
  simp [RoundOp.effect, hv, Chip.query, hq, hr]

/-- A WRITE in its turn that a check refuses is answered with the check's code, and nothing else changes. -/
theorem does_dictWrite_refused {s : State} {v idx sub code : Nat} {via : Via} {data : List Byte} (hs : s.on = true)
    (hq : s.chip.silent = false) (hturn : s.turn v via = true) (hvia : goodVia v via = true)
    (hcode : s.chip.callWake.writeCode v idx sub data = code) (h0 : code ≠ 0) :
    Does (.dictWrite v via idx sub data) s (s.chip.callWake.respond { voice := v, via, idx, sub, data } code) := by
  refine does_of_runRound (o := .write (true && goodVia v via) { voice := v, via, idx, sub, data }) hs hturn rfl ?_
  simp only [RoundOp.effect, hvia, Bool.and_self, if_true]
  exact submit_refused _ _ _ hq hcode h0

/-- Settles O19: check 3 refuses with 0x0A020003 (`foreign_owned`), which ranks before every other code. -/
theorem ownedEntriesAreV0sAlone : Obligations.OwnedEntriesAreV0sAlone := by
  intro s v via idx sub data e hs hq hv0 hv he hown
  have hf : ∀ write, s.chip.callWake.foreign v idx sub e write = 0x0A020003 := fun write =>
    foreign_owned s.chip.callWake v idx sub e write hv0 hown
  exact ⟨does_dictRead hs hq hv (dictRead_foreign _ v idx sub e he (hf false)), fun hturn hvia =>
    does_dictWrite_refused hs hq hturn hvia (writeCode_foreign _ v idx sub data e he (hf true)) (by decide)⟩

/-- An entry that the store does not list holds its default. -/
theorem dget_of_unlisted (c : Chip) (key : Nat) (h : tabGet? c.dict key = none) : c.dget key = dfltOf key := by
  simp [Chip.dget, h]

/-- At power-on nothing is left that a cold reset clears. -/
theorem reset_cleared : State.reset.chip.cleared = true := by decide

/-- Settles O10: the dictionary store is empty at power-on (`dget_of_unlisted`), and so is everything that a cold reset clears. -/
theorem resetLeavesTheDefaults : Obligations.ResetLeavesTheDefaults :=
  ⟨rfl, rfl, rfl, reset_cleared, rfl, rfl, rfl, rfl, fun key => dget_of_unlisted _ key (tabGet?_nil key)⟩

end Sys2Proof.Machine
end

section
/-! SUPPORT. Resets, board pins, boot, self-test and the test access port: each command's completion (chapters 17 and 18). -/

namespace Sys2Proof.Machine

/-! ### The engine control block's registers (Table 3.5) -/

/-- The engine control block's window is at 0x10000, in both grades: of the rows of Table 3.5 the fretboard's ends before it,
and the control block's own comes second. -/
theorem windowOf_control (g : Grade) (o : Nat) (ho : o < 0x1000) : windowOf g 0 (0x10000 + o) = some (0x02, 0, o) := by
  have hrows : fretboardRows g = [0x0001, 1, 2, 0x0, 0x10000, 0x1F00, 0, 0] :: [0x0002, 1, 0, 0x10000, 0x1000, 0x1000, 0, 0] ::
    (fretboardRows g).drop 2 := rfl
  have hin : 0x10000 + o < 0x11000 := by omega
  have hfirst : o / 0x1000 = 0 := Nat.div_eq_of_lt ho
  have hoffset : o % 0x1000 = o := Nat.mod_eq_of_lt ho
  unfold windowOf pfWindow
  rw [hrows]
  simp [bit, hin, hfirst, hoffset]

/-- A write of a whole register of the engine control block: its effect, or a rejection with its kinds (R126 to R128). -/
theorem writeDword_control (c : Chip) (o value : Nat) (ho : o < 0x1000) :
    c.writeDword 0 (0x10000 + o) value 15 =
      if (c.controlWrite o value).2 = 0 then (c.controlWrite o value).1
      else c.reject 0 (0x10000 + o) value (c.controlWrite o value).2 := by
  simp [Chip.writeDword, windowOf_control _ _ ho, coreWindow]

/-- R112: an aligned write of four bytes is one access. -/
theorem regWrite_aligned (c : Chip) (offset value : Nat) (ha : c.answers 0 = true) (ho : offset < 0x4000000)
    (h4 : offset % 4 = 0) (hv : value < m32) : c.regWrite 0 offset value 15 = c.writeDword 0 offset value 15 := by
  have hbase : offset / 4 * 4 = offset := by omega
  have hvalue : value % m32 = value := Nat.mod_eq_of_lt hv
  have hbar : ¬ barSize 0 ≤ offset := by simp only [barSize, if_true]; omega
  simp [Chip.regWrite, ha, h4, hbase, hvalue, hbar]

/-- A write to a register of the engine control block by the PF. -/
theorem regWrite_control (c : Chip) (o value : Nat) (ha : c.answers 0 = true) (ho : o < 0x1000) (h4 : o % 4 = 0)
    (hv : value < m32) :
    c.regWrite 0 (0x10000 + o) value 15 =
      if (c.controlWrite o value).2 = 0 then (c.controlWrite o value).1
      else c.reject 0 (0x10000 + o) value (c.controlWrite o value).2 := by
  rw [regWrite_aligned c _ value ha (by omega) (by omega) hv, writeDword_control c o value ho]

/-- R125: WARM_RESET_REQ takes one value. -/
theorem controlWrite_warmResetReq (c : Chip) (value : Nat) :
    c.controlWrite 0x40 value = if value = 0x57525354 then (c.warmReset 3, 0) else (c, 16) := by
  simp [Chip.controlWrite, controlReserved]

/-- R132: ACCESS_ERR. -/
theorem controlWrite_accessErr (c : Chip) (value : Nat) :
    c.controlWrite 0x20 value = ({ c with ctl := { c.ctl with err := (c.ctl.err.write 0 value 0x7FFFFF00).1 } },
      (c.ctl.err.write 0 value 0x7FFFFF00).2) := by
  simp [Chip.controlWrite]

theorem exec_warmResetReqWrite (value : Nat) (s : State) :
    exec (.warmResetReqWrite value) s = run (fun c => c.regWrite 0 (0x10000 + 0x40) value 15) s := rfl

theorem exec_accessErrClear (value : Nat) (s : State) :
    exec (.accessErrClear value) s = run (fun c => c.regWrite 0 (0x10000 + 0x20) value 15) s := rfl

/-- R125, R806: the key starts a warm reset. -/
theorem regWrite_warmResetReq {c : Chip} (ha : c.answers 0 = true) :
    c.regWrite 0 (0x10000 + 0x40) 0x57525354 15 = c.warmReset 3 := by
  rw [regWrite_control c 0x40 _ ha (by decide) (by decide) (by decide), controlWrite_warmResetReq]
  rfl

/-- R125, R126: any other value is rejected as VALUE. -/
theorem regWrite_warmResetReq_rejected {c : Chip} {value : Nat} (ha : c.answers 0 = true) (hv : value < m32)
    (hkey : value ≠ 0x57525354) : c.regWrite 0 (0x10000 + 0x40) value 15 = c.reject 0 0x10040 value 16 := by
  rw [regWrite_control c 0x40 value ha (by decide) (by decide) hv, controlWrite_warmResetReq, if_neg hkey]
  rfl

/-- R132: a write to ACCESS_ERR clears the kinds it names, unless it sets a reserved bit. -/
theorem regWrite_accessErr {c : Chip} {value : Nat} (ha : c.answers 0 = true) (hv : value < m32) :
    c.regWrite 0 (0x10000 + 0x20) value 15 = (let r := c.ctl.err.write 0 value 0x7FFFFF00
      if r.2 = 0 then { c with ctl := { c.ctl with err := r.1 } } else c.reject 0 0x10020 value r.2) := by
  rw [regWrite_control c 0x20 value ha (by decide) (by decide) hv, controlWrite_accessErr]

/-! ### Boot, power failure and the test access port -/

/-- R166, R809: PFAIL_N ends a store and an install. -/
theorem powerFails_first {c : Chip} (hp : c.board.pfail = false) :
    c.powerFails = (({ c with board := { c.board with pfail := true } }).abandonStore).abandonInstall := by
  simp [Chip.powerFails, hp]

/-- R824: after a cold reset the units whose tests fail are retired. -/
theorem selfTest_cold {c : Chip} {failed : List UnitName} (he : c.engine = .boot) (hh : c.gov.bootHot = false)
    (hc : c.flash.cold = true) :
    c.selfTest failed = Chip.each { c with engine := .selftest } failed (fun c u => c.retireUnit u 6 0) := by
  simp [Chip.selfTest, he, hh, hc]

/-- R824: after a warm reset no unit is retired. -/
theorem selfTest_warm {c : Chip} {failed : List UnitName} (he : c.engine = .boot) (hh : c.gov.bootHot = false)
    (hc : c.flash.cold = false) : c.selfTest failed = { c with engine := .selftest } := by
  simp [Chip.selfTest, he, hh, hc]

/-- R859: with PORST_N high the instructions that take the pins act as BYPASS. -/
theorem tapLoad_high {ir : TapInstruction} (h : ir = .extest ∨ ir = .clamp ∨ ir = .highz) :
    Tap.load ir false = { acting := .bypass, captured := some 0 } := by
  obtain rfl | rfl | rfl := h <;> rfl

/-- R859, R860: IDCODE acts whatever the level of PORST_N, and captures the identification word. -/
theorem tapLoad_idcode (porstLow : Bool) : Tap.load .idcode porstLow = { acting := .idcode, captured := some 0x10480C5B } := by
  rfl

theorem exec_pfailNAssert (s : State) :
    exec .pfailNAssert s = runPin (fun b => { b with pfail := true }) Chip.powerFails s := rfl

theorem exec_pfailNRelease (s : State) :
    exec .pfailNRelease s = runPin (fun b => { b with pfail := false }) Chip.powerBack s := rfl

theorem exec_selftest (failed : List UnitName) (s : State) :
    exec (.selftest failed) s = run (fun c => c.selfTest (failed.filter unitExists)) s := rfl

theorem exec_selftestComplete (s : State) : exec .selftestComplete s =
    run (fun c => if c.engine = .selftest ∧ c.enterFirstConfig.engine = .config then c.enterFirstConfig.startAllStored
      else c.enterFirstConfig) s := rfl

theorem leaves_refclk25Loss (s : State) : Leaves .refclk25Loss s s.chip.refclkLost :=
  leaves_of_runReset (f := Chip.refclkLost) rfl rfl

theorem leaves_warmrstNFall (s : State) : Leaves .warmrstNFall s (s.chip.warmReset 2) :=
  leaves_of_runReset (f := fun c => c.warmReset 2) rfl rfl

theorem leaves_tapInstruction (s : State) (ir : TapInstruction) :
    Leaves (.tapInstruction ir) s { s.chip with tap := Tap.load ir s.chip.board.porstLow } :=
  leaves_of_runReset (f := fun c => { c with tap := Tap.load ir c.board.porstLow }) rfl rfl

/-- Settles O41, a clause at a time: each command is one of the shared operations, and its effect is the clause's. -/
theorem resetsAndPinsComplete : Obligations.ResetsAndPinsComplete := by
  refine ⟨?por, ?porNoClock, ?porTest, ?refLoss, ?refReturn, ?refReturnHeld, ?warm, ?warmFaulted, ?warmReq, ?warmReqBad,
    ?accessClear, ?pfail, ?pfailBack, ?selftestCold, ?selftestWarm, ?selftestDone, ?tap, ?tapHigh, ?tapIdcode⟩
  case por => exact fun s mode ident hr hm => leaves_of_runReset (exec_powerOnReset_cold mode ident s hr hm) rfl
  case porNoClock => exact fun s mode ident hr => leaves_of_runReset (exec_powerOnReset_noClock mode ident s hr) rfl
  case porTest => exact fun s mode ident hr hm => exec_powerOnReset_test mode ident s hr hm
  case refLoss => exact leaves_refclk25Loss
  case refReturn =>
    exact fun s mode ident hr hp hm => leaves_of_runReset (exec_refclk25Return_cold mode ident s hr hp hm) rfl
  case refReturnHeld =>
    exact fun s mode ident hr hp => leaves_of_runReset (exec_refclk25Return_held mode ident s hr hp) rfl
  case warm => exact leaves_warmrstNFall
  case warmFaulted =>
    intro s hf
    have hkept : s.chip.warmReset 2 = s.chip := (warmReset_keeps s.chip 2).2.1 hf
    simpa only [hkept] using leaves_warmrstNFall s
  case warmReq => exact fun s hs ha => does_of_run hs (exec_warmResetReqWrite _ s) (regWrite_warmResetReq ha)
  case warmReqBad =>
    exact fun s value hs ha hv hkey =>
      does_of_run hs (exec_warmResetReqWrite value s) (regWrite_warmResetReq_rejected ha hv hkey)
  case accessClear => exact fun s value hs ha hv => does_of_run hs (exec_accessErrClear value s) (regWrite_accessErr ha hv)
  case pfail => exact fun s hs hp => does_of_runPin hs (exec_pfailNAssert s) (powerFails_first hp)
  case pfailBack => exact fun s hs => does_of_runPin hs (exec_pfailNRelease s) rfl
  case selftestCold => exact fun s failed hs he hh hc => does_of_run hs (exec_selftest failed s) (selfTest_cold he hh hc)
  case selftestWarm => exact fun s failed hs he hh hc => does_of_run hs (exec_selftest failed s) (selfTest_warm he hh hc)
  case selftestDone => exact fun s hs he hc => does_of_run hs (exec_selftestComplete s) (if_pos ⟨he, hc⟩)
  case tap => exact leaves_tapInstruction
  case tapHigh =>
    intro s ir hp hir
    simpa only [hp, tapLoad_high hir] using leaves_tapInstruction s ir
  case tapIdcode =>
    intro s
    simpa only [tapLoad_idcode] using leaves_tapInstruction s .idcode

end Sys2Proof.Machine
end

section
/-! SUPPORT. Positions as counts of fraction units on the circle of all epoch positions (R37, R38). -/

namespace Sys2Proof.Machine

/-- A position in range counts less than the whole circle. -/
theorem units_lt {lines : Nat} {p : Pos} (hframe : p.frame < m32) (hline : p.line < lines) (hfrac : p.frac < 0x10000) :
    p.units lines < m32 * lines * 0x10000 := by
  have hlines : (p.frame + 1) * lines ≤ m32 * lines := Nat.mul_le_mul_right _ hframe
  unfold Pos.units
  linarith

/-- A position in range is determined by its count of fraction units. -/
theorem eq_of_units_eq {lines : Nat} {p q : Pos} (hp : p.frame < m32 ∧ p.line < lines ∧ p.frac < 0x10000)
    (hq : q.frame < m32 ∧ q.line < lines ∧ q.frac < 0x10000) (h : p.units lines = q.units lines) : p = q := by
  obtain ⟨hp1, hp2, hp3⟩ := hp
  obtain ⟨hq1, hq2, hq3⟩ := hq
  rw [← ofUnits_self lines p hp1 hp2 hp3, h, ofUnits_self lines q hq1 hq2 hq3]

/-- R37: a sum has every field in its range. -/
theorem add_norm {lines : Nat} (p s : Pos) (h : 0 < lines) : (Pos.add lines p s).frame < m32 ∧
    (Pos.add lines p s).line < lines ∧ (Pos.add lines p s).frac < 0x10000 := by
  rw [add_ofUnits lines p s h]
  exact ofUnits_norm lines _ h

/-- R37: a sum counts the sum of the counts, modulo the circle. -/
theorem units_add {lines : Nat} (p s : Pos) (h : 0 < lines) :
    (Pos.add lines p s).units lines = (p.units lines + s.units lines) % (m32 * lines * 0x10000) := by
  rw [add_ofUnits lines p s h, ofUnits_units lines _ h]

/-- R38: a difference has every field in its range. -/
theorem sub_norm {lines : Nat} (p q : Pos) (h : 0 < lines) : (Pos.sub lines p q).frame < m32 ∧
    (Pos.sub lines p q).line < lines ∧ (Pos.sub lines p q).frac < 0x10000 := ofUnits_norm lines _ h

/-- R38: a difference counts the difference of the counts, modulo the circle. -/
theorem units_sub {lines : Nat} (p q : Pos) (h : 0 < lines) : ((Pos.sub lines p q).units lines : Int) =
    ((p.units lines : Int) - q.units lines) % (m32 * lines * 0x10000 : Nat) := by
  have hcircle : 0 < m32 * lines * 0x10000 := by positivity
  rw [← wrapDistance_eq _ _ _ hcircle, Pos.sub, ofUnits_units lines _ h, Nat.mod_mod, Nat.mod_add_mod]

/-- R37, R38: subtracting what was added gives the position back, because the counts agree. -/
theorem sub_add_self {lines : Nat} {p : Pos} (s : Pos) (hp : p.frame < m32 ∧ p.line < lines ∧ p.frac < 0x10000) :
    Pos.sub lines (Pos.add lines p s) s = p := by
  obtain ⟨hframe, hline, hfrac⟩ := hp
  have h : 0 < lines := by omega
  refine eq_of_units_eq (sub_norm _ _ h) ⟨hframe, hline, hfrac⟩ (Int.ofNat_inj.1 ?_)
  calc ((Pos.sub lines (Pos.add lines p s) s).units lines : Int)
      = ((p.units lines : Int) + s.units lines - s.units lines) % (m32 * lines * 0x10000 : Nat) := by
        rw [units_sub _ _ h, units_add p s h, Int.natCast_mod, Int.emod_sub_emod, Nat.cast_add]
    _ = p.units lines := by
        rw [add_sub_cancel_right, ← Int.natCast_mod, Nat.mod_eq_of_lt (units_lt hframe hline hfrac)]

/-- Settles O12: sums and differences are determined by their counts, which add and subtract modulo the circle. -/
theorem positionsAddAndSubtract : Obligations.PositionsAddAndSubtract := by
  intro lines p s h
  obtain ⟨haddFrame, haddLine, haddFrac⟩ := add_norm p s h
  obtain ⟨hsubFrame, hsubLine, hsubFrac⟩ := sub_norm p s h
  exact ⟨⟨haddFrame, haddLine, haddFrac, units_add p s h⟩,
    ⟨hsubFrame, hsubLine, hsubFrac, by exact_mod_cast units_sub p s h⟩,
    fun hframe hline hfrac => sub_add_self s ⟨hframe, hline, hfrac⟩⟩

end Sys2Proof.Machine
end

section
/-! SUPPORT. The epoch unit: where a frame start and a stop leave it, and what each of its commands does in the case that its
rule names (chapter 2). -/

namespace Sys2Proof.Machine

/-! ### Frame starts (R42) -/

/-- R42, R54: a frame start at a switch point sets the position as every frame start does; carrying the cues into a new frame
length leaves the epoch. -/
theorem switchFrame_pos (c : Chip) (lines : Nat) :
    (c.switchFrame lines).epoch.pos = ⟨(c.epoch.pos.frame + 1) % m32, 0, 0⟩ ∧
      (c.switchFrame lines).epoch.st = .running := by
  unfold Chip.switchFrame
  split
  · exact nextFrame_pos c
  · exact nextFrame_pos (c.renormaliseCues lines)

/-- The epoch takes the frame starts of its pending and of its active source alone. -/
theorem takesFrameStart_source {c : Chip} {src : Nat} (h : c.takesFrameStart src = true) :
    c.epoch.pendingSource = some src ∨ c.epoch.active = some src := by
  obtain ⟨-, hsource⟩ := Bool.and_eq_true_iff.1 h
  simpa using hsource

/-- Settles O13: a frame start that the epoch takes is a switch point or the next frame of the active source. -/
theorem frameStartSetsThePosition : Obligations.FrameStartSetsThePosition := by
  intro c src htakes
  unfold Chip.frameStartOf
  by_cases hpending : c.epoch.pendingSource = some src
  · simp only [hpending, if_true]
    exact switchFrame_pos c _
  · have hactive : c.epoch.active = some src := (takesFrameStart_source htakes).resolve_left hpending
    simp only [hpending, hactive, if_true, if_false]
    split
    · exact switchFrame_pos c _
    · exact nextFrame_pos c

/-! ### Stopping (R66) -/

/-- R84: no pulse drives a released pin. -/
theorem release_asserted (p : TrigPin) : p.release.asserted = false := by
  unfold TrigPin.release
  split
  · rfl
  · next hidle => simpa using hidle

/-- R84: an asserted pin goes to the inactive level of its pulse. -/
theorem release_of_asserted {p : TrigPin} (h : p.asserted = true) :
    p.release = { p with asserted := false, rest := !p.activeHigh } := by
  simp [TrigPin.release, h]

/-- An event written to the log leaves the epoch. -/
theorem log_epoch (c : Chip) (code block inst detail detail2 : Nat) :
    (c.log code block inst detail detail2).epoch = c.epoch := by
  simp only [Chip.log]
  repeat' split
  all_goals rfl

/-- It leaves the TRIG_OUT pins. -/
theorem log_trig (c : Chip) (code block inst detail detail2 : Nat) :
    (c.log code block inst detail detail2).trig = c.trig := by
  obtain ⟨-, -, -, -, -, htrig, -⟩ := log_keeps c code block inst detail detail2
  exact htrig

/-- R66: the epoch unit and the pins when the epoch enters STOPPED. -/
theorem stopEpoch_stops {c : Chip} (h : c.epoch.st ≠ .stopped) :
    c.stopEpoch.epoch.st = .stopped ∧ c.stopEpoch.trig = c.trig.map (fun p => (p.1, p.2.release)) := by
  rw [Chip.stopEpoch, if_neg h, log_epoch, log_trig]
  exact ⟨rfl, rfl⟩

/-- Settles O14: every pin of the table is released (`stopEpoch_stops`). -/
theorem stoppingReleasesTheTriggerPins : Obligations.StoppingReleasesTheTriggerPins := by
  intro c h
  obtain ⟨hstopped, htrig⟩ := stopEpoch_stops h
  rw [htrig]
  refine ⟨hstopped, fun p hp => ?_, fun n x hmem hasserted => ?_⟩
  · obtain ⟨q, -, rfl⟩ := List.mem_map.1 hp
    exact release_asserted q.2
  · exact List.mem_map.2 ⟨(n, x), hmem, by rw [release_of_asserted hasserted]⟩

/-! ### Line edges (R44, R46, R48) -/

/-- R46, R870: an edge of a source that has line edges of its own is ignored or taken. -/
theorem lineEdge_of_takes {c : Chip} {src m : Nat} (htakes : c.takesFrameStart src = true) (hstring : src ≠ 0x30)
    (hsynthetic : src ≠ 0x31) :
    c.lineEdge src m = if c.glitchEdge src m then c.ignoreEdge src else c.takeLine src m := by
  simp [Chip.lineEdge, htakes, hstring, hsynthetic]

/-- R44, R46: which edges are ignored. -/
theorem glitchEdge_iff (c : Chip) (src m : Nat) : c.glitchEdge src m = true ↔
    (c.epoch.active = some src ∨ src = 0x20) ∧ isGlitch src m c.epoch.estimate = true ∧
      (isCameraSource src = false ∨ c.epoch.headerSeen = true) := by
  simp [Chip.glitchEdge, and_assoc]

/-- R46: an ignored edge is counted, and of a source that counts no revolution nothing else follows. -/
theorem ignoreEdge_uncounted {c : Chip} {src : Nat} (h : isEncoderSource src = false ∨ c.epoch.st = .stopped) :
    c.ignoreEdge src = c.dinc (ent 0x2801 7) := by
  have hstays : (!isEncoderSource src || (c.dinc (ent 0x2801 7)).epoch.st == .stopped) = true := by simpa using h
  simp only [Chip.ignoreEdge, hstays, if_true]

/-- R46, R48: an encoder's raw count takes an ignored edge; in RUNNING the epoch stays there. -/
theorem ignoreEdge_running {c : Chip} {src : Nat} (hencoder : isEncoderSource src = true) (hrunning : c.epoch.st = .running) :
    c.ignoreEdge src = (let c := c.dinc (ent 0x2801 7); { c with epoch := { c.epoch with
      encRaw := c.epoch.encRaw + 1
      encMax := if c.epoch.encMax < c.epoch.encRaw + 1 then c.epoch.encRaw + 1 else c.epoch.encMax } }) := by
  simp [Chip.ignoreEdge, hencoder, hrunning]

/-- Table 2.3: an encoder source is no camera, and neither STRING nor SYNTHETIC. -/
theorem encoder_is_other {src : Nat} (h : isEncoderSource src = true) :
    isCameraSource src = false ∧ src ≠ 0x30 ∧ src ≠ 0x31 := by
  simp only [isEncoderSource, Bool.and_eq_true, decide_eq_true_eq] at h
  simp only [isCameraSource, decide_eq_false_iff_not]
  omega

/-! ### Synthesised lines (R47, R49, R63) -/

/-- R47: a frame end of the active camera. -/
theorem frameEnd_active {c : Chip} {src : Nat} (hcamera : isCameraSource src = true) (hactive : c.epoch.active = some src)
    (hst : c.epoch.st = .running ∨ c.epoch.st = .freewheel) :
    c.frameEnd src = { c with epoch := { c.epoch with
      st := .blanking, measurable := false
      synthAt := if c.epoch.estimate = 0 then 0 else (c.epoch.elapsed / c.epoch.estimate + 1) * c.epoch.estimate } } := by
  simp [Chip.frameEnd, hcamera, hactive, hst]

/-- R47: a synthesised line within the frame. -/
theorem blankingLine_within {c : Chip} (hst : c.epoch.st = .blanking) (hestimate : c.epoch.estimate ≠ 0)
    (hdue : c.epoch.synthAt ≤ c.epoch.elapsed) (hwithin : c.epoch.pos.line + 1 < c.epoch.frameLines) :
    c.blankingLine = { c with epoch := { c.epoch with
      synthAt := c.epoch.synthAt + c.epoch.estimate
      pos := { c.epoch.pos with line := c.epoch.pos.line + 1, frac := 0 } } } := by
  simp [Chip.blankingLine, Chip.synthLine, hst, hestimate, hdue, hwithin.not_ge]

/-- R49: a synthesised line that would end the frame. -/
theorem blankingLine_held {c : Chip} (hst : c.epoch.st = .blanking) (hestimate : c.epoch.estimate ≠ 0)
    (hdue : c.epoch.synthAt ≤ c.epoch.elapsed) (hend : c.epoch.frameLines ≤ c.epoch.pos.line + 1) :
    c.blankingLine = { c with epoch := { c.epoch with
      elapsed := c.epoch.elapsed - c.epoch.synthAt, st := .held, why := .endOfFrame
      pos := { c.epoch.pos with line := c.epoch.frameLines - 1, frac := 0xFFFF } } } := by
  simp [Chip.blankingLine, Chip.synthLine, Chip.holdEpoch, hst, hestimate, hdue, hend]

/-- R63, R64: without FREEWHEEL_LIMIT missing lines stop the epoch. -/
theorem enterFreewheel_stops {c : Chip} (hmissing : c.linesMissing = true) (hlimit : c.dget (ent 0x2800 4) = 0) :
    c.enterFreewheel = c.stopEpoch := by
  simp [Chip.enterFreewheel, hmissing, hlimit]

/-- R49, R63: at the end of the frame the epoch waits instead of entering FREEWHEEL. -/
theorem enterFreewheel_held {c : Chip} (hmissing : c.linesMissing = true) (hlimit : c.dget (ent 0x2800 4) ≠ 0)
    (hend : c.epoch.frameLines ≤ c.epoch.pos.line + 1) :
    c.enterFreewheel = Chip.holdEpoch { c with epoch := { c.epoch with
      elapsed := c.epoch.elapsed - 2 * c.epoch.estimate, measurable := false } } := by
  simp [Chip.enterFreewheel, hmissing, hlimit, hend]

/-- R63: FREEWHEEL is entered with its first line, which is counted and logged. -/
theorem enterFreewheel_enters {c : Chip} (hmissing : c.linesMissing = true) (hlimit : c.dget (ent 0x2800 4) ≠ 0)
    (hwithin : c.epoch.pos.line + 1 < c.epoch.frameLines) :
    c.enterFreewheel = Chip.countFreewheel ((Chip.dinc { c with epoch := { c.epoch with
      elapsed := c.epoch.elapsed - 2 * c.epoch.estimate, measurable := false, st := .freewheel
      pos := { c.epoch.pos with line := c.epoch.pos.line + 1, frac := 0 } } } (ent 0x2801 6)).log 0x0501 0x0013 0xFFFF 0 0) := by
  simp [Chip.enterFreewheel, hmissing, hlimit, hwithin.not_ge]

/-- R63: a further freewheel line is due. -/
theorem freewheelLine_due {c : Chip} (hst : c.epoch.st = .freewheel) (hestimate : c.epoch.estimate ≠ 0)
    (hdue : c.epoch.estimate ≤ c.epoch.elapsed) :
    c.freewheelLine =
      Chip.freewheelOne { c with epoch := { c.epoch with elapsed := c.epoch.elapsed - c.epoch.estimate } } := by
  simp [Chip.freewheelLine, hst, hestimate, hdue]

/-- R63: an interval has passed at the end of the frame; it counts unless FREEWHEEL_LIMIT is 0. -/
theorem holdInterval_due {c : Chip} (hst : c.epoch.st = .held) (hwhy : c.epoch.why = .endOfFrame)
    (hestimate : c.epoch.estimate ≠ 0) (hdue : c.epoch.estimate ≤ c.epoch.elapsed) :
    c.holdInterval = (let c1 : Chip := { c with epoch := { c.epoch with elapsed := c.epoch.elapsed - c.epoch.estimate } }
      if c.dget (ent 0x2800 4) = 0 then c1 else c1.countFreewheel) := by
  simp [Chip.holdInterval, hst, hwhy, hestimate, hdue]

/-- R48: a reverse count holds a moving epoch. -/
theorem reverseCount_holds {c : Chip} {src : Nat} (hencoder : isEncoderSource src = true)
    (hactive : c.epoch.active = some src) (hst : c.epoch.st = .running ∨ c.epoch.st = .freewheel) :
    c.reverseCount src =
      { c with epoch := { c.epoch with encRaw := c.epoch.encRaw - 1, st := .held, why := .reverse } } := by
  obtain hst | hst := hst <;> simp [Chip.reverseCount, hencoder, hactive, hst]

/-! ### Synthetic and virtual epochs (R67, R69) -/

/-- R69: the generator's edge at the end of its interval. -/
theorem syntheticEdge_due {c : Chip} (hon : c.epoch.synthOn = true) (htakes : c.takesFrameStart 0x31 = true)
    (hdue : c.epoch.synthPeriod ≤ c.epoch.synthElapsed) :
    c.syntheticEdge = (let p := c.dget (ent 0x2800 6)
      (if c.edgeStartsFrame 0x31 then c.startEpochFrame 0x31 else c.realLine p).synthBegins
        (c.epoch.synthElapsed - c.epoch.synthPeriod) p) := by
  simp [Chip.syntheticEdge, Chip.synthDue, hon, htakes, hdue]

/-- R67: a record's step within the frame. -/
theorem recordStep_line {c : Chip} {target period : Nat} (hrecord : c.epoch.virtual = some (target, period))
    (htakes : c.takesFrameStart 0x30 = true) (hpending : c.epoch.pendingSource ≠ some 0x30) (hst : c.epoch.st ≠ .stopped)
    (hwithin : c.epoch.pos.line + 1 < c.epoch.frameLines) :
    c.recordStep = Chip.recordDone { c with epoch := { c.epoch with
      estimate := period, fresh := false, st := .running, pos := { c.epoch.pos with line := c.epoch.pos.line + 1, frac := 0 }
      elapsed := 0, freewheelCount := 0 } } target := by
  simp [Chip.recordStep, hrecord, htakes, hpending, hst, hwithin.not_ge]

/-! ### The commands -/

/-- Settles O39, a clause at a time: each command is a `run`, and its effect in the clause's case is the lemma's. -/
theorem epochCommandsComplete : Obligations.EpochCommandsComplete := by
  refine ⟨?lineGlitch, ?lineGlitchCounted, ?line, ?time, ?frameStart, ?frameEnd, ?blanking, ?blankingHeld, ?freewheelStops,
    ?freewheelHeld, ?freewheelEntry, ?freewheelLine, ?holdInterval, ?holdUncounted, ?reverse, ?syntheticLine, ?syntheticFrame,
    ?recordLine⟩
  case lineGlitch =>
    intro s src m hs htakes h30 h31 hsource hshort hcamera hencoder
    refine does_of_run hs (f := fun c => c.lineEdge src m) rfl ?_
    rw [lineEdge_of_takes htakes h30 h31, if_pos ((glitchEdge_iff ..).2 ⟨hsource, hshort, hcamera⟩),
      ignoreEdge_uncounted hencoder]
  case lineGlitchCounted =>
    intro s src m hs htakes hencoder hactive hshort hrunning
    obtain ⟨hcamera, h30, h31⟩ := encoder_is_other hencoder
    refine does_of_run hs (f := fun c => c.lineEdge src m) rfl ?_
    rw [lineEdge_of_takes htakes h30 h31, if_pos ((glitchEdge_iff ..).2 ⟨.inl hactive, hshort, .inl hcamera⟩),
      ignoreEdge_running hencoder hrunning]
  case line =>
    intro s src m hs htakes h30 h31 htaken
    have hglitch : ¬ s.chip.glitchEdge src m = true := by
      rw [glitchEdge_iff]
      rintro ⟨hsource, hshort, hheader⟩
      obtain hlong | ⟨hcamera, hnone⟩ | ⟨hother, hnotEpochIn⟩ := htaken
      · simp [hlong] at hshort
      · simp [hcamera, hnone] at hheader
      · exact hsource.elim hother hnotEpochIn
    refine does_of_run hs (f := fun c => c.lineEdge src m) rfl ?_
    rw [lineEdge_of_takes htakes h30 h31, if_neg hglitch]
  case time => exact fun s n hs => does_of_run hs (f := fun c => c.passTime n) rfl rfl
  case frameStart => exact fun s src hs hsource => does_of_run hs (f := fun c => c.frameStartEvent src) rfl (if_pos hsource)
  case frameEnd =>
    exact fun s src hs hcamera hactive hst =>
      does_of_run hs (f := fun c => c.frameEnd src) rfl (frameEnd_active hcamera hactive hst)
  case blanking =>
    exact fun s hs hst hestimate hdue hwithin =>
      does_of_run hs (f := Chip.blankingLine) rfl (blankingLine_within hst hestimate hdue hwithin)
  case blankingHeld =>
    exact fun s hs hst hestimate hdue hend =>
      does_of_run hs (f := Chip.blankingLine) rfl (blankingLine_held hst hestimate hdue hend)
  case freewheelStops =>
    exact fun s hs hmissing hlimit => does_of_run hs (f := Chip.enterFreewheel) rfl (enterFreewheel_stops hmissing hlimit)
  case freewheelHeld =>
    exact fun s hs hmissing hlimit hend =>
      does_of_run hs (f := Chip.enterFreewheel) rfl (enterFreewheel_held hmissing hlimit hend)
  case freewheelEntry =>
    exact fun s hs hmissing hlimit hwithin =>
      does_of_run hs (f := Chip.enterFreewheel) rfl (enterFreewheel_enters hmissing hlimit hwithin)
  case freewheelLine =>
    exact fun s hs hst hestimate hdue =>
      does_of_run hs (f := Chip.freewheelLine) rfl (freewheelLine_due hst hestimate hdue)
  case holdInterval =>
    exact fun s hs hst hwhy hestimate hdue hlimit =>
      does_of_run hs (f := Chip.holdInterval) rfl ((holdInterval_due hst hwhy hestimate hdue).trans (if_neg hlimit))
  case holdUncounted =>
    exact fun s hs hst hwhy hestimate hdue hlimit =>
      does_of_run hs (f := Chip.holdInterval) rfl ((holdInterval_due hst hwhy hestimate hdue).trans (if_pos hlimit))
  case reverse =>
    exact fun s src hs hencoder hactive hst =>
      does_of_run hs (f := fun c => c.reverseCount src) rfl (reverseCount_holds hencoder hactive hst)
  case syntheticLine =>
    intro s hs hon htakes hdue hline
    refine does_of_run hs (f := Chip.syntheticEdge) rfl ?_
    rw [syntheticEdge_due hon htakes hdue, hline]
    rfl
  case syntheticFrame =>
    intro s hs hon htakes hdue hframe
    refine does_of_run hs (f := Chip.syntheticEdge) rfl ?_
    rw [syntheticEdge_due hon htakes hdue, hframe]
    rfl
  case recordLine =>
    exact fun s target period hs hrecord htakes hpending hst hwithin =>
      does_of_run hs (f := Chip.recordStep) rfl (recordStep_line hrecord htakes hpending hst hwithin)

end Sys2Proof.Machine
end

section
/-! SUPPORT. Cue slots: which of them fire in an update, which arm is taken next, and when a TRIG_OUT pulse ends (R74 to R76,
R84, R871). -/

namespace Sys2Proof.Machine

/-- R74, R76, R871: when a slot fires in this update. -/
theorem slotDue_iff (c : Chip) (n : Nat) : c.slotDue n = true ↔ c.epoch.st ≠ .stopped ∧ (c.cue n).armed = true ∧
    reached c.posNat (c.cue n).target = true ∧ (c.cue n).waits = false ∧ ((c.cue n).late = true → (c.cue n).at_ < c.now) := by
  cases hlate : (c.cue n).late <;> simp [Chip.slotDue, hlate] <;> tauto

/-- Settles O15: the walk's list is the slots in ascending order, less those that are not due (`slotDue_iff`). -/
theorem cuesFireInSlotOrder : Obligations.CuesFireInSlotOrder := by
  intro c
  refine ⟨List.pairwise_lt_range.filter _, fun n => ?_⟩
  rw [Chip.dueSlots, List.mem_filter, List.mem_range, slotDue_iff]

/-! ### Arms that waited (R871) -/

/-- The arm of a CUE_ARM command at the head of the queue. -/
theorem armNext_commanded {c : Chip} {w : ArmWait} {rest : List ArmWait} (hfree : c.armRateFree = true)
    (hqueue : c.armQueue = w :: rest) (hwrite : w.write = none) (hengine : w.engine = false) :
    c.armNext = { Chip.armCommand { c with armQueue := [] } w with armQueue := rest } := by
  simp [Chip.armNext, hfree, hqueue, hwrite, hengine]

/-- The engine's own arm at the head of the queue. -/
theorem armNext_own {c : Chip} {w : ArmWait} {rest : List ArmWait} (hfree : c.armRateFree = true)
    (hqueue : c.armQueue = w :: rest) (hwrite : w.write = none) (hengine : w.engine = true) :
    c.armNext = { Chip.armTakes { c with armQueue := [] } w.slot with armQueue := rest } := by
  simp [Chip.armNext, hfree, hqueue, hwrite, hengine]

/-- The arm of a dictionary write at the head of the queue, which the server commits and answers now. -/
theorem armNext_written {c : Chip} {w : ArmWait} {rest : List ArmWait} {q : DictReq} (hfree : c.armRateFree = true)
    (hqueue : c.armQueue = w :: rest) (hwrite : w.write = some q) (hcode : Chip.codeOf { c with armQueue := [] } q = 0) :
    c.armNext = { (Chip.commitWrite { c with armQueue := [] } q).respond q 0 with armQueue := rest } := by
  simp [Chip.armNext, hfree, hqueue, hwrite, hcode]

/-- CUE_ARM_COMMIT completes with the head of the queue, but not in FAULTED. -/
theorem does_cueArmCommit {s : State} {c : Chip} (hs : s.on = true) (hlive : s.chip.engine ≠ .faulted)
    (hnext : s.chip.armNext = c) : Does .cueArmCommit s c :=
  does_of_run hs (f := fun c => if c.engine = .faulted then c else c.armNext) rfl ((if_neg hlive).trans hnext)

/-! ### Pulses (R84) -/

/-- R84: when a pulse ends in this update. -/
theorem pulseOver_iff (c : Chip) (pin : Nat) : c.pulseOver pin = true ↔ (c.pin pin).asserted = true ∧
    (c.pin pin).at_ < c.now ∧
    ((c.pin pin).atOnce = true ∨ (reached c.posNat (c.pin pin).endPos = true ∧ c.epoch.st ≠ .stopped)) := by
  simp [Chip.pulseOver, and_assoc]

/-- R84: a pulse that ends releases its pin. -/
theorem pulseEnd_over {c : Chip} {pin : Nat} (h : c.pulseOver pin = true) :
    c.pulseEnd pin = c.setPin pin (c.pin pin).release := if_pos h

/-- Settles O40, a clause at a time: each command is a `run`, and its effect in the clause's case is the lemma's. -/
theorem cueCommandsComplete : Obligations.CueCommandsComplete := by
  refine ⟨?armCommanded, ?armOwn, ?armWritten, ?fire, ?pulseEnd⟩
  case armCommanded =>
    exact fun s w rest hs hlive hfree hqueue hwrite hengine =>
      does_cueArmCommit hs hlive (armNext_commanded hfree hqueue hwrite hengine)
  case armOwn =>
    exact fun s w rest hs hlive hfree hqueue hwrite hengine =>
      does_cueArmCommit hs hlive (armNext_own hfree hqueue hwrite hengine)
  case armWritten =>
    exact fun s w rest q hs hlive hfree hqueue hwrite hcode =>
      does_cueArmCommit hs hlive (armNext_written hfree hqueue hwrite hcode)
  case fire => exact fun s hs => does_of_run hs (f := Chip.fireCues) rfl rfl
  case pulseEnd =>
    exact fun s pin hs hasserted hdriven hend =>
      does_of_run hs (f := fun c => c.pulseEnd pin) rfl (pulseEnd_over ((pulseOver_iff ..).2 ⟨hasserted, hdriven, hend⟩))

end Sys2Proof.Machine
end

section
/-! SUPPORT. Settling: on a quiet chip whose watched parts a command has left, nothing follows the command (R174, R312, R761,
R783, R869). -/

namespace Sys2Proof.Machine

/-- The parts of the chip that settling compares with those of the chip the command found, are as they were: what stays until
a cold reset, the engine state and the error register (Table 6.8), and the core-clocked blocks' work (R761). -/
structure Chip.SameWatched (c old : Chip) : Prop where
  straps : c.straps = old.straps := by rfl
  grade : c.grade = old.grade := by rfl
  lp5x : c.lp5x = old.lp5x := by rfl
  engine : c.engine = old.engine := by rfl
  porstLow : c.board.porstLow = old.board.porstLow := by rfl
  refclk : c.board.refclk = old.board.refclk := by rfl
  retired : c.faults.retired = old.faults.retired := by rfl
  errorRegister : c.errorRegister = old.errorRegister
  cams : c.cams = old.cams := by rfl
  inertial : c.inertial = old.inertial := by rfl
  lanes : c.lanes = old.lanes := by rfl
  passages : c.passages = old.passages := by rfl
  moves : c.moves = old.moves := by rfl
  tensors : c.tensors = old.tensors := by rfl
  ests : c.ests = old.ests := by rfl

/-- What quiet means, part by part. -/
theorem quiet_iff (c : Chip) : c.quiet = true ↔
    (c.request.isSome && c.epoch.st == .stopped) = false ∧ (∀ v < 16, c.overAny v = false ∧ (c.keep v).overQuota = false) ∧
    (∀ p ∈ c.tensors, p.2.doom.isSome = false) ∧ (∀ p ∈ c.tablatures, p.2.leaving = false) ∧ c.working = false ∧
    c.faults.faultN = (c.engine == .faulted) := by
  simp only [Chip.quiet, Bool.and_eq_true, Bool.not_eq_true', List.all_eq_true, List.mem_range, Option.isNone_iff_eq_none,
    Option.isSome_eq_false_iff, beq_iff_eq, and_assoc]

/-- R174: no request that the epoch would let pass. -/
theorem requestAtOnce_none {c : Chip} (h : (c.request.isSome && c.epoch.st == .stopped) = false) : c.requestAtOnce = c := by
  simp [Chip.requestAtOnce, h]

/-- R312: a voice within its quota that was within it. -/
theorem watchQuota_within {c : Chip} {v : Nat} (hover : c.overAny v = false) (hnoted : (c.keep v).overQuota = false) :
    c.watchQuota v = c := by
  simp [Chip.watchQuota, Chip.quotaRises, Chip.quotaEvicts, Chip.quotaFalls, hover, hnoted]

/-- R869: no tensor and no tablature that a voice reset released. -/
theorem sweepDoomed_none {c : Chip} (htensors : ∀ p ∈ c.tensors, p.2.doom.isSome = false)
    (htablatures : ∀ p ∈ c.tablatures, p.2.leaving = false) : c.sweepDoomed = c := by
  have hleaving : c.tablatures.filter (fun p => p.2.leaving && !c.tablatureBusy p.1) = [] :=
    List.filter_eq_nil_iff.2 (fun p hp => by simp [htablatures p hp])
  have hdoomed : c.tensors.filter (fun p => p.2.doom.isSome && !c.inFlight p.1) = [] :=
    List.filter_eq_nil_iff.2 (fun p hp => by simp [htensors p hp])
  simp only [Chip.sweepDoomed, hleaving, List.foldl_nil, hdoomed]

/-- R184: no estimator has published a pose. -/
theorem announcePoses_same {c old : Chip} (h : c.ests = old.ests) : c.announcePoses old = c := by
  have hest : ∀ i, c.est i = old.est i := fun i => by simp [Chip.est, h]
  exact each_id _ _ _ (fun i _ => by simp [hest])

/-- R761: no core-clocked block has had work. -/
theorem noteWork_same {c old : Chip} (h : c.SameWatched old) (hidle : c.working = false) : c.noteWork old = c := by
  simp [Chip.noteWork, h.cams, h.inertial, h.lanes, h.passages, h.moves, h.tensors, h.ests, hidle]

/-- Table 6.8: neither the engine state nor the error register has changed. -/
theorem engineSource_same {c old : Chip} (h : c.SameWatched old) : c.engineSource old = c := by
  simp [Chip.engineSource, h.engine, h.errorRegister]

/-- What stays until a cold reset has stayed. -/
theorem untilColdReset_same {c old : Chip} (h : c.SameWatched old) (hfault : c.faults.faultN = (c.engine == .faulted)) :
    c.untilColdReset old = c := by
  have hengine : (if old.engine = .faulted then .faulted else c.engine) = c.engine := by
    split
    · next hold => rw [h.engine, hold]
    · rfl
  have hretired : old.faults.retired ++ c.faults.retired.filter (fun u => !old.faults.retired.contains u) = c.faults.retired := by
    rw [h.retired]; simp
  simp only [Chip.untilColdReset, hengine, hretired, ← hfault, ← h.straps, ← h.grade, ← h.lp5x, ← h.porstLow, ← h.refclk]

/-- A quiet chip stands as the command left it. -/
theorem settled_quiet {c old : Chip} (hquiet : c.quiet = true) (h : c.SameWatched old) : c.settled old = c := by
  obtain ⟨hrequest, hquota, htensors, htablatures, hidle, hfault⟩ := (quiet_iff c).1 hquiet
  have hwatch : c.each (List.range 16) Chip.watchQuota = c := each_id _ _ _ (fun v hv =>
    watchQuota_within (hquota v (List.mem_range.1 hv)).1 (hquota v (List.mem_range.1 hv)).2)
  simp only [Chip.settled, requestAtOnce_none hrequest, hwatch, sweepDoomed_none htensors htablatures,
    announcePoses_same h.ests, noteWork_same h hidle, engineSource_same h, untilColdReset_same h hfault]

/-- A command that leaves a quiet chip and its watched parts answers its effect and nothing else. -/
theorem exec_of_run_quiet {i : Instr} {s : State} {f : Chip → Chip} {c : Chip} (hs : s.on = true) (he : exec i s = run f s)
    (hc : f s.chip = c) (hquiet : c.quiet = true) (h : c.SameWatched s.chip) :
    exec i s = .next { s with round := {}, chip := c } := by
  rw [he, run_on f s (State.off_of_on hs), hc, settled_quiet hquiet h]

end Sys2Proof.Machine
end

section
/-! SUPPORT. Six commands on a quiet chip, and what each of them alone changes (chapters 2, 3 and 5). -/

namespace Sys2Proof.Machine

/-! ### SCRATCH and EPOCH_LO (R93, Table 3.11) -/

theorem controlWrite_scratch (c : Chip) (value : Nat) :
    c.controlWrite 0x14 value = ({ c with ctl := { c.ctl with scratch := value } }, 0) := by
  simp [Chip.controlWrite, controlReserved]

theorem regWrite_scratch {c : Chip} {value : Nat} (ha : c.answers 0 = true) (hv : value < m32) :
    c.regWrite 0 0x10014 value 15 = { c with ctl := { c.ctl with scratch := value } } := by
  rw [show 0x10014 = 0x10000 + 0x14 from rfl, regWrite_control c 0x14 value ha (by decide) (by decide) hv,
    controlWrite_scratch, if_pos rfl]

/-- SCRATCH mirrors no entry, so its write has no place among the update's dictionary operations (R873). -/
theorem exec_scratchWrite (value : Nat) (s : State) :
    exec (.registerWrite 0 0x10014 value 15) s = run (fun c => c.regWrite 0 0x10014 value 15) s := by
  simp [exec, execRegisterWrite]

/-- The epoch unit's window, in both grades. -/
theorem windowOf_epochLo (g : Grade) : windowOf g 0 0x140000 = some (0x13, 0, 0) := by cases g <;> rfl

/-- R93: a read of EPOCH_LO captures the upper half of the position. -/
theorem regRead_epochLo {c : Chip} (ha : c.answers 0 = true) : c.regRead 0 0x140000 =
    { c with epochHi := c.posNat / m32, readData := leBytes 4 (c.posNat % m32) } := by
  have hread : c.readDword 0 0x140000 = ({ c with epochHi := c.posNat / m32 }, c.posNat % m32) := by
    simp [Chip.readDword, windowOf_epochLo, barSize, coreWindow, Chip.windowRead, Chip.epochRead]
  simp [Chip.regRead, ha, barSize, hread]

/-! ### BAR2 (R875) -/

theorem mem_rangeFrom {a o n : Nat} : a ∈ rangeFrom o n ↔ o ≤ a ∧ a < o + n := by
  simp only [rangeFrom, List.mem_map, List.mem_range]
  constructor
  · rintro ⟨k, hk, rfl⟩; omega
  · intro h; exact ⟨a - o, by omega, by omega⟩

/-- A read within tier 1: a byte of a retired bank is zero. -/
theorem bar2Read_within {c : Chip} {offset len : Nat} (ha : c.answers 0 = true) (hp7 : c.gov.p7 = false)
    (hon : c.ctl.bar2Enable = true) (hwithin : offset + len ≤ 0x3000000) : c.bar2Read offset len =
      { c with readData := (rangeFrom offset len).map (fun a => if c.deadBank a then 0 else c.tier1.read a) } := by
  have hbelow : ∀ a ∈ rangeFrom offset len, ¬ 0x3000000 ≤ a := fun a h => by have := mem_rangeFrom.1 h; omega
  have hany : (rangeFrom offset len).any (fun a => decide (0x3000000 ≤ a)) = false :=
    List.any_eq_false.2 (fun a h => by simpa using hbelow a h)
  have hbytes : (rangeFrom offset len).map (fun a => if 0x3000000 ≤ a ∨ c.deadBank a then 0 else c.tier1.read a) =
      (rangeFrom offset len).map (fun a => if c.deadBank a then 0 else c.tier1.read a) :=
    List.map_congr_left (fun a h => by simp [hbelow a h])
  have hsize : ¬ 0x4000000 < offset + len := by omega
  simp only [Chip.bar2Read, ha, hp7, hon, hany, hbytes, hsize]
  rfl

/-- A write whose bytes all lie in working idle banks. -/
theorem bar2Write_within {c : Chip} {offset : Nat} {data : List (Option Byte)} (ha : c.answers 0 = true)
    (hp7 : c.gov.p7 = false) (hon : c.ctl.bar2Enable = true) (hsize : offset + data.length ≤ 0x4000000)
    (hbytes : ∀ p ∈ bar2Bytes offset data, p.1 < 0x3000000 ∧ c.deadBank p.1 = false ∧ c.bar2Busy p.1 = false) :
    c.bar2Write offset data =
      { c with tier1 := (bar2Bytes offset data).foldl (fun m p => m.write p.1 p.2) c.tier1 } := by
  have hbeyond : (bar2Bytes offset data).any (fun p => decide (0x3000000 ≤ p.1)) = false :=
    List.any_eq_false.2 (fun p hp => by simpa using (hbytes p hp).1)
  have hdead : (bar2Bytes offset data).any (fun p => c.deadBank p.1) = false :=
    List.any_eq_false.2 (fun p hp => by simp [(hbytes p hp).2.1])
  have hbusy : (bar2Bytes offset data).any (fun p => c.bar2Busy p.1) = false :=
    List.any_eq_false.2 (fun p hp => by simp [(hbytes p hp).2.2])
  have hsize : ¬ 0x4000000 < offset + data.length := by omega
  simp only [Chip.bar2Write, ha, hp7, hon, hbeyond, hdead, hbusy, hsize]
  rfl

/-! ### RX_POP (Table 5.5) -/

theorem exec_rxPop_one {p : Nat} (hp : p < 2) (s : State) : exec (.rxPop p 1) s =
    run (fun c => c.setPort p { c.port p with fifo := (c.port p).fifo.drop 1 }) s := by
  simp [exec, execRxPop, canRun, hp]

/-- Settles O38, a command at a time: the effect leaves the chip quiet and what settling watches, so nothing follows it. -/
theorem quietCommandsChangeOnlyTheirTargets : Obligations.QuietCommandsChangeOnlyTheirTargets := by
  intro s hs hquiet
  refine ⟨?scratch, ?epochLo, ?bar2Read, ?bar2Write, ?rxPop, ?pulseEnd⟩
  case scratch =>
    intro ha value hv
    obtain ⟨hq, he⟩ := quiet_ctl s.chip { s.chip.ctl with scratch := value }
    exact exec_of_run_quiet hs (exec_scratchWrite value s) (regWrite_scratch ha hv) (hq.trans hquiet) { errorRegister := he }
  case epochLo =>
    intro ha
    obtain ⟨hq, he⟩ := quiet_readData s.chip (s.chip.posNat / m32) (leBytes 4 (s.chip.posNat % m32))
    exact exec_of_run_quiet hs (f := fun c => c.regRead 0 0x140000) rfl (regRead_epochLo ha) (hq.trans hquiet)
      { errorRegister := he }
  case bar2Read =>
    intro ha hp7 hon offset len hwithin
    obtain ⟨hq, he⟩ := quiet_readData s.chip s.chip.epochHi
      ((rangeFrom offset len).map (fun a => if s.chip.deadBank a then 0 else s.chip.tier1.read a))
    exact exec_of_run_quiet hs (f := fun c => c.bar2Read offset len) rfl (bar2Read_within ha hp7 hon hwithin)
      (hq.trans hquiet) { errorRegister := he }
  case bar2Write =>
    intro ha hp7 hon offset data hsize hbytes
    obtain ⟨hq, he⟩ := quiet_tier1 s.chip ((bar2Bytes offset data).foldl (fun m p => m.write p.1 p.2) s.chip.tier1)
    exact exec_of_run_quiet hs (f := fun c => c.bar2Write offset data) rfl (bar2Write_within ha hp7 hon hsize hbytes)
      (hq.trans hquiet) { errorRegister := he }
  case rxPop =>
    intro p hp
    obtain ⟨hq, he⟩ := quiet_setPort s.chip p { s.chip.port p with fifo := (s.chip.port p).fifo.drop 1 }
    exact exec_of_run_quiet hs (exec_rxPop_one hp s) rfl (hq.trans hquiet) { errorRegister := he }
  case pulseEnd =>
    intro pin hasserted hdriven hatOnce
    have hover : s.chip.pulseOver pin = true := (pulseOver_iff ..).2 ⟨hasserted, hdriven, .inl hatOnce⟩
    obtain ⟨hq, he⟩ := quiet_setPin s.chip pin (s.chip.pin pin).release
    rw [← release_of_asserted hasserted]
    exact exec_of_run_quiet hs (f := fun c => c.pulseEnd pin) rfl (pulseEnd_over hover) (hq.trans hquiet)
      { errorRegister := he }

end Sys2Proof.Machine
end

section
/-! SUPPORT. Rejected accesses of the PF, and the window on tier 1 (chapter 3): what the latch holds after a rejection, and what
a BAR2 access does while the window is off and over working idle banks. -/

namespace Sys2Proof.Machine

/-! ### The access error latch (R130 to R132) -/

/-- R130: an empty latch captures the access. -/
theorem add_of_empty {l : ErrLatch} (offset data kinds : Nat) (h : l.bits = 0) :
    l.add offset data kinds = { bits := kinds, offset, data, count := 1 } := if_pos h

/-- R131: a latch that holds an access only takes the kinds and counts. -/
theorem add_of_held {l : ErrLatch} (offset data kinds : Nat) (h : l.bits ≠ 0) : l.add offset data kinds =
    { l with bits := l.bits ||| kinds ||| 0x80000000, count := Nat.min 0xFFFF (l.count + 1) } := if_neg h

/-- R132: what a write leaves of the latch decides what is left of the count. -/
theorem ack_count (l : ErrLatch) (value : Nat) : (l.ack value).count = if (l.ack value).bits = 0 then 0 else l.count := rfl

/-- A rejected access of the PF outside V0's block goes to its latch and leaves tier 1. -/
theorem reject_pf_err (c : Chip) {offset : Nat} (data kinds : Nat) (hpf : ¬(0x1000000 ≤ offset ∧ offset < 0x1010000)) :
    (c.reject 0 offset data kinds).ctl.err = c.ctl.err.add offset data kinds ∧
      (c.reject 0 offset data kinds).tier1 = c.tier1 := by
  rw [reject_pf c offset data kinds hpf]
  split
  · obtain ⟨hctl, -, htier1, -⟩ :=
      log_keeps { c with ctl := { c.ctl with err := c.ctl.err.add offset data kinds } } 0x0701 0x0002 0 0 0
    exact ⟨congrArg Control.err hctl, htier1⟩
  · exact ⟨rfl, rfl⟩

/-- R130: the access that an empty latch captures writes one event. -/
theorem reject_pf_latest_of_empty {c : Chip} {offset : Nat} (data kinds : Nat)
    (hpf : ¬(0x1000000 ≤ offset ∧ offset < 0x1010000)) (h : c.ctl.err.bits = 0) :
    (c.reject 0 offset data kinds).faults.latest = (c.faults.latest + 1) % m32 := by
  rw [reject_pf c offset data kinds hpf, if_pos h]
  obtain ⟨-, -, -, hlatest, -⟩ :=
    log_keeps { c with ctl := { c.ctl with err := c.ctl.err.add offset data kinds } } 0x0701 0x0002 0 0 0
  exact hlatest

/-- R131: a later one writes none. -/
theorem reject_pf_faults_of_held {c : Chip} {offset : Nat} (data kinds : Nat)
    (hpf : ¬(0x1000000 ≤ offset ∧ offset < 0x1010000)) (h : c.ctl.err.bits ≠ 0) :
    (c.reject 0 offset data kinds).faults = c.faults := by
  rw [reject_pf c offset data kinds hpf, if_neg h]

/-- Settles O20: `ErrLatch.add` on an empty latch and on one that holds an access, with the event of the first alone. -/
theorem accessErrorsLatch : Obligations.AccessErrorsLatch := by
  refine ⟨?first, ?later, ?cleared⟩
  case first =>
    intro c offset data kinds hpf hempty
    exact ⟨(reject_pf_err c data kinds hpf).1.trans (add_of_empty _ _ _ hempty),
      reject_pf_latest_of_empty data kinds hpf hempty⟩
  case later =>
    intro c offset data kinds hpf hheld
    exact ⟨(reject_pf_err c data kinds hpf).1.trans (add_of_held _ _ _ hheld),
      reject_pf_faults_of_held data kinds hpf hheld⟩
  case cleared => exact fun l value hclear => (ack_count l value).trans (if_pos hclear)

/-! ### BAR2 while it is disabled (R122) -/

/-- R122: a read returns zeros and latches nothing. -/
theorem bar2Read_off {c : Chip} {offset len : Nat} (ha : c.answers 0 = true) (hoff : c.ctl.bar2Enable = false)
    (hsize : offset + len ≤ 0x4000000) : c.bar2Read offset len = { c with readData := List.replicate len 0 } := by
  have hwithin : ¬ 0x4000000 < offset + len := by omega
  simp [Chip.bar2Read, ha, hoff, hwithin]

/-- R122: a write is rejected as BAR2_OFF. -/
theorem bar2Write_off {c : Chip} {offset : Nat} {data : List (Option Byte)} (ha : c.answers 0 = true)
    (hp7 : c.gov.p7 = false) (hoff : c.ctl.bar2Enable = false) (hsize : offset + data.length ≤ 0x4000000) :
    c.bar2Write offset data =
      c.reject 0 (offset + 0x80000000) (leNat ((data.take 4).map (fun b => b.getD 0))) 32 := by
  have hwithin : ¬ 0x4000000 < offset + data.length := by omega
  simp [Chip.bar2Write, ha, hp7, hoff, hwithin]

/-- Settles O21: the write is a rejected access at an offset beyond V0's block (R119), which sets its kind and leaves tier 1. -/
theorem disabledBar2ReadsZeroAndDropsWrites : Obligations.DisabledBar2ReadsZeroAndDropsWrites := by
  intro s offset len data hs ha hp7 hoff hread hwrite
  refine ⟨does_of_run hs (f := fun c => c.bar2Read offset len) rfl (bar2Read_off ha hoff hread), _,
    does_of_run hs (f := fun c => c.bar2Write offset data) rfl (bar2Write_off ha hp7 hoff hwrite), ?_⟩
  have hpf : ¬(0x1000000 ≤ offset + 0x80000000 ∧ offset + 0x80000000 < 0x1010000) := by omega
  obtain ⟨herr, htier1⟩ := reject_pf_err s.chip (leNat ((data.take 4).map (fun b => b.getD 0))) 32 hpf
  refine ⟨htier1, ?_⟩
  rw [herr]
  exact add_bit _ _ _ _ _ (by decide)

/-! ### BAR2 over working idle banks (R121) -/

/-- The bytes of a range, read one by one. -/
theorem map_read_rangeFrom (m : Memory) (a n : Nat) : (rangeFrom a n).map m.read = m.readBytes a n := by
  induction n generalizing a with
  | zero => rfl
  | succ n ih =>
    have hrange : rangeFrom a (n + 1) = a :: rangeFrom (a + 1) n := by
      simp [rangeFrom, List.range_succ_eq_map, Nat.add_right_comm, Nat.add_assoc]
    rw [hrange, List.map_cons, ih, Memory.readBytes]

/-- A write whose bytes are all enabled names the offsets of its range. -/
theorem bar2Bytes_some_range {offset : Nat} {data : List Byte} {p : Nat × Byte}
    (hp : p ∈ bar2Bytes offset (data.map some)) : offset ≤ p.1 ∧ p.1 < offset + data.length := by
  rw [bar2Bytes_some, List.mem_map] at hp
  obtain ⟨q, hq, rfl⟩ := hp
  exact ⟨List.le_snd_of_mem_zipIdx hq, List.snd_lt_add_of_mem_zipIdx hq⟩

/-- A read of tier 1 over working banks returns the bytes stored. -/
theorem bar2Read_working {c : Chip} {offset len : Nat} (ha : c.answers 0 = true) (hp7 : c.gov.p7 = false)
    (hon : c.ctl.bar2Enable = true) (hwithin : offset + len ≤ 0x3000000)
    (hwork : ∀ a, offset ≤ a → a < offset + len → c.deadBank a = false) :
    (c.bar2Read offset len).readData = c.tier1.readBytes offset len := by
  rw [bar2Read_within ha hp7 hon hwithin, ← map_read_rangeFrom]
  refine List.map_congr_left (fun a h => ?_)
  obtain ⟨hlow, hhigh⟩ := mem_rangeFrom.1 h
  simp [hwork a hlow hhigh]

/-- A write with every byte enabled over working idle banks stores its bytes. -/
theorem bar2Write_working {c : Chip} {offset : Nat} {data : List Byte} (ha : c.answers 0 = true) (hp7 : c.gov.p7 = false)
    (hon : c.ctl.bar2Enable = true) (hwithin : offset + data.length ≤ 0x3000000)
    (hidle : ∀ a, offset ≤ a → a < offset + data.length → c.deadBank a = false ∧ c.bar2Busy a = false) :
    c.bar2Write offset (data.map some) = { c with tier1 := c.tier1.writeBytes offset data } := by
  have hsize : offset + (data.map some).length ≤ 0x4000000 := by rw [List.length_map]; omega
  have hbytes : ∀ p ∈ bar2Bytes offset (data.map some),
      p.1 < 0x3000000 ∧ c.deadBank p.1 = false ∧ c.bar2Busy p.1 = false := fun p hp => by
    obtain ⟨hlow, hhigh⟩ := bar2Bytes_some_range hp
    exact ⟨by omega, hidle p.1 hlow hhigh⟩
  rw [bar2Write_within ha hp7 hon hsize hbytes, bar2Bytes_some, foldl_writeBytes]

/-- Settles O22: the write stores its bytes in tier 1, the read returns what tier 1 holds, and a memory reads back what was
written to it (`Memory.readBytes_writeBytes`). -/
theorem bar2ReadsBackWhatIsWritten : Obligations.Bar2ReadsBackWhatIsWritten := by
  intro c offset data ha hp7 hon hwithin hidle
  rw [bar2Write_working ha hp7 hon hwithin hidle]
  constructor
  · have hwork : ∀ a, offset ≤ a → a < offset + data.length → c.deadBank a = false :=
      fun a hlow hhigh => (hidle a hlow hhigh).1
    exact (bar2Read_working (c := { c with tier1 := c.tier1.writeBytes offset data }) ha hp7 hon hwithin hwork).trans
      (Memory.readBytes_writeBytes c.tier1 offset data)
  · intro a houtside
    exact (Memory.read_writeBytes ..).trans (if_neg (by omega))

end Sys2Proof.Machine
end

section
/-! SUPPORT. What a quiet chip keeps, and the dictionary server's answers: an index that is not allocated, the keys of STORE and
RESTORE, and the journal (R143, R168, R170, R179). -/

namespace Sys2Proof.Machine

/-- Settles O37: the chip keeps what settling compares (`Chip.SameWatched`), so it stands (`settled_quiet`). -/
theorem quietEffectsStand : Obligations.QuietEffectsStand := by
  intro c old hquiet straps grade lp5x engine porstLow refclk retired errorRegister cams inertial lanes passages moves tensors ests
  exact settled_quiet hquiet
    { straps, grade, lp5x, engine, porstLow, refclk, retired, errorRegister, cams, inertial, lanes, passages, moves, tensors, ests }

/-! ### Commands that are READs, DESCRIBEs and WRITEs -/

/-- A DESCRIBE of a running engine that answers: the reply is noted, whatever the update's round holds. -/
theorem does_dictDescribe {s : State} {v idx sub code : Nat} {data : List Byte} (hs : s.on = true) (hq : s.chip.silent = false)
    (hv : v < 16) (hr : s.chip.callWake.dictDescribe v idx sub = (code, data)) :
    Does (.dictDescribe v idx sub) s (s.chip.callWake.noteReply v 4 idx sub code data) := by
  refine does_of_runRound hs (inOrder_read _ (.query v 4 idx sub) rfl) rfl ?_
  simp [RoundOp.effect, hv, Chip.query, hq, hr]

/-- The place of a WRITE in its update is its voice's and its transport's, whatever it writes (R156, R160). -/
theorem turn_eq (s : State) (ok : Bool) (v : Nat) (via : Via) (idx sub : Nat) (data : List Byte) :
    s.round.inOrder (.write ok { voice := v, via, idx, sub, data }) = s.turn v via := rfl

/-- A WRITE command in its turn, whose row's numbers exist and whose transport carries the voice, does what the server does. -/
theorem does_of_runWrite {i : Instr} {s : State} {ok : Bool} {v idx sub : Nat} {via : Via} {data : List Byte} {c : Chip}
    (hs : s.on = true) (hturn : s.turn v via = true) (he : exec i s = runWrite ok v via idx sub data s) (hok : ok = true)
    (hvia : goodVia v via = true) (hc : s.chip.submit { voice := v, via, idx, sub, data } = c) : Does i s c := by
  refine does_of_runRound hs ((turn_eq s _ v via idx sub data).trans hturn) he ?_
  simp [RoundOp.effect, hok, hvia, hc]

/-- A WRITE command in its turn that a check refuses is answered with the check's code, and nothing else changes. -/
theorem does_of_refused {i : Instr} {s : State} {v idx sub code : Nat} {via : Via} {data : List Byte} (hs : s.on = true)
    (hturn : s.turn v via = true) (he : exec i s = runWrite true v via idx sub data s) (hvia : goodVia v via = true)
    (hq : s.chip.silent = false) (hcode : s.chip.callWake.writeCode v idx sub data = code) (h0 : code ≠ 0) :
    Does i s (s.chip.callWake.respond { voice := v, via, idx, sub, data } code) :=
  does_of_runWrite hs hturn he rfl hvia (submit_refused _ _ _ hq hcode h0)

/-! ### An index that is not allocated (R143) -/

theorem missingCode_unallocated {idx : Nat} (sub : Nat) (h : indexAllocated idx = false) : missingCode idx sub = 0x0A010001 := by
  simp [missingCode, h]

theorem dictRead_unallocated (c : Chip) (v : Nat) {idx : Nat} (sub : Nat) (h : indexAllocated idx = false) :
    c.dictRead v idx sub = (0x0A010001, []) := by
  simp [Chip.dictRead, findEntry_none idx sub h, missingCode_unallocated sub h]

theorem dictDescribe_unallocated (c : Chip) (v : Nat) {idx : Nat} (sub : Nat) (h : indexAllocated idx = false) :
    c.dictDescribe v idx sub = (0x0A010001, []) := by
  simp [Chip.dictDescribe, findEntry_none idx sub h, missingCode_unallocated sub h]

theorem writeCode_unallocated (c : Chip) (v : Nat) {idx : Nat} (sub : Nat) (data : List Byte) (h : indexAllocated idx = false) :
    c.writeCode v idx sub data = 0x0A010001 := by
  simp [Chip.writeCode, findEntry_none idx sub h, missingCode_unallocated sub h]

/-- Settles O16: check 1 answers each of the three operations, since the index has no row (`findEntry_none`). -/
theorem unallocatedIndexAborts : Obligations.UnallocatedIndexAborts := by
  intro s v via idx sub data hs hq hv h
  refine ⟨?read, ?describe, ?write⟩
  case read => exact does_dictRead hs hq hv (dictRead_unallocated _ v sub h)
  case describe => exact does_dictDescribe hs hq hv (dictDescribe_unallocated _ v sub h)
  case write =>
    intro hturn hvia
    exact does_of_refused hs hturn rfl hvia hq (writeCode_unallocated _ v sub data h) (by decide)

/-! ### STORE and RESTORE (R168, R170) -/

/-- The row of 0x1100:1 (Table 4.9). -/
def storeRow : Entry := ⟨1, 1, "STORE", .u32, 0x0A, 0, .ints [(1398034258, 1398034258)], "", .any⟩

/-- The row of 0x1101:1 (Table 4.9). -/
def restoreRow : Entry := ⟨1, 1, "RESTORE", .u32, 0x0A, 0, .ints [(1145390657, 1145390657)], "", .any⟩

theorem findEntry_store : findEntry 0x1100 1 = some storeRow := by decide

theorem findEntry_restore : findEntry 0x1101 1 = some restoreRow := by decide

/-- R168: an entry that takes one key holds no other value to be legal. -/
theorem inRange_key {e : Entry} {key value : Nat} (hty : e.ty = .u32) (hrange : e.range = .ints [((key : Int), (key : Int))])
    (h : value ≠ key) : e.inRange value = false := by
  simp [Entry.inRange, hrange, Entry.value, hty, Ty.signed]
  omega

/-- From CONFIG on and not in FAULTED the server answers on every entry (R147). -/
theorem serves_of_alive {c : Chip} (ha : c.alive = true) : c.silent = false ∧ c.engine ≠ .faulted := by
  simp only [Chip.alive, Bool.or_eq_true, beq_iff_eq] at ha
  obtain ((h | h) | h) | h := ha <;> simp [Chip.silent, h]

/-- A value of four bytes reads back. -/
theorem leNat_leBytes_four {value : Nat} (h : value < m32) : leNat (leBytes 4 value) = value :=
  (leNat_leBytes 4 value).trans (Nat.mod_eq_of_lt h)

/-- Table 4.6: an entry that no condition binds may be written in CONFIG, READY and RUN. -/
theorem writeState_any {c : Chip} (idx sub : Nat) {e : Entry} (he : e.cond = .any)
    (hc : c.engine = .config ∨ c.engine = .ready ∨ c.engine = .run) : c.writeState idx sub e = 0 := by
  obtain h | h | h := hc <;> simp [Chip.writeState, h, he]

/-- Nothing but its value and the flash stands against a write of V0 to STORE. -/
theorem earlyCodes_store {c : Chip} (hc : c.engine = .config ∨ c.engine = .ready ∨ c.engine = .run) :
    c.earlyCodes 0 0x1100 1 4 storeRow = [0, 0, 0, 0, 0, 0] := by
  have hstate : c.writeState 0x1100 1 storeRow = 0 := writeState_any _ _ rfl hc
  simp [Chip.earlyCodes, hstate, Chip.foreign, Chip.unwritable, Chip.ownState, unitOf, wrongLength]
  decide

/-- R170: of a write of V0 to RESTORE, only RUN stands against anything but its value. -/
theorem earlyCodes_restore {c : Chip} (hc : c.engine = .config ∨ c.engine = .ready ∨ c.engine = .run) :
    c.earlyCodes 0 0x1101 1 4 restoreRow = [0, 0, 0, 0, if c.engine = .run then 0x0A040001 else 0, 0] := by
  have hstate : c.writeState 0x1101 1 restoreRow = 0 := writeState_any _ _ rfl hc
  simp [Chip.earlyCodes, hstate, Chip.foreign, Chip.unwritable, Chip.ownState, unitOf, wrongLength]
  decide

/-- A key that is wrong aborts with 0x0A030001, which ranks before what the flash says (R151). -/
theorem writeCode_store_wrong {c : Chip} {value : Nat} (hc : c.engine = .config ∨ c.engine = .ready ∨ c.engine = .run)
    (hlt : value < m32) (h : value ≠ 0x53544F52) : c.writeCode 0 0x1100 1 (leBytes 4 value) = 0x0A030001 := by
  have hrange : storeRow.inRange value = false := inRange_key rfl rfl h
  have hlen : wrongLength 0x1100 1 4 storeRow = false := rfl
  have hown : c.ownCheck 0 0x1100 1 value (leBytes 4 value) = c.storeCheck := by simp [Chip.ownCheck]
  simp only [Chip.writeCode, findEntry_store, length_leBytes, hlen, earlyCodes_store hc, leNat_leBytes_four hlt, hrange, hown]
  obtain hstore | hstore | hstore := storeCheck_vals c <;> rw [hstore] <;> rfl

theorem writeCode_restore {c : Chip} {value : Nat} (hc : c.engine = .config ∨ c.engine = .ready ∨ c.engine = .run)
    (hlt : value < m32) : c.writeCode 0 0x1101 1 (leBytes 4 value) =
      if c.engine = .run then 0x0A040001 else if restoreRow.inRange value then 0 else 0x0A030001 := by
  have hlen : wrongLength 0x1101 1 4 restoreRow = false := rfl
  have hown : c.ownCheck 0 0x1101 1 value (leBytes 4 value) = 0 := by simp [Chip.ownCheck]
  simp only [Chip.writeCode, findEntry_restore, length_leBytes, hlen, earlyCodes_restore hc, leNat_leBytes_four hlt, hown]
  by_cases hrun : c.engine = .run
  · rw [if_pos hrun, if_pos hrun]; cases restoreRow.inRange value <;> rfl
  · rw [if_neg hrun, if_neg hrun]; cases restoreRow.inRange value <;> rfl

/-- Settles O17: of a write of V0 to either entry only the engine state and the value can be refused, the state first (R151). -/
theorem storeAndRestoreTakeOnlyTheirKeys : Obligations.StoreAndRestoreTakeOnlyTheirKeys := by
  intro s via value hs hturn hvia hlt
  have hanswers : s.chip.engine = .config ∨ s.chip.engine = .ready ∨ s.chip.engine = .run → s.chip.silent = false := fun h =>
    (serves_of_alive (by obtain h | h | h := h <;> simp [Chip.alive, h])).1
  refine ⟨?store, ?restoreKey, ?restoreRun⟩
  case store =>
    intro hc h
    exact does_of_refused hs hturn rfl hvia (hanswers hc) (writeCode_store_wrong (c := s.chip.callWake) hc hlt h) (by decide)
  case restoreKey =>
    intro hc h
    have hany : s.chip.callWake.engine = .config ∨ s.chip.callWake.engine = .ready ∨ s.chip.callWake.engine = .run :=
      hc.imp_right .inl
    have hnorun : s.chip.callWake.engine ≠ .run := by rw [wake_engine]; obtain h | h := hc <;> simp [h]
    have hrange : restoreRow.inRange value = false := inRange_key rfl rfl h
    refine does_of_refused hs hturn rfl hvia (hanswers hany) ?_ (by decide)
    rw [writeCode_restore hany hlt, if_neg hnorun, hrange]; rfl
  case restoreRun =>
    intro hrun
    have hany : s.chip.callWake.engine = .config ∨ s.chip.callWake.engine = .ready ∨ s.chip.callWake.engine = .run :=
      .inr (.inr hrun)
    refine does_of_refused hs hturn rfl hvia (hanswers hany) ?_ (by decide)
    rw [writeCode_restore hany hlt, if_pos (show s.chip.callWake.engine = .run from hrun)]

/-! ### The journal (R179) -/

/-- The row of 0x1830:2 to 0x1830:9 (Table 4.13). -/
def recordRow : Entry := ⟨2, 9, "RECORD_0–RECORD_7", .blob, 0x01, 0, .len 32 32, "", .any⟩

theorem findEntry_record : ∀ k < 8, findEntry 0x1830 (k + 2) = some recordRow := by decide

@[simp] theorem keep_setKeep_same (c : Chip) (v : Nat) (x : VoiceKeep) : (c.setKeep v x).keep v = x :=
  tabGet_tabSet_same _ _ _ _

/-- R179: a commit's record stands first in its voice's journal, which keeps eight. -/
theorem noteCommit_journal (c : Chip) (q : DictReq) : ((c.noteCommit q).keep q.voice).journal =
    (c.journalRecord (((c.keep q.voice).journalSeq + 1) % m32) q :: (c.keep q.voice).journal).take 8 := by
  simp [Chip.noteCommit]

/-- Every voice may read its own journal while the blocks work. -/
theorem dictRead_record {c : Chip} (v : Nat) {k : Nat} (ha : c.alive = true) (hk : k < 8) :
    c.dictRead v 0x1830 (k + 2) = (0, leBytes 32 ((c.keep v).journal.getD k 0)) := by
  have hstate : c.readState 0x1830 = 0 := by simp [Chip.readState, serves_of_alive ha]
  have hown : c.foreign v 0x1830 (k + 2) recordRow false = 0 := by
    simp [Chip.foreign, Chip.accessOf, recordRow, bit]
  have hbytes : c.readBytes v 0x1830 (k + 2) recordRow = leBytes 32 ((c.keep v).journal.getD k 0) := by
    simp [Chip.readBytes, recordRow, Ty.size, Chip.viewBlob]
  have hcode : firstCode [0, if recordRow.readable then 0 else 0x0A020002, 0, 0] = 0 := by decide
  simp [Chip.dictRead, findEntry_record k hk, hown, hstate, Chip.descriptorCode, hcode, hbytes]

/-- A record that the journal does not hold reads as 32 zero bytes. -/
theorem recordBytes_getD (l : List Nat) (k : Nat) : leBytes 32 (l.getD k 0) =
    match l[k]? with
    | some r => leBytes 32 r
    | none => List.replicate 32 0 := by
  cases h : l[k]? with
  | some r => simp [List.getD, h]
  | none => simp only [List.getD, h]; decide

/-- Settles O18: the commit's own law (`noteCommit_journal`), and the READ of a record (`dictRead_record`). -/
theorem journalHoldsTheLastEight : Obligations.JournalHoldsTheLastEight := by
  refine ⟨noteCommit_journal, ?read⟩
  case read =>
    intro s v k hlive hv hk
    obtain ⟨hs, ha⟩ : s.on = true ∧ s.chip.alive = true := by simpa [State.live] using hlive
    exact does_dictRead hs (serves_of_alive ha).1 hv ((dictRead_record v ha hk).trans (congrArg _ (recordBytes_getD ..)))

end Sys2Proof.Machine
end

section
/-! SUPPORT. The dictionary server's operations complete: READ, DESCRIBE, WRITE and deferred writes, the order of an update, and
every entry with a command of its own (R141, R142, R151 to R160, R873). -/

namespace Sys2Proof.Machine

/-! ### Commits -/

/-- A WRITE that no check refuses and nothing delays commits and is answered (R153). -/
theorem submit_commits {c : Chip} {q : DictReq} (hq : c.silent = false) (hcode : c.callWake.codeOf q = 0)
    (hnow : c.callWake.committedNow q.voice = false) (hfirst : (c.callWake.keep q.voice).deferred = [])
    (hwait : c.callWake.armMustWait q = false) : c.submit q = (c.callWake.commitWrite q).respond q 0 := by
  simp [Chip.submit, Chip.commitOr, hq, hcode, hnow, hfirst, hwait]

/-- What acceptance says, part by part. -/
theorem accepts_iff (s : State) (v : Nat) (via : Via) (idx sub : Nat) (data : List Byte) :
    s.accepts v via idx sub data = true ↔
      s.on = true ∧ s.turn v via = true ∧ goodVia v via = true ∧ s.chip.silent = false ∧
      s.chip.callWake.writeCode v idx sub data = 0 ∧ s.chip.callWake.committedNow v = false ∧
      (s.chip.callWake.keep v).deferred = [] ∧ s.chip.callWake.armMustWait { voice := v, via, idx, sub, data } = false := by
  simp only [State.accepts, Bool.and_eq_true, Bool.not_eq_true', beq_iff_eq, List.isEmpty_iff, and_assoc]

/-- A WRITE command that the server accepts completes with the commit and its answer. -/
theorem does_committed {i : Instr} {s : State} {ok : Bool} {v idx sub : Nat} {via : Via} {data : List Byte}
    (he : exec i s = runWrite ok v via idx sub data s) (hok : ok = true) (h : s.accepts v via idx sub data = true) :
    Does i s (s.committed v via idx sub data) := by
  obtain ⟨hs, hturn, hvia, hq, hcode, hnow, hfirst, hwait⟩ := (accepts_iff ..).1 h
  exact does_of_runWrite hs hturn he hok hvia (submit_commits hq hcode hnow hfirst hwait)

/-- R160: the only write put off has its update when its voice has committed nothing in it. -/
theorem commitDeferred_single {c : Chip} {v : Nat} {q : DictReq} (hnow : c.committedNow v = false) (hq : c.silent = false)
    (hone : (c.keep v).deferred = [q]) (hvia : q.via.transport ≤ 255) : c.commitDeferred v =
      (c.setKeep v { c.keep v with deferred := [] }).commitOr q ((c.setKeep v { c.keep v with deferred := [] }).codeOf q) := by
  simp [Chip.commitDeferred, hnow, hq, hone, Nat.min_eq_right hvia]

/-! ### The order of an update (R156, R158, R160, R873) -/

theorem Round.insert_cons_before {x o : RoundOp} (ops : List RoundOp) (h : x.place ≤ o.place) :
    Round.insert (x :: ops) o = x :: Round.insert ops o := by
  simp [Round.insert, h]

theorem Round.insert_cons_behind {x o : RoundOp} (ops : List RoundOp) (h : ¬ x.place ≤ o.place) :
    Round.insert (x :: ops) o = o :: x :: ops := by
  simp [Round.insert, h]

theorem Round.insert_perm (ops : List RoundOp) (o : RoundOp) : (Round.insert ops o).Perm (o :: ops) := by
  induction ops with
  | nil => exact .refl _
  | cons x ops ih =>
    by_cases h : x.place ≤ o.place
    · rw [Round.insert_cons_before ops h]; exact (ih.cons x).trans (.swap o x ops)
    · rw [Round.insert_cons_behind ops h]

/-- An operation takes its place among operations that stand in the order of their places. -/
theorem Round.insert_ordered {ops : List RoundOp} (o : RoundOp) (h : ops.Pairwise (fun x y => x.place ≤ y.place)) :
    (Round.insert ops o).Pairwise (fun x y => x.place ≤ y.place) := by
  induction ops with
  | nil => exact List.pairwise_singleton _ _
  | cons x ops ih =>
    obtain ⟨hx, hops⟩ := List.pairwise_cons.1 h
    by_cases hxo : x.place ≤ o.place
    · rw [Round.insert_cons_before ops hxo]
      refine List.pairwise_cons.2 ⟨fun y hy => ?_, ih hops⟩
      obtain rfl | hy := List.mem_cons.1 ((Round.insert_perm ops o).subset hy)
      · exact hxo
      · exact hx y hy
    · rw [Round.insert_cons_behind ops hxo]
      refine List.pairwise_cons.2 ⟨fun y hy => ?_, h⟩
      obtain rfl | hy := List.mem_cons.1 hy
      · omega
      · have := hx y hy; omega

/-- A dictionary operation behind its place leaves the chip that the update's operations leave in their order. -/
theorem leaves_of_runRound_late {i : Instr} {s : State} {o : RoundOp} (hs : s.on = true) (ho : s.round.inOrder o = false)
    (he : exec i s = runRound o s) :
    Leaves i s (((s.round.push s.chip o).base.replay (s.round.push s.chip o).ops).untilColdReset s.chip) :=
  ⟨s.round.push s.chip o, by rw [he, runRound_late o s (State.off_of_on hs) ho]⟩

/-- Settles O43, a clause at a time: each command is a dictionary operation, in its place or behind it. -/
theorem dictionaryServiceCompletes : Obligations.DictionaryServiceCompletes := by
  refine ⟨?read, ?describe, ?write, ?refusedWrite, ?deferred, ?lateWrite, ?order⟩
  case read => exact fun s v idx sub hs hq hv => does_dictRead hs hq hv rfl
  case describe => exact fun s v idx sub hs hq hv => does_dictDescribe hs hq hv rfl
  case write => exact fun s v via idx sub data h => does_committed rfl rfl h
  case refusedWrite => exact fun s v via idx sub data hs hturn hvia hq h0 => does_of_refused hs hturn rfl hvia hq rfl h0
  case deferred =>
    intro s v q hs hplace hv hq hnow hone hvia hcode hwait
    refine does_of_runRound hs hplace rfl ?_
    simp [RoundOp.effect, hv, commitDeferred_single hnow hq hone hvia, hcode, Chip.commitOr, hwait]
  case lateWrite =>
    intro s v via idx sub data hs hturn
    exact leaves_of_runRound_late hs ((turn_eq s _ v via idx sub data).trans hturn) rfl
  case order => exact fun r c o h => ⟨Round.insert_ordered o h, Round.insert_perm r.ops o⟩

/-! ### Entries with a command of their own -/

/-- FW_INSTALL commits, or answers the first check that fails (R821). -/
theorem does_fwInstall {s : State} {v : Nat} {via : Via} {tensor : Nat} (hs : s.on = true) (hturn : s.turn v via = true)
    (hvia : goodVia v via = true) (hq : s.chip.silent = false) (hnow : s.chip.callWake.committedNow v = false)
    (hfirst : (s.chip.callWake.keep v).deferred = [])
    (hwait : s.chip.callWake.armMustWait { voice := v, via, idx := 0x6000, sub := 12, data := leBytes 4 tensor } = false) :
    Does (.fwInstall v via tensor) s
      (let code := s.chip.callWake.writeCode v 0x6000 12 (leBytes 4 tensor)
       if code = 0 then s.committed v via 0x6000 12 (leBytes 4 tensor)
       else s.chip.callWake.respond { voice := v, via, idx := 0x6000, sub := 12, data := leBytes 4 tensor } code) := by
  by_cases hcode : s.chip.callWake.writeCode v 0x6000 12 (leBytes 4 tensor) = 0
  · simp only [hcode, if_true]
    exact does_committed rfl rfl ((accepts_iff ..).2 ⟨hs, hturn, hvia, hq, hcode, hnow, hfirst, hwait⟩)
  · simp only [hcode, if_false]
    exact does_of_refused hs hturn rfl hvia hq rfl hcode

/-- Settles O44, a row at a time: each command is a WRITE of its entry (`does_committed`), by its definition, where the row's
numbers exist. -/
theorem dictionaryRowsComplete : Obligations.DictionaryRowsComplete := by
  refine ⟨?sourceWrite, ?cueArmWrite, ?cueCancelWrite, ?stateRequestReady, ?stateRequestConfig, ?stateRequestRun,
    ?stateRequestHold, ?stateRequestHoldExit, ?behaviourLevelRequest, ?store, ?restore, ?broadcastEnable,
    ?broadcastMapWrite, ?recover, ?voiceResetEntry, ?tunnelWrite, ?quotaWrite, ?cameraEnable, ?rectEnable,
    ?cameraInject, ?inertialInject, ?coefLoad, ?swap, ?syncWrite, ?channelRestart, ?preset, ?instanceEnable,
    ?instanceDisable, ?clearMap, ?exportMap, ?importMap, ?estimatorInject, ?evict, ?create, ?release, ?refresh,
    ?requiredWidthWrite, ?detourEntry, ?detourClear, ?breezeEnable, ?tx, ?ceilingFloorWrite, ?attnAck,
    ?overflowClear, ?persistClear, ?nonce, ?lock, ?fwInstall⟩
  case fwInstall => exact fun _ _ _ _ => does_fwInstall
  -- the row stands at several indices or subindices, whose numbers the clause bounds
  case sourceWrite | broadcastMapWrite | quotaWrite | channelRestart | ceilingFloorWrite =>
    intros; exact does_committed rfl ‹_› ‹_›
  case cueArmWrite | cueCancelWrite | broadcastEnable | recover | voiceResetEntry | tunnelWrite | cameraEnable |
      rectEnable | cameraInject | inertialInject | coefLoad | swap | syncWrite | preset | requiredWidthWrite =>
    intros; exact does_committed rfl (decide_eq_true ‹_›) ‹_›
  -- the row stands at one index and subindex
  all_goals intros; exact does_committed rfl rfl ‹_›

end Sys2Proof.Machine
end

section
/-! SUPPORT. The invariant that every step keeps: no command changes the straps of a running engine (R191), an engine held in
RESET stays cleared (R804, R856), and FAULT_N follows the engine's state (R783). -/

namespace Sys2Proof.Machine

/-- The invariant speaks of the chip alone. -/
structure Chip.Sound (c : Chip) : Prop where
  ident : c.straps.ident < 64
  held : c.off = true → c.cleared = true
  faultN : c.faults.faultN = (c.engine == .faulted)

theorem State.inv_iff (s : State) : s.inv = true ↔ s.chip.Sound := by
  have hparts : s.inv = true ↔ s.chip.straps.ident < 64 ∧ (s.chip.off = true → s.chip.cleared = true) ∧
      s.chip.faults.faultN = (s.chip.engine == .faulted) := by
    cases hoff : s.chip.off <;> simp [State.inv, hoff, and_assoc]
  exact hparts.trans ⟨fun ⟨ident, held, faultN⟩ => ⟨ident, held, faultN⟩, fun h => ⟨h.ident, h.held, h.faultN⟩⟩

/-! ### The shared operations -/

/-- What stays until a cold reset holds a running engine to the invariant, whatever the command did. -/
theorem untilColdReset_sound (c : Chip) {old : Chip} (hident : old.straps.ident < 64) (hoff : old.off = false) :
    (c.untilColdReset old).Sound where
  ident := hident
  held h := absurd (hoff.symm.trans h) Bool.false_ne_true
  faultN := rfl

/-- A cleared engine is cleared whatever the levels of the board are. -/
theorem Chip.Sound.setBoard {c : Chip} (h : c.Sound) (hoff : c.off = true) (b : Board) :
    ({ c with board := b } : Chip).Sound where
  ident := h.ident
  held _ := h.held hoff
  faultN := h.faultN

theorem Chip.Sound.setTap {c : Chip} (h : c.Sound) (x : Tap) : ({ c with tap := x } : Chip).Sound where
  ident := h.ident
  held := h.held
  faultN := h.faultN

/-- R804, R856: so is an engine that comes to be held in RESET. -/
theorem held_sound {c : Chip} (h : c.Sound) (b : Board) : ({ c.held with board := b } : Chip).Sound where
  ident := (congrArg Straps.ident (held_cleared c).2.2).trans_lt h.ident
  held _ := (held_cleared c).1
  faultN := (held_cleared c).2.1

theorem coldReset_sound (c : Chip) {b : Board} (mode ident : Nat) (hporst : b.porstLow = false) (hclock : b.refclk = true) :
    (({ c with board := b } : Chip).coldReset mode ident).Sound := by
  obtain ⟨hon, hident, hfault⟩ := coldReset_keeps { c with board := b } mode ident hporst hclock
  exact ⟨hident, fun h => absurd (hon.symm.trans h) Bool.false_ne_true, hfault⟩

/-- R807: a held engine does not notice a warm reset, and a running one runs after it. -/
theorem warmReset_sound {c : Chip} (h : c.Sound) (cause : Nat) : (c.warmReset cause).Sound := by
  obtain ⟨hstraps, -, hfault, hon, -⟩ := warmReset_keeps c cause
  cases hoff : c.off with
  | true => rwa [warmReset_off c cause hoff]
  | false => exact ⟨(congrArg Straps.ident hstraps).trans_lt h.ident,
      fun hheld => absurd ((hon hoff).symm.trans hheld) Bool.false_ne_true, hfault h.faultN⟩

/-- Every command that is no reset: a held engine only has its board's levels changed, and a running one keeps what stays
until a cold reset. -/
theorem Ordinary.sound {s t : State} {o : Host.Outcome State Fault Refusal} (h : Ordinary s o) (hs : s.chip.Sound)
    (ho : o = .next t) : t.chip.Sound := by
  obtain ⟨hheld, hrunning⟩ := h
  cases hoff : s.chip.off with
  | true =>
    obtain ⟨pin, -, hnext⟩ := hheld hoff
    cases hnext.symm.trans ho
    exact hs.setBoard hoff _
  | false =>
    obtain ⟨c, r, hnext⟩ := hrunning hoff
    cases hnext.symm.trans ho
    exact untilColdReset_sound c hs.ident hoff

theorem runReset_sound {f : Chip → Chip} {s t : State} (ho : runReset f s = .next t) (hf : (f s.chip).Sound) :
    t.chip.Sound := by
  cases ho; exact hf

/-! ### The cold resets -/

theorem powerOnReset_sound {mode ident : Nat} {s t : State} (hs : s.chip.Sound)
    (ho : exec (.powerOnReset mode ident) s = .next t) : t.chip.Sound := by
  cases hclock : s.chip.board.refclk with
  | false => exact runReset_sound ((exec_powerOnReset_noClock mode ident s hclock).symm.trans ho) (held_sound hs _)
  | true =>
    by_cases hmode : mode % 4 = 3
    · cases (exec_powerOnReset_test mode ident s hclock hmode).symm.trans ho
    · exact runReset_sound ((exec_powerOnReset_cold mode ident s hclock hmode).symm.trans ho)
        (coldReset_sound s.chip mode ident rfl hclock)

theorem refclk25Return_sound {mode ident : Nat} {s t : State} (hs : s.chip.Sound)
    (ho : exec (.refclk25Return mode ident) s = .next t) : t.chip.Sound := by
  cases hclock : s.chip.board.refclk with
  | true => cases (exec_refclk25Return_clocked mode ident s hclock).symm.trans ho; exact hs
  | false =>
    have hoff : s.chip.off = true := by simp [Chip.off, hclock]
    cases hporst : s.chip.board.porstLow with
    | true => exact runReset_sound ((exec_refclk25Return_held mode ident s hclock hporst).symm.trans ho) (hs.setBoard hoff _)
    | false =>
      by_cases hmode : mode % 4 = 3
      · cases (exec_refclk25Return_test mode ident s hclock hporst hmode).symm.trans ho
      · exact runReset_sound ((exec_refclk25Return_cold mode ident s hclock hporst hmode).symm.trans ho)
          (coldReset_sound s.chip mode ident hporst rfl)

/-! ### Every command -/

theorem exec_sound {i : Instr} {s t : State} (hs : s.chip.Sound) (ho : exec i s = .next t) : t.chip.Sound := by
  obtain h | ⟨mode, ident, rfl⟩ | rfl | ⟨mode, ident, rfl⟩ | rfl | ⟨ir, rfl⟩ := exec_cases i
  · exact (exec_ordinary i h s).sound hs ho
  · exact powerOnReset_sound hs ho
  · exact runReset_sound (f := Chip.refclkLost) ho (held_sound hs _)
  · exact refclk25Return_sound hs ho
  · exact runReset_sound (f := fun c => c.warmReset 2) ho (warmReset_sound hs 2)
  · exact runReset_sound (f := fun c => { c with tap := Tap.load ir c.board.porstLow }) ho (hs.setTap _)

/-- Settles O8: an idle step leaves the state, and a command keeps its chip sound (`exec_sound`). -/
theorem everyStepKeepsTheInvariant : Obligations.EveryStepKeepsTheInvariant := by
  intro s t hinv hstep
  rw [State.inv_iff] at hinv ⊢
  obtain ⟨pending, chip, round⟩ := s
  cases pending with
  | nil => cases hstep; exact hinv
  | cons i rest => exact exec_sound (s := ⟨rest, chip, round⟩) hinv hstep

/-- Settles O9: at power-on everything that a cold reset clears is cleared (`reset_cleared`), and the engine is in RESET. -/
theorem resetMeetsTheInvariant : Obligations.ResetMeetsTheInvariant :=
  (State.inv_iff _).2 ⟨by decide, fun _ => reset_cleared, rfl⟩

end Sys2Proof.Machine
end

section
/-! SUPPORT. The CAN FD ports: the receive FIFO, the frames of the dictionary server, mailboxes, attempts, heartbeat and bus-off
(chapter 5). -/

namespace Sys2Proof.Machine

/-! ### The receive FIFO (R206, R208, R209) -/

/-- R206: a frame that no filter accepts leaves the chip. -/
theorem toFifo_unmatched {c : Chip} {p : Nat} {f : CanFrame} (h : (List.range 64).find? ((c.port p).matchesFilter f) = none) :
    c.toFifo p f = c := by
  simp only [Chip.toFifo, h]

/-- R209: a frame that a filter accepts while the FIFO is full is counted. -/
theorem toFifo_full {c : Chip} {p k : Nat} {f : CanFrame} (hmatch : (List.range 64).find? ((c.port p).matchesFilter f) = some k)
    (hfull : (c.port p).fifo.length = 64) : c.toFifo p f = c.dinc (canKey p 25) := by
  simp [Chip.toFifo, hmatch, hfull]

theorem dget_dinc_same (c : Chip) (key : Nat) : (c.dinc key).dget key = (c.dget key + 1) % m32 := Chip.dget_dset_same ..

/-- Settles O30: a full FIFO takes no frame, and one that some filter accepts is counted (`toFifo_full`). -/
theorem fullFifoDropsTheFrame : Obligations.FullFifoDropsTheFrame := by
  intro c p f hfull
  cases hmatch : (List.range 64).find? ((c.port p).matchesFilter f) with
  | none =>
    rw [toFifo_unmatched hmatch]
    refine ⟨rfl, fun haccepted => ?_⟩
    obtain ⟨k, hk, haccepts⟩ := List.any_eq_true.1 haccepted
    exact absurd haccepts (List.find?_eq_none.1 hmatch k hk)
  | some k =>
    rw [toFifo_full hmatch hfull]
    exact ⟨rfl, fun _ => dget_dinc_same ..⟩

/-! ### Commands of a port -/

/-- A command of one of the two ports completes on a running engine with its effect. -/
theorem does_of_canRun {i : Instr} {s : State} {p : Nat} {f : Chip → Chip} {c : Chip} (hs : s.on = true) (hp : p < 2)
    (he : exec i s = canRun p f s) (hc : f s.chip = c) : Does i s c :=
  does_of_run hs he ((if_pos hp).trans hc)

/-! ### Received frames (R206 to R209, R227, R237 to R240) -/

/-- What a port on the bus does with a valid frame of another node, once it has heard it. -/
theorem canReceive_onBus {c : Chip} {p : Nat} {f : CanFrame} (hbus : c.onBus p = true) : c.canReceive p f =
    if f.rtr then c.heard p
    else if (c.heard p).isRequest p f then (c.heard p).canServe p f
    else if (c.heard p).isMarker p f && !(c.heard p).dbool (canKey p 17) then (c.heard p).captureMarker p f
    else (c.heard p).toFifo p f := by
  simp only [Chip.canReceive, hbus]
  rfl

/-- Table 5.2: a remote frame is discarded. -/
theorem canReceive_remote {c : Chip} {p : Nat} {f : CanFrame} (hbus : c.onBus p = true) (hrtr : f.rtr = true) :
    c.canReceive p f = c.heard p := by
  rw [canReceive_onBus hbus, if_pos hrtr]

/-- R207: a frame on the request identifier goes to the dictionary server. -/
theorem canReceive_request {c : Chip} {p : Nat} {f : CanFrame} (hbus : c.onBus p = true) (hrtr : f.rtr = false)
    (hreq : (c.heard p).isRequest p f = true) : c.canReceive p f = (c.heard p).canServe p f := by
  simp [canReceive_onBus hbus, hrtr, hreq]

/-- R237: an epoch marker goes to a port that sends none. -/
theorem canReceive_marker {c : Chip} {p : Nat} {f : CanFrame} (hbus : c.onBus p = true) (hrtr : f.rtr = false)
    (hreq : (c.heard p).isRequest p f = false) (hmarker : (c.heard p).isMarker p f = true)
    (hsends : (c.heard p).dbool (canKey p 17) = false) : c.canReceive p f = (c.heard p).captureMarker p f := by
  simp [canReceive_onBus hbus, hrtr, hreq, hmarker, hsends]

/-- R208: every other frame goes to the filters. -/
theorem canReceive_toFifo {c : Chip} {p : Nat} {f : CanFrame} (hbus : c.onBus p = true) (hrtr : f.rtr = false)
    (hreq : (c.heard p).isRequest p f = false)
    (hmarker : (c.heard p).isMarker p f = false ∨ (c.heard p).dbool (canKey p 17) = true) :
    c.canReceive p f = (c.heard p).toFifo p f := by
  obtain h | h := hmarker <;> simp [canReceive_onBus hbus, hrtr, hreq, h]

/-- A frame that is no request as it arrives is none of the server's operations. -/
theorem exec_canFrameReceived_other {s : State} {p : Nat} {f : CanFrame} (hreq : s.chip.isRequest p f = false) :
    exec (.canFrameReceived p f) s = canRun p (fun c => c.canReceive p f) s := by
  simp [exec, execCanFrameReceived, hreq]

/-- One that is stands in the update's round with every command code. -/
theorem exec_canFrameReceived_request {s : State} {p : Nat} {f : CanFrame} (hreq : s.chip.isRequest p f = true) :
    exec (.canFrameReceived p f) s = runRound (.canFrame p (List.range 16) f) s := by
  simp [exec, execCanFrameReceived, hreq]

theorem does_canFrameReceived {s : State} {p : Nat} {f : CanFrame} {c : Chip} (hs : s.on = true) (hp : p < 2)
    (hreq : s.chip.isRequest p f = false) (hc : s.chip.canReceive p f = c) : Does (.canFrameReceived p f) s c :=
  does_of_canRun hs hp (exec_canFrameReceived_other hreq) hc

/-! ### Request frames and their place in the update (R156, R158) -/

/-- Whether an operation is in order depends on its place alone. -/
theorem inOrder_congr (r : Round) {o o' : RoundOp} (h : o.place = o'.place) : r.inOrder o = r.inOrder o' := by
  simp only [Round.inOrder, h]

/-- READ, DESCRIBE and SEGMENT_REQ frames only read. -/
theorem inOrder_canFrame_read (r : Round) (p : Nat) (f : CanFrame) {codes : List Nat}
    (h : codes = [1] ∨ codes = [4] ∨ codes = [6]) : r.inOrder (.canFrame p codes f) = true :=
  inOrder_read r _ (if_pos h)

/-- Any other frame has the place of a write of the port's voice. -/
theorem inOrder_canFrame_write {s : State} {p : Nat} (f : CanFrame) {codes : List Nat}
    (h : ¬(codes = [1] ∨ codes = [4] ∨ codes = [6])) (hturn : s.turn (canVoice p) ⟨3, 0⟩ = true) :
    s.round.inOrder (.canFrame p codes f) = true :=
  have hplace : (RoundOp.canFrame p codes f).place = commitPlace (canVoice p) 3 := if_neg h
  (inOrder_congr s.round hplace).trans hturn

/-- The frame is a valid one of another node, on the request identifier of port `p` before and after it has been heard. -/
structure Chip.Requested (c : Chip) (p : Nat) (f : CanFrame) : Prop where
  port : p < 2
  bus : c.onBus p = true
  data : f.rtr = false
  arrives : c.isRequest p f = true
  heard : (c.heard p).isRequest p f = true

/-- A request frame in its place completes with what the server does with it. -/
theorem does_canFrame {i : Instr} {s : State} {p : Nat} {f : CanFrame} {codes : List Nat} {c : Chip} (hs : s.on = true)
    (h : s.chip.Requested p f) (hplace : s.round.inOrder (.canFrame p codes f) = true)
    (he : exec i s = runRound (.canFrame p codes f) s) (hcode : (f.data.getD 0 0).toNat / 16 ∈ codes)
    (hc : (s.chip.heard p).canServe p f = c) : Does i s c := by
  refine does_of_runRound hs hplace he ?_
  have htaken : codes.contains ((f.data.getD 0 0).toNat / 16) = true := List.contains_iff_mem.2 hcode
  simp only [RoundOp.effect, h.port, if_true, Chip.canRequestOf, h.arrives, htaken, Bool.and_self]
  exact (canReceive_request h.bus h.data h.heard).trans hc

/-- R222, R227: the server answers, and the frame is new and long enough for its command code. -/
structure Chip.Takes (c : Chip) (p code : Nat) (f : CanFrame) : Prop where
  command : (f.data.getD 0 0).toNat / 16 = code
  answers : c.silent = false
  fresh : (c.port p).lastReq.any (sameFrame f) = false
  layout : layoutLength code f.data ≤ f.data.length
  nonempty : f.data.length ≠ 0

theorem Chip.Takes.long {c : Chip} {p code : Nat} {f : CanFrame} (h : c.Takes p code f) :
    ¬(f.data.length < layoutLength code f.data ∨ f.data.length = 0) :=
  not_or.2 ⟨h.layout.not_gt, h.nonempty⟩

/-- R214 to R216: READ, WRITE, WRITE_INIT and DESCRIBE. -/
theorem canServe_newRequest {c : Chip} {p code : Nat} {f : CanFrame} (h : c.Takes p code f)
    (hcode : code = 1 ∨ code = 2 ∨ code = 3 ∨ code = 4) : c.canServe p f = c.canNewRequest p code (frameTag f) f := by
  simp only [Chip.canServe, h.answers, h.fresh, h.command, h.long, if_false]
  obtain rfl | rfl | rfl | rfl := hcode <;> rfl

/-- R217, R218: SEGMENT. -/
theorem canServe_segment {c : Chip} {p : Nat} {f : CanFrame} (h : c.Takes p 5 f) :
    c.canServe p f = c.canTakeSegment p f := by
  simp only [Chip.canServe, h.answers, h.fresh, h.command, h.long, if_false]
  rfl

/-- R218: SEGMENT_REQ. -/
theorem canServe_segmentReq {c : Chip} {p : Nat} {f : CanFrame} (h : c.Takes p 6 f) :
    c.canServe p f = c.canGiveSegment p f := by
  simp only [Chip.canServe, h.answers, h.fresh, h.command, h.long, if_false]
  rfl

/-- R229: an ABORT ends the open transfer of its tag. -/
theorem canServe_abort {c : Chip} {p : Nat} {f : CanFrame} {t : Transfer} (h : c.Takes p 14 f)
    (hopen : (c.port p).transfer = some t) (htag : t.tag = frameTag f) :
    c.canServe p f = c.setPort p { c.port p with transfer := none } := by
  simp only [Chip.canServe, h.answers, h.fresh, h.command, h.long, hopen, htag, if_false]
  rfl

/-- R222: the last request frame accepted comes again, and its response is sent again. -/
theorem canServe_replayed {c : Chip} {p : Nat} {f rsp : CanFrame} (hanswers : c.silent = false)
    (hsame : (c.port p).lastReq.any (sameFrame f) = true) (hrsp : (c.port p).lastRsp = some rsp) :
    c.canServe p f = (c.canRespond p rsp).dinc (canKey p 27) := by
  simp [Chip.canServe, Chip.canReplay, hanswers, hsame, hrsp]

theorem exec_transferTimeout (p : Nat) (s : State) : exec (.transferTimeout p) s = execTransferTimeout p s := rfl

/-- R228: TRANSFER_TIMEOUT milliseconds have passed since the latest frame of the open transfer. -/
theorem does_transferTimeout {s : State} {p : Nat} {t : Transfer} (hs : s.on = true) (hp : p < 2)
    (hopen : (s.chip.port p).transfer = some t) (hdue : t.at_ + s.chip.dget (canKey p 19) * 250000 ≤ s.chip.now) :
    Does (.transferTimeout p) s (s.chip.canRefuse p t.tag t.idx t.sub 0x0A060002) := by
  refine does_of_canRun hs hp (exec_transferTimeout p s) ?_
  simp only [hopen, hdue, if_true]

/-- Every byte has one of the sixteen command codes. -/
theorem commandCode_mem_range (b : Byte) : b.toNat / 16 ∈ List.range 16 :=
  List.mem_range.2 (by have := b.isLt; omega)

/-- Settles O45, a clause at a time: each command is a request frame in its place, which the server takes by its code. -/
theorem canProtocolCompletes : Obligations.CanProtocolCompletes := by
  refine ⟨?read, ?write, ?writeInit, ?describe, ?segment, ?segmentReq, ?clientAbort, ?timeout, ?served, ?replayed⟩
  case read | describe =>
    intro s p f hs hp hbus hrtr hreq hheard hcode hanswers hfresh hlayout hne
    exact does_canFrame hs ⟨hp, hbus, hrtr, hreq, hheard⟩ (inOrder_canFrame_read _ p f (by decide)) rfl
      (List.mem_singleton.2 hcode) (canServe_newRequest ⟨hcode, hanswers, hfresh, hlayout, hne⟩ (by decide))
  case segmentReq =>
    intro s p f hs hp hbus hrtr hreq hheard hcode hanswers hfresh hlayout hne
    exact does_canFrame hs ⟨hp, hbus, hrtr, hreq, hheard⟩ (inOrder_canFrame_read _ p f (by decide)) rfl
      (List.mem_singleton.2 hcode) (canServe_segmentReq ⟨hcode, hanswers, hfresh, hlayout, hne⟩)
  case write | writeInit =>
    intro s p f hs hturn hp hbus hrtr hreq hheard hcode hanswers hfresh hlayout hne
    exact does_canFrame hs ⟨hp, hbus, hrtr, hreq, hheard⟩ (inOrder_canFrame_write f (by decide) hturn) rfl
      (List.mem_singleton.2 hcode) (canServe_newRequest ⟨hcode, hanswers, hfresh, hlayout, hne⟩ (by decide))
  case segment =>
    intro s p f hs hturn hp hbus hrtr hreq hheard hcode hanswers hfresh hlayout hne
    exact does_canFrame hs ⟨hp, hbus, hrtr, hreq, hheard⟩ (inOrder_canFrame_write f (by decide) hturn) rfl
      (List.mem_singleton.2 hcode) (canServe_segment ⟨hcode, hanswers, hfresh, hlayout, hne⟩)
  case clientAbort =>
    intro s p f t hs hturn hp hbus hrtr hreq hheard hcode hanswers hfresh hlayout hne hopen htag
    exact does_canFrame hs ⟨hp, hbus, hrtr, hreq, hheard⟩ (inOrder_canFrame_write f (by decide) hturn) rfl
      (List.mem_singleton.2 hcode) (canServe_abort ⟨hcode, hanswers, hfresh, hlayout, hne⟩ hopen htag)
  case timeout => exact fun s p t => does_transferTimeout
  case served =>
    intro s p f hs hturn hp hbus hrtr hreq hheard
    exact does_canFrame hs ⟨hp, hbus, hrtr, hreq, hheard⟩ (inOrder_canFrame_write f (by decide) hturn)
      (exec_canFrameReceived_request hreq) (commandCode_mem_range _) rfl
  case replayed =>
    intro s p f rsp hs hp hbus hrtr hreq hheard hcode hanswers hsame hrsp
    exact does_canFrame hs ⟨hp, hbus, hrtr, hreq, hheard⟩ (inOrder_canFrame_read _ p f (by decide)) rfl
      (List.mem_singleton.2 hcode) (canServe_replayed hanswers hsame hrsp)

/-! ### Mailboxes (R201 to R205) -/

/-- R201: the mailbox becomes PENDING. -/
theorem requestMb_accepted {c : Chip} {p m : Nat} (h : c.mbRefusal p m false = 0) : c.requestMb p m =
    c.setPort p ((c.port p).setMb m { (c.port p).mb m with st := .pending, cancelLate := false, cancelOut := false }) := by
  simp [Chip.requestMb, h]

/-- R204: a mailbox that waits is CANCELLED. -/
theorem cancelMb_pending {c : Chip} {p m : Nat} (h : c.mbRefusal p m true = 0) (hst : ((c.port p).mb m).st = .pending) :
    c.cancelMb p m = c.setPort p ((c.port p).setMb m { (c.port p).mb m with st := .cancelled }) := by
  simp [Chip.cancelMb, h, hst]

/-- R205: one whose attempt is in progress is marked. -/
theorem cancelMb_active {c : Chip} {p m : Nat} (h : c.mbRefusal p m true = 0) (hst : ((c.port p).mb m).st = .active) :
    c.cancelMb p m = c.setPort p ((c.port p).setMb m { (c.port p).mb m with cancelOut := true }) := by
  simp [Chip.cancelMb, h, hst]

theorem does_mbRequest {s : State} {p m : Nat} {c : Chip} (hs : s.on = true) (hp : p < 2) (hm : m < 32)
    (hc : s.chip.requestMb p m = c) : Does (.mbRequest p m) s c :=
  does_of_canRun hs hp (f := fun c => if p < 2 ∧ m < 32 then c.requestMb p m else c) rfl ((if_pos ⟨hp, hm⟩).trans hc)

theorem does_mbCancel {s : State} {p m : Nat} {c : Chip} (hs : s.on = true) (hp : p < 2) (hm : m < 32)
    (hc : s.chip.cancelMb p m = c) : Does (.mbCancel p m) s c :=
  does_of_canRun hs hp (f := fun c => if p < 2 ∧ m < 32 then c.cancelMb p m else c) rfl ((if_pos ⟨hp, hm⟩).trans hc)

/-! ### Attempts (R201, R202, R205, R239, R240) -/

/-- R201: the port offers its winning mailbox. -/
theorem attemptStart_offers {c : Chip} {p m : Nat} (hbus : c.onBus p = true) (hidle : (c.port p).attempt = none)
    (hsuspended : c.suspended p = false) (hwinner : (c.port p).winner = some m) : c.attemptStart p =
      (c.setPort p { (c.port p).setMb m { (c.port p).mb m with st := .active, tried := true } with
        attempt := some m, suspendAt := none, txFrame := some (c.frameOf p ((c.port p).mb m)) }).busStateUpdate p := by
  simp [Chip.attemptStart, hbus, hidle, hsuspended, hwinner]

theorem attemptEnd_success {c : Chip} {p m dominant : Nat} {tdcv : Option Nat} (h : (c.port p).attempt = some m) :
    c.attemptEnd p .success tdcv dominant = ((c.measured p ((c.port p).mb m) tdcv).sent p m).transmitted p := by
  simp only [Chip.attemptEnd, h]

/-- R196: an attempt that reports no delay measures none. -/
theorem measured_none (c : Chip) (p : Nat) (b : Mailbox) : c.measured p b none = c := rfl

theorem attemptEnd_lost {c : Chip} {p m dominant : Nat} (h : (c.port p).attempt = some m) :
    c.attemptEnd p .lost none dominant = c.attemptFails p m := by
  simp only [Chip.attemptEnd, h, measured_none]

/-- ISO 11898-1: a stuff error of arbitration does not raise TEC. -/
theorem attemptEnd_arbitrationStuff {c : Chip} {p m : Nat} (h : (c.port p).attempt = some m) :
    c.attemptEnd p .arbitrationStuff none 0 = (((c.attemptFails p m).dinc (canKey p 22)).tecRises p 0).transmitted p := by
  simp only [Chip.attemptEnd, h, measured_none]

/-- R202: the mailbox of an attempt that failed waits again, where nothing cancels or replaces it. -/
theorem attemptFails_pending {c : Chip} {p m : Nat} (hcancel : ((c.port p).mb m).cancelOut = false)
    (hheld : c.abandoned p m = false) (hchannel : (c.port p).channelOf m = none) : c.attemptFails p m =
      c.setPort p (CanPort.setMb { c.port p with attempt := none } m { (c.port p).mb m with st := .pending }) := by
  have hmb : CanPort.mb { c.port p with attempt := none } m = (c.port p).mb m := rfl
  have hnone : CanPort.channelOf { c.port p with attempt := none } m = none := hchannel
  simp [Chip.attemptFails, hmb, hnone, hcancel, hheld]

theorem does_canAttemptEnd {s : State} {p : Nat} {r : AttemptReport} {c : Chip} (hs : s.on = true) (hp : p < 2)
    (hc : s.chip.attemptEnd p r.result r.tdcv r.dominant = c) : Does (.canAttemptEnd p r) s c :=
  does_of_canRun hs hp (f := fun c => c.attemptEnd p r.result r.tdcv r.dominant) rfl hc

/-! ### RX_POP, heartbeat, errors and bus-off (Table 5.5, R234, R239, R241 to R243) -/

theorem exec_rxPop (p value : Nat) (s : State) : exec (.rxPop p value) s = execRxPop p value s := rfl

/-- R127: the register's other bits are reserved. -/
theorem does_rxPop_reserved {s : State} {p value : Nat} (hs : s.on = true) (hp : p < 2) (hvalue : 1 < value) :
    Does (.rxPop p value) s (s.chip.reject 0 (0x610000 + p * 0x1000 + 0xE60) value 8) :=
  does_of_canRun hs hp (exec_rxPop p value s) (if_pos hvalue)

/-- R234: a heartbeat that is due. -/
theorem beat_sent {c : Chip} {p : Nat} (hserves : c.canServes p = true) (hperiod : c.dget (canKey p 16) ≠ 0) : c.beat p =
    (c.setPort p { c.port p with beats := ((c.port p).beats + 1) % 0x10000, beatAt := some c.now }).queueService p 4 0x760
      ([BitVec.ofNat 8 c.engine.code, BitVec.ofNat 8 c.epoch.st.code] ++ leBytes 2 (c.port p).beats) := by
  simp [Chip.beat, hserves, hperiod]

theorem does_heartbeat {s : State} {p : Nat} {c : Chip} (hs : s.on = true) (hp : p < 2) (hdue : s.chip.beatDue p = true)
    (hc : s.chip.beat p = c) : Does (.heartbeat p) s c :=
  does_of_canRun hs hp (f := fun c => if c.beatDue p then c.beat p else c) rfl ((if_pos hdue).trans hc)

/-- R242: the elapsed time holds 128 sequences, so recovery counts every one that it is told of. -/
theorem recessive_recovers {c : Chip} {p count : Nat} (hcount : 128 ≤ (c.port p).recovery + count)
    (htime : 128 * Nat.max 1 (c.elevenBits p) ≤ c.now - (c.port p).recoverAt) :
    128 ≤ ((c.recessive p count).port p).recovery := by
  have hmost : 128 ≤ (c.now - (c.port p).recoverAt) / Nat.max 1 (c.elevenBits p) :=
    (Nat.le_div_iff_mul_le (Nat.le_max_left ..)).2 htime
  simp only [Chip.recessive, Chip.port_setPort_same]
  exact le_max_of_le_right (le_min le_rfl (le_min hcount hmost))

/-- R243: recovery from bus-off ends with the 128th sequence. -/
theorem recoveryRuns_ends {c : Chip} {p count : Nat} (hoff : c.dget (canKey p 13) = 3)
    (hrecovers : (c.port p).recovering = true) (hdone : 128 ≤ ((c.recessive p count).port p).recovery) :
    c.recoveryRuns p count = (c.recessive p count).leaveBusOff p := by
  simp [Chip.recoveryRuns, hoff, hrecovers, hdone]

/-- R242: before it recovery goes on. -/
theorem recoveryRuns_goesOn {c : Chip} {p count : Nat} (hoff : c.dget (canKey p 13) = 3)
    (hrecovers : (c.port p).recovering = true) (hmore : ((c.recessive p count).port p).recovery < 128) :
    c.recoveryRuns p count = c.recessive p count := by
  simp [Chip.recoveryRuns, hoff, hrecovers, hmore]

theorem does_busOffRecoveryEnd {s : State} {p count : Nat} {c : Chip} (hs : s.on = true) (hp : p < 2)
    (hc : s.chip.recoveryRuns p count = c) : Does (.busOffRecoveryEnd ⟨p, count⟩) s c :=
  does_of_canRun hs hp (f := fun c => c.recoveryRuns p count) rfl hc

/-- Settles O46, a clause at a time: each command is one of a port's, and its effect in the clause's case is the lemma's. -/
theorem canBusCommandsComplete : Obligations.CanBusCommandsComplete := by
  refine ⟨?mbRequest, ?mbCancelPending, ?mbCancelActive, ?attemptStart, ?attemptSent, ?attemptLost, ?attemptStuff,
    ?frameToFifo, ?frameMarker, ?frameRemote, ?rxPop, ?rxPopBad, ?heartbeat, ?receiveError, ?busOff, ?busOffEnd,
    ?busOffGoesOn⟩
  case mbRequest => exact fun s p m hs hp hm h => does_mbRequest hs hp hm (requestMb_accepted h)
  case mbCancelPending => exact fun s p m hs hp hm h hst => does_mbCancel hs hp hm (cancelMb_pending h hst)
  case mbCancelActive => exact fun s p m hs hp hm h hst => does_mbCancel hs hp hm (cancelMb_active h hst)
  case attemptStart =>
    exact fun s p m hs hp hbus hidle hsuspended hwinner =>
      does_of_canRun hs hp (f := fun c => c.attemptStart p) rfl (attemptStart_offers hbus hidle hsuspended hwinner)
  case attemptSent => exact fun s p m dominant tdcv hs hp h => does_canAttemptEnd hs hp (attemptEnd_success h)
  case attemptLost =>
    exact fun s p m dominant hs hp h hcancel hheld hchannel =>
      does_canAttemptEnd hs hp ((attemptEnd_lost h).trans (attemptFails_pending hcancel hheld hchannel))
  case attemptStuff => exact fun s p m hs hp h => does_canAttemptEnd hs hp (attemptEnd_arbitrationStuff h)
  case frameToFifo =>
    exact fun s p f hs hp hbus hrtr hreq hheard hmarker =>
      does_canFrameReceived hs hp hreq (canReceive_toFifo hbus hrtr hheard hmarker)
  case frameMarker =>
    exact fun s p f hs hp hbus hrtr hreq hheard hmarker hsends =>
      does_canFrameReceived hs hp hreq (canReceive_marker hbus hrtr hheard hmarker hsends)
  case frameRemote => exact fun s p f hs hp hbus hreq hrtr => does_canFrameReceived hs hp hreq (canReceive_remote hbus hrtr)
  case rxPop => exact fun s p hs hp => does_of_run hs (exec_rxPop_one hp s) rfl
  case rxPopBad => exact fun s p value hs hp hvalue => does_rxPop_reserved hs hp hvalue
  case heartbeat =>
    exact fun s p hs hp hserves hperiod hdue => does_heartbeat hs hp hdue (beat_sent hserves hperiod)
  case receiveError => exact fun s p amount hs hp hbus => does_of_canRun hs hp rfl (if_pos hbus)
  case busOff =>
    intro s p hs hp hbus htec
    refine does_of_canRun hs hp rfl (if_pos ?_)
    simp [hbus, htec]
  case busOffEnd =>
    exact fun s p count hs hp hoff hrecovers hcount htime =>
      does_busOffRecoveryEnd hs hp (recoveryRuns_ends hoff hrecovers (recessive_recovers hcount htime))
  case busOffGoesOn =>
    exact fun s p count hs hp hoff hrecovers hmore =>
      does_busOffRecoveryEnd hs hp (recoveryRuns_goesOn hoff hrecovers hmore)

end Sys2Proof.Machine
end

section
/-! SUPPORT. The voices' rings: doorbells, ring enables and drains, the dictionary window, interrupts and completion writes
(R263 to R276, R306). -/

namespace Sys2Proof.Machine

/-! ### Doorbells (R127, R269, R270) -/

theorem tailTooFar_iff (x : Voice) (tail : Nat) : x.tailTooFar tail = true ↔
    2 ^ x.cmdLog2 < (tail + 0x10000 - x.cmdHead % 0x10000) % 0x10000 := decide_eq_true_iff

theorem headTooFar_iff (x : Voice) (head : Nat) : x.headTooFar head = true ↔
    2 ^ x.cplLog2 < (x.cplTail + 0x10000 - head) % 0x10000 := decide_eq_true_iff

theorem tailTooFar_false (x : Voice) (tail : Nat) : x.tailTooFar tail = false ↔
    (tail + 0x10000 - x.cmdHead % 0x10000) % 0x10000 ≤ 2 ^ x.cmdLog2 := by
  rw [← Bool.not_eq_true, tailTooFar_iff, not_lt]

theorem headTooFar_false (x : Voice) (head : Nat) : x.headTooFar head = false ↔
    (x.cplTail + 0x10000 - head) % 0x10000 ≤ 2 ^ x.cplLog2 := by
  rw [← Bool.not_eq_true, headTooFar_iff, not_lt]

/-- R269 measures the distance from CMD_HEAD to TAIL round the circle of 2^16. -/
theorem tailDistance_eq (tail head : Nat) :
    (((tail + 0x10000 - head % 0x10000) % 0x10000 : Nat) : Int) = ((tail : Int) - head) % 0x10000 := by
  omega

@[simp] theorem voice_callWake (c : Chip) (v : Nat) : c.callWake.voice v = c.voice v := rfl

@[simp] theorem voice_hostWrites (c : Chip) (written : List (Nat × List Byte)) (v : Nat) :
    (c.hostWrites written).voice v = c.voice v := rfl

@[simp] theorem ownsBlock_hostWrites (c : Chip) (written : List (Nat × List Byte)) (v : Nat) :
    (c.hostWrites written).ownsBlock v = c.ownsBlock v := rfl

/-- A TAIL that the ring can hold is stored. -/
theorem cmdDoorbell_stored {c : Chip} {v tail : Nat} (ho : c.ownsBlock v = true) (ht : tail ≤ 0xFFFF)
    (hnear : (c.voice v).tailTooFar tail = false) :
    c.cmdDoorbell v tail = c.callWake.setVoice v { c.voice v with cmdTail := tail } := by
  have hmod : tail % 0x10000 = tail := Nat.mod_eq_of_lt (Nat.lt_succ_of_le ht)
  simp [Chip.cmdDoorbell, ho, ht.not_gt, hmod, hnear]

/-- A TAIL beyond the ring is rejected as VALUE. -/
theorem cmdDoorbell_far {c : Chip} {v tail : Nat} (ho : c.ownsBlock v = true) (ht : tail ≤ 0xFFFF)
    (hfar : (c.voice v).tailTooFar tail = true) : c.cmdDoorbell v tail = c.callWake.rejectOwn v 0x40 tail 16 := by
  have hmod : tail % 0x10000 = tail := Nat.mod_eq_of_lt (Nat.lt_succ_of_le ht)
  simp [Chip.cmdDoorbell, ho, ht.not_gt, hmod, hfar]

/-- Reserved bits are rejected, with VALUE beside where the TAIL below them is too far. -/
theorem cmdDoorbell_reserved {c : Chip} {v w : Nat} (ho : c.ownsBlock v = true) (hw : 0xFFFF < w) : c.cmdDoorbell v w =
    c.callWake.rejectOwn v 0x40 w (8 + if (c.voice v).tailTooFar (w % 0x10000) then 16 else 0) := by
  have hreserved : ∀ n, 8 + n ≠ 0 := fun n => by omega
  simp only [Chip.cmdDoorbell, ho, hw, Bool.not_true, Bool.false_eq_true, if_true, if_false]
  exact if_pos (hreserved _)

/-- A HEAD within the ring is stored. -/
theorem cplDoorbell_stored {c : Chip} {v head : Nat} (ho : c.ownsBlock v = true) (hh : head ≤ 0xFFFF)
    (hnear : (c.voice v).headTooFar head = false) :
    c.cplDoorbell v head = c.setVoice v { c.voice v with cplHead := head } := by
  have hmod : head % 0x10000 = head := Nat.mod_eq_of_lt (Nat.lt_succ_of_le hh)
  simp [Chip.cplDoorbell, ho, hh.not_gt, hmod, hnear]

/-- Any other HEAD is rejected as VALUE. -/
theorem cplDoorbell_far {c : Chip} {v head : Nat} (ho : c.ownsBlock v = true) (hh : head ≤ 0xFFFF)
    (hfar : (c.voice v).headTooFar head = true) : c.cplDoorbell v head = c.rejectOwn v 0x44 head 16 := by
  have hmod : head % 0x10000 = head := Nat.mod_eq_of_lt (Nat.lt_succ_of_le hh)
  simp [Chip.cplDoorbell, ho, hh.not_gt, hmod, hfar]

theorem cplDoorbell_reserved {c : Chip} {v w : Nat} (ho : c.ownsBlock v = true) (hw : 0xFFFF < w) : c.cplDoorbell v w =
    c.rejectOwn v 0x44 w (8 + if (c.voice v).headTooFar (w % 0x10000) then 16 else 0) := by
  simp [Chip.cplDoorbell, ho, hw]

/-- CMD_DOORBELL completes with what the doorbell does to the chip that the host's writes have left. -/
theorem does_cmdDoorbell {s : State} {v tail : Nat} {written : List (Nat × List Byte)} {c : Chip} (hs : s.on = true)
    (hc : (s.chip.hostWrites written).cmdDoorbell v tail = c) : Does (.cmdDoorbell v tail written) s c :=
  does_of_run hs (f := fun c => (c.hostWrites written).cmdDoorbell v tail) rfl hc

theorem does_cplDoorbell {s : State} {v head : Nat} {c : Chip} (hs : s.on = true) (hc : s.chip.cplDoorbell v head = c) :
    Does (.cplDoorbell v head) s c :=
  does_of_run hs (f := fun c => c.cplDoorbell v head) rfl hc

/-- R262: a register of a voice's block rejects with VALUE, which leaves the voice's TAIL. -/
theorem rejectOwn_value (c : Chip) {v off : Nat} (data : Nat) (hoff : off < 0x10000) :
    ((c.rejectOwn v off data 16).voice v).cmdTail = (c.voice v).cmdTail ∧
      bit ((c.rejectOwn v off data 16).voice v).err.bits 4 = true := by
  rw [rejectOwn_voice c v off data hoff]
  exact voiceReject_voice ..

/-- Settles O23: the doorbell stores or rejects by the distance (`tailDistance_eq`), and a rejection leaves TAIL
(`rejectOwn_value`). -/
theorem doorbellBeyondTheRingIsRejected : Obligations.DoorbellBeyondTheRingIsRejected := by
  intro s v tail written hs ho ht
  rw [← tailDistance_eq, Nat.cast_le, Nat.cast_lt]
  constructor
  · intro hnear
    exact ⟨_, does_cmdDoorbell hs (cmdDoorbell_stored ho ht ((tailTooFar_false ..).2 hnear)), Chip.voice_setVoice_same ..⟩
  · intro hfar
    exact ⟨_, does_cmdDoorbell hs (cmdDoorbell_far ho ht ((tailTooFar_iff ..).2 hfar)),
      rejectOwn_value (s.chip.hostWrites written).callWake tail (by decide)⟩

/-! ### RING_ENABLE and drains (R266, R267, R306) -/

theorem does_ringEnable {s : State} {v : Nat} {c : Chip} (hs : s.on = true) (ho : s.chip.ownsBlock v = true)
    (hmay : (s.chip.voice v).mayEnable = true) (hc : s.chip.ringStart v = c) : Does (.ringEnable v) s c :=
  does_of_run hs (f := fun c => c.writeRing v 1) rfl (by simp [Chip.writeRing, ho, hmay, hc])

@[simp] theorem keep_setVoice (c : Chip) (v w : Nat) (x : Voice) : (c.setVoice v x).keep w = c.keep w := rfl

/-- R266: the rings start empty. -/
theorem ringStart_plain {c : Chip} {v : Nat} (h : (c.keep v).notice = false) : c.ringStart v =
    c.setVoice v { c.voice v with state := .active, ringEnable := true, cmdHead := 0, cmdTail := 0, cplTail := 0, cplHead := 0,
                                  phase := true } := by
  simp [Chip.ringStart, h]

/-- R306: a NOTICE of a reset that is held comes first. -/
theorem ringStart_notice {c : Chip} {v : Nat} (h : (c.keep v).notice = true) : c.ringStart v =
    (let c1 := c.setVoice v { c.voice v with state := .active, ringEnable := true, cmdHead := 0, cmdTail := 0, cplTail := 0,
                                             cplHead := 0, phase := true }
     (c1.setKeep v { c1.keep v with notice := false }).notice v 1) :=
  if_pos h

/-- R267: an ACTIVE voice drains. -/
theorem writeRing_stop {c : Chip} {v : Nat} (ho : c.ownsBlock v = true) (hactive : (c.voice v).state = .active) :
    c.writeRing v 0 = c.setVoice v { c.voice v with ringEnable := false, state := .draining } := by
  simp [Chip.writeRing, Chip.ringStop, ho, hactive]

theorem does_voiceDrainEnd {s : State} {v : Nat} {c : Chip} (hs : s.on = true) (hv : v < 16) (hc : s.chip.drainEnd v = c) :
    Does (.voiceDrainEnd v) s c :=
  does_of_run hs (f := fun c => if v < 16 then c.drainEnd v else c) rfl ((if_pos hv).trans hc)

/-- R267: the drain of RING_ENABLE ends when every command has completed. -/
theorem drainEnd_empty {c : Chip} {v : Nat} (hst : (c.voice v).state = .draining) (hreset : (c.voice v).resetDrain = false)
    (hempty : c.ringEmpty v = true) : c.drainEnd v = c.setVoice v { c.voice v with state := .idle } := by
  simp [Chip.drainEnd, hst, hreset, hempty]

theorem drainEnd_busy {c : Chip} {v : Nat} (hreset : (c.voice v).resetDrain = false) (hbusy : c.ringEmpty v = false) :
    c.drainEnd v = c := by
  simp [Chip.drainEnd, hreset, hbusy]

/-- R306, R309: the drain of a reset releases the voice's entries, counts, and holds a NOTICE for the next RING_ENABLE. -/
theorem drainEnd_reset {c : Chip} {v : Nat} (hst : (c.voice v).state = .draining) (hreset : (c.voice v).resetDrain = true)
    (hhold : c.engine ≠ .hold) (husb : v ≠ 15 ∨ c.usb.ringOn = false) (htunnel : (c.tunnel v).opened = false) :
    c.drainEnd v =
      (let c1 : Chip := { c with ledger := c.ledger.filter (fun e => !(e.voice == v && e.source != LedgerSource.reserve)) }
       let c2 := c1.setVoice v { c.voice v with state := .idle, resetDrain := false }
       (c2.setKeep v { c2.keep v with notice := true }).dinc (ent (vIdx v 3) 7)) := by
  have hclosed : ¬((v = 15 ∧ c.usb.ringOn = true) ∨ (c.tunnel v).opened = true) := by
    rw [htunnel]
    rintro (⟨hv, hring⟩ | hopen)
    · exact husb.elim (· hv) (fun hoff => by simp [hoff] at hring)
    · exact Bool.false_ne_true hopen
  simp only [Chip.drainEnd, hst, hreset, hhold, ne_eq, not_true_eq_false, if_false, if_true]
  exact if_neg hclosed

/-! ### The dictionary window (R263, R264) -/

/-- What DICT_GO leaves of a READ or DESCRIBE that the server has answered with `r`. -/
def Chip.windowAnswer (c : Chip) (v op idx sub : Nat) (r : Nat × List Byte) : Chip :=
  let c1 := c.callWake.noteReply v op idx sub r.1 r.2
  c1.setVoice v (if r.1 ≠ 0 then { c1.voice v with dictAbort := r.1 }
    else { c1.voice v with dictAbort := 0, dictLength := r.2.length, dictBuf := (c1.voice v).dictBuf.writeBytes 0 r.2 })

theorem windowAnswer_good {c : Chip} {v op idx sub : Nat} {r : Nat × List Byte} (h : r.1 = 0) :
    c.windowAnswer v op idx sub r =
      (let c1 := c.callWake.noteReply v op idx sub 0 r.2
       c1.setVoice v { c1.voice v with dictAbort := 0, dictLength := r.2.length
                                       dictBuf := (c1.voice v).dictBuf.writeBytes 0 r.2 }) := by
  simp [Chip.windowAnswer, h]

theorem windowAnswer_abort {c : Chip} {v op idx sub : Nat} {r : Nat × List Byte} (h : r.1 ≠ 0) :
    c.windowAnswer v op idx sub r =
      (let c1 := c.callWake.noteReply v op idx sub r.1 r.2
       c1.setVoice v { c1.voice v with dictAbort := r.1 }) := by
  simp [Chip.windowAnswer, h]

/-- The window of voice `v` is free, the server answers, and DICT_ADDR names `idx` and `sub`. -/
structure Chip.WindowFree (c : Chip) (v idx sub : Nat) : Prop where
  owns : c.ownsBlock v = true
  free : (c.voice v).dictBusy = false
  answers : c.silent = false
  index : idx = (c.voice v).dictAddr / 0x10000
  subindex : sub = (c.voice v).dictAddr / 0x100 % 0x100

theorem dictGo_read {c : Chip} {v idx sub : Nat} (h : c.WindowFree v idx sub) :
    c.dictGo v 1 = c.windowAnswer v 1 idx sub (c.dictRead v idx sub) := by
  obtain ⟨howns, hfree, hanswers, rfl, rfl⟩ := h
  simp only [Chip.dictGo, howns, hfree, hanswers]
  rfl

theorem dictGo_describe {c : Chip} {v idx sub : Nat} (h : c.WindowFree v idx sub) :
    c.dictGo v 4 = c.windowAnswer v 4 idx sub (c.dictDescribe v idx sub) := by
  obtain ⟨howns, hfree, hanswers, rfl, rfl⟩ := h
  simp only [Chip.dictGo, howns, hfree, hanswers]
  rfl

/-- A WRITE goes to the server with the bytes of DICT_BUF, and the window is busy until it ends. -/
theorem dictGo_write {c : Chip} {v : Nat} (ho : c.ownsBlock v = true) (hfree : (c.voice v).dictBusy = false)
    (hq : c.silent = false) : c.dictGo v 2 = (let x := c.voice v
      (c.setVoice v { x with dictBusy := true }).submit
        { voice := v, via := ⟨1, 0⟩, idx := x.dictAddr / 0x10000, sub := x.dictAddr / 0x100 % 0x100
          data := x.dictBuf.readBytes 0 x.dictLen }) := by
  simp [Chip.dictGo, ho, hfree, hq]

theorem dictGo_busy {c : Chip} {v op : Nat} (ho : c.ownsBlock v = true) (hbusy : (c.voice v).dictBusy = true) :
    c.dictGo v op = c.rejectOwn v 0x208 op 16 := by
  simp [Chip.dictGo, ho, hbusy]

theorem does_dictGoRead {s : State} {v : Nat} {c : Chip} (hs : s.on = true) (hc : s.chip.dictGo v 1 = c) :
    Does (.dictGoRead v) s c := does_of_runRound (o := .window v 1) hs (inOrder_read _ _ rfl) rfl hc

theorem does_dictGoDescribe {s : State} {v : Nat} {c : Chip} (hs : s.on = true) (hc : s.chip.dictGo v 4 = c) :
    Does (.dictGoDescribe v) s c := does_of_runRound (o := .window v 4) hs (inOrder_read _ _ rfl) rfl hc

/-- R160: an operation with the place of a voice's write over a transport is in order when such a write is. -/
theorem inOrder_of_turn {s : State} {o : RoundOp} {v : Nat} {via : Via} (hturn : s.turn v via = true)
    (hplace : o.place = commitPlace v via.transport) : s.round.inOrder o = true :=
  (inOrder_congr s.round hplace).trans hturn

theorem does_dictGoWrite {s : State} {v : Nat} {c : Chip} (hs : s.on = true) (hturn : s.turn v ⟨1, 0⟩ = true)
    (hc : s.chip.dictGo v 2 = c) : Does (.dictGoWrite v) s c :=
  does_of_runRound (o := .window v 2) hs (inOrder_of_turn hturn rfl) rfl hc

/-! ### Interrupts (R265) -/

theorem ackSources_within {c : Chip} {v value : Nat} (ho : c.ownsBlock v = true) (hvalue : value ≤ 0xFF) :
    c.ackSources v value =
      c.setVoice v { c.voice v with intPending := (c.voice v).intPending - ((c.voice v).intPending &&& value) } := by
  simp [Chip.ackSources, ho, hvalue.not_gt]

/-- A vector that waits is sent. -/
theorem vectorDue_waits {c : Chip} {v vec : Nat} (hwaits : vec ∈ (c.voice v).waitMsg)
    (hon : bit (c.voice v).intCtrl 16 = true) : c.vectorDue v vec = c.sendVector v vec := by
  simp [Chip.vectorDue, hwaits, hon]

/-! ### Completions (R275, R276) -/

theorem does_completionWrite {s : State} {v : Nat} {c : Chip} (hs : s.on = true) (hv : v < 16)
    (hc : s.chip.writeCompletion v = c) : Does (.completionWrite v) s c :=
  does_of_run hs (f := fun c => if v < 16 then c.writeCompletion v else c) rfl ((if_pos hv).trans hc)

theorem does_waitingCompletionWrite {s : State} {v : Nat} {c : Chip} (hs : s.on = true) (hv : v < 16)
    (hc : s.chip.writeWaiting v = c) : Does (.waitingCompletionWrite v) s c :=
  does_of_run hs (f := fun c => if v < 16 then c.writeWaiting v else c) rfl ((if_pos hv).trans hc)

/-- R275: a completion takes the next slot. -/
theorem writeCompletion_slot {c : Chip} {v : Nat} {k : Completion} {rest : List Completion}
    (hcpl : (c.voice v).cpl = k :: rest) (hst : (c.voice v).state ≠ .idle) (hring : c.engineRing v = false)
    (hfull : (c.voice v).cplFull = false) (hwaiting : (c.voice v).waiting = []) :
    c.writeCompletion v = (c.setVoice v { c.voice v with cpl := rest }).writeSlot v k := by
  cases hkind : k.kind <;> simp [Chip.writeCompletion, hcpl, hst, hring, hkind, hfull, hwaiting]

/-- R276: a COMMAND completion waits for a slot, behind those that wait already. -/
theorem writeCompletion_waits {c : Chip} {v : Nat} {k : Completion} {rest : List Completion}
    (hcpl : (c.voice v).cpl = k :: rest) (hst : (c.voice v).state ≠ .idle) (hring : c.engineRing v = false)
    (hkind : k.kind = .command) (hwaits : (c.voice v).cplFull = true ∨ (c.voice v).waiting ≠ []) :
    c.writeCompletion v = (c.setVoice v { c.voice v with cpl := rest }).setVoice v
      { c.voice v with cpl := rest, waiting := (c.voice v).waiting ++ [k] } := by
  have hheld : ((c.voice v).cplFull || !(c.voice v).waiting.isEmpty) = true := by simpa using hwaits
  simp only [Chip.writeCompletion, hcpl, hst, hring, hkind, hheld]
  rfl

/-- R299, R685: a ring that the engine keeps has no slots. -/
theorem writeCompletion_engine {c : Chip} {v : Nat} {k : Completion} {rest : List Completion}
    (hcpl : (c.voice v).cpl = k :: rest) (hst : (c.voice v).state ≠ .idle) (hring : c.engineRing v = true) :
    c.writeCompletion v = (c.setVoice v { c.voice v with cpl := rest }).sendCompletion v k := by
  simp [Chip.writeCompletion, hcpl, hst, hring]

/-- R276: a full ring drops any other completion. -/
theorem writeCompletion_dropped {c : Chip} {v : Nat} {k : Completion} {rest : List Completion}
    (hcpl : (c.voice v).cpl = k :: rest) (hst : (c.voice v).state ≠ .idle) (hring : c.engineRing v = false)
    (hkind : k.kind ≠ .command) (hfull : (c.voice v).cplFull = true) :
    c.writeCompletion v =
      ((c.setVoice v { c.voice v with cpl := rest }).dinc (ent (vIdx v 3) 5)).raise v 7 := by
  cases h : k.kind
  case command => exact absurd h hkind
  all_goals simp [Chip.writeCompletion, hcpl, hst, hring, h, hfull]

/-- R276: a slot is free for the completion that has waited longest. -/
theorem writeWaiting_slot {c : Chip} {v : Nat} {k : Completion} {rest : List Completion}
    (hwaiting : (c.voice v).waiting = k :: rest) (hfull : (c.voice v).cplFull = false) :
    c.writeWaiting v = (c.setVoice v { c.voice v with waiting := rest }).writeSlot v k := by
  simp [Chip.writeWaiting, hwaiting, hfull]

theorem writeWaiting_full {c : Chip} {v : Nat} (hfull : (c.voice v).cplFull = true) : c.writeWaiting v = c := by
  simp [Chip.writeWaiting, hfull]

/-- Settles O47, a clause at a time: each command is a `run` or an operation of its update, and its effect in the clause's
case is the lemma's. -/
theorem ringsAndCompletionsComplete : Obligations.RingsAndCompletionsComplete := by
  refine ⟨?cmdDoorbell, ?cmdDoorbellFar, ?cplDoorbell, ?cplDoorbellFar, ?doorbellReserved, ?ringEnable, ?ringEnableNotice,
    ?ringDisable, ?drainEnd, ?drainEndBusy, ?drainEndReset, ?goRead, ?goBadRead, ?goDescribe, ?goBadDescribe, ?goWrite,
    ?goBusyRead, ?goBusyWrite, ?goBusyDescribe, ?intClear, ?cplWrite, ?cplWaits, ?cplEngine, ?cplDropped, ?waitWrite,
    ?waitFull, ?holdoff⟩
  case cmdDoorbell =>
    exact fun s v tail written hs ho ht hnear =>
      does_cmdDoorbell hs (cmdDoorbell_stored ho ht ((tailTooFar_false ..).2 hnear))
  case cmdDoorbellFar =>
    exact fun s v tail written hs ho ht hfar => does_cmdDoorbell hs (cmdDoorbell_far ho ht ((tailTooFar_iff ..).2 hfar))
  case cplDoorbell =>
    exact fun s v head hs ho hh hnear => does_cplDoorbell hs (cplDoorbell_stored ho hh ((headTooFar_false ..).2 hnear))
  case cplDoorbellFar =>
    exact fun s v head hs ho hh hfar => does_cplDoorbell hs (cplDoorbell_far ho hh ((headTooFar_iff ..).2 hfar))
  case doorbellReserved =>
    exact fun s v w hs ho hw =>
      ⟨does_cmdDoorbell hs (cmdDoorbell_reserved ho hw), does_cplDoorbell hs (cplDoorbell_reserved ho hw)⟩
  case ringEnable => exact fun s v hs ho hmay hnotice => does_ringEnable hs ho hmay (ringStart_plain hnotice)
  case ringEnableNotice => exact fun s v hs ho hmay hnotice => does_ringEnable hs ho hmay (ringStart_notice hnotice)
  case ringDisable =>
    exact fun s v hs ho hactive => does_of_run hs (f := fun c => c.writeRing v 0) rfl (writeRing_stop ho hactive)
  case drainEnd => exact fun s v hs hv hst hreset hempty => does_voiceDrainEnd hs hv (drainEnd_empty hst hreset hempty)
  case drainEndBusy => exact fun s v hs hv hreset hbusy => does_voiceDrainEnd hs hv (drainEnd_busy hreset hbusy)
  case drainEndReset =>
    exact fun s v hs hv hst hreset hhold husb htunnel =>
      does_voiceDrainEnd hs hv (drainEnd_reset hst hreset hhold husb htunnel)
  case goRead =>
    exact fun s v idx sub hs ho hfree hq hidx hsub hgood =>
      does_dictGoRead hs ((dictGo_read ⟨ho, hfree, hq, hidx, hsub⟩).trans (windowAnswer_good hgood))
  case goBadRead =>
    exact fun s v idx sub hs ho hfree hq hidx hsub hbad =>
      does_dictGoRead hs ((dictGo_read ⟨ho, hfree, hq, hidx, hsub⟩).trans (windowAnswer_abort hbad))
  case goDescribe =>
    exact fun s v idx sub hs ho hfree hq hidx hsub hgood =>
      does_dictGoDescribe hs ((dictGo_describe ⟨ho, hfree, hq, hidx, hsub⟩).trans (windowAnswer_good hgood))
  case goBadDescribe =>
    exact fun s v idx sub hs ho hfree hq hidx hsub hbad =>
      does_dictGoDescribe hs ((dictGo_describe ⟨ho, hfree, hq, hidx, hsub⟩).trans (windowAnswer_abort hbad))
  case goWrite => exact fun s v hs hturn ho hfree hq => does_dictGoWrite hs hturn (dictGo_write ho hfree hq)
  case goBusyRead => exact fun s v hs ho hbusy => does_dictGoRead hs (dictGo_busy ho hbusy)
  case goBusyWrite => exact fun s v hs hturn ho hbusy => does_dictGoWrite hs hturn (dictGo_busy ho hbusy)
  case goBusyDescribe => exact fun s v hs ho hbusy => does_dictGoDescribe hs (dictGo_busy ho hbusy)
  case intClear =>
    exact fun s v value hs ho hvalue =>
      does_of_run hs (f := fun c => c.ackSources v value) rfl (ackSources_within ho hvalue)
  case cplWrite =>
    exact fun s v k rest hs hv hcpl hst hring hfull hwaiting =>
      does_completionWrite hs hv (writeCompletion_slot hcpl hst hring hfull hwaiting)
  case cplWaits =>
    exact fun s v k rest hs hv hcpl hst hring hkind hwaits =>
      does_completionWrite hs hv (writeCompletion_waits hcpl hst hring hkind hwaits)
  case cplEngine =>
    exact fun s v k rest hs hv hcpl hst hring => does_completionWrite hs hv (writeCompletion_engine hcpl hst hring)
  case cplDropped =>
    exact fun s v k rest hs hv hcpl hst hring hkind hfull =>
      does_completionWrite hs hv (writeCompletion_dropped hcpl hst hring hkind hfull)
  case waitWrite =>
    exact fun s v k rest hs hv hwaiting hfull => does_waitingCompletionWrite hs hv (writeWaiting_slot hwaiting hfull)
  case waitFull => exact fun s v hs hv hfull => does_waitingCompletionWrite hs hv (writeWaiting_full hfull)
  case holdoff =>
    exact fun s v vector hs hv hwaits hon =>
      does_of_run hs (f := fun c => if v < 16 then c.vectorDue v vector else c) rfl
        ((if_pos hv).trans (vectorDue_waits hwaits hon))

end Sys2Proof.Machine
end

section
/-! SUPPORT. Admission and the commands of a voice: FENCE, LULL, moves and pins, cues and DICT_OP (R271 to R286, R605, R613,
R681). -/

namespace Sys2Proof.Machine

/-! ### Admitted commands (R271) -/

theorem admittedAs_some {c : Chip} {v opcode : Nat} {a : Admitted} (h : (c.voice v).admitted = some a)
    (hop : a.opcode = opcode) : c.admittedAs v opcode = some a := by
  simp [Chip.admittedAs, h, hop]

/-- The engine admits commands: the command of a voice completes with its effect. -/
theorem does_of_command {i : Instr} {s : State} {v : Nat} {f : Chip → Chip} {c : Chip} (hs : s.on = true) (hv : v < 16)
    (ha : s.chip.admits = true) (he : exec i s = run (fun c => if v < 16 ∧ c.admits then f c else c) s)
    (hc : f s.chip = c) : Does i s c :=
  does_of_run hs he ((if_pos ⟨hv, ha⟩).trans hc)

/-- So does one that is a dictionary operation, in its place. -/
theorem does_of_dictCommand {i : Instr} {s : State} {o : RoundOp} {v : Nat} {f : Chip → Chip} {c : Chip} (hs : s.on = true)
    (hplace : s.round.inOrder o = true) (hv : v < 16) (ha : s.chip.admits = true) (he : exec i s = runRound o s)
    (ho : ∀ c, o.effect c = if v < 16 ∧ c.admits then f c else c) (hc : f s.chip = c) : Does i s c :=
  does_of_runRound hs hplace he ((ho _).trans ((if_pos ⟨hv, ha⟩).trans hc))

/-- R306: a voice that no reset drains takes the completion. -/
theorem post_voice {c : Chip} {v : Nat} (k : Completion) (h : (c.voice v).resetDrain = false) :
    (c.post v k).voice v = { c.voice v with cpl := (c.voice v).cpl ++ [k] } := by
  simp [Chip.post, h]

theorem takeUp_voice (c : Chip) (v : Nat) : (c.takeUp v).voice v = { c.voice v with admitted := none } :=
  Chip.voice_setVoice_same ..

/-- A command that completes leaves its voice no admitted command, and its completion the latest of the voice's. -/
theorem finish_voice {c : Chip} {v : Nat} (a : Admitted) (status info data : Nat) (h : (c.voice v).resetDrain = false) :
    (c.finish v a status info data).voice v = { c.voice v with
      admitted := none
      cpl := (c.voice v).cpl ++ [{ kind := .command, tag := a.tag, opcode := a.opcode, status, cookie := a.cookie, info, data
                                   irq := a.irq, holds := takesEntry a.opcode }] } := by
  have hdrain : ((c.takeUp v).voice v).resetDrain = false := by rw [takeUp_voice]; exact h
  simp only [Chip.finish, Chip.complete, post_voice _ hdrain, takeUp_voice]

/-! ### Admission (R271 to R274) -/

theorem admitNext_ready {c : Chip} {v : Nat} {b : List Byte} (ha : c.admits = true)
    (hfirst : ((List.range 16).map (fun k => (c.countWaits.arbiter + k) % 16)).find?
      (fun v => (c.countWaits.readyHead v).isSome) = some v)
    (hb : c.countWaits.readyHead v = some b) : c.admitNext = c.countWaits.admitCommand v b := by
  simp only [Chip.admitNext, ha, hfirst, hb]
  rfl

/-! ### FENCE (R285, R623) -/

theorem cmdFence_admitted {c : Chip} {v : Nat} {a : Admitted} (h : c.admittedAs v 9 = some a) : c.cmdFence v =
    (c.takeUp v).setVoice v { (c.takeUp v).voice v with
      fence := some { kind := .command, tag := a.tag, opcode := 9, cookie := a.cookie, irq := a.irq } } := by
  simp [Chip.cmdFence, h]

theorem does_fenceComplete {s : State} {v : Nat} {c : Chip} (hs : s.on = true) (hv : v < 16) (hc : s.chip.fenceEnds v = c) :
    Does (.fenceComplete v) s c :=
  does_of_run hs (f := fun c => if v < 16 then c.fenceEnds v else c) rfl ((if_pos hv).trans hc)

/-- R623: every earlier command of the voice has completed and released its entry. -/
theorem fenceEnds_done {c : Chip} {v : Nat} {k : Completion} (hfence : (c.voice v).fence = some k)
    (hledger : c.ledger.all (fun e => !(e.voice == v && e.source == LedgerSource.ring)) = true)
    (hcpl : (c.voice v).cpl.all (fun k => k.kind != .command) = true) (hwaiting : (c.voice v).waiting = [])
    (hwrites : c.commandWaits v = false) :
    c.fenceEnds v = (c.setVoice v { c.voice v with fence := none }).post v k := by
  have hnoEntry : c.ledger.any (fun e => e.voice == v && e.source == LedgerSource.ring) = false := by
    simpa only [List.any_eq_false, List.all_eq_true, Bool.not_eq_true', Bool.not_eq_true] using hledger
  have hnoCommand : (c.voice v).cpl.any (fun k => k.kind == .command) = false := by
    rw [List.any_eq_false]; simpa using hcpl
  simp [Chip.fenceEnds, hfence, hnoEntry, hnoCommand, hwaiting, hwrites]

/-- One that has not holds the fence. -/
theorem fenceEnds_held {c : Chip} {v : Nat}
    (h : c.ledger.any (fun e => e.voice == v && e.source == LedgerSource.ring) = true ∨ (c.voice v).waiting ≠ [] ∨
      c.commandWaits v = true) : c.fenceEnds v = c := by
  cases hfence : (c.voice v).fence with
  | none => simp [Chip.fenceEnds, hfence]
  | some k =>
    simp only [Chip.fenceEnds, hfence]
    refine if_pos ?_
    obtain h | h | h := h <;> simp [h]

/-! ### LULL (R286, R681) -/

/-- R286: outside mesh mode a LULL completes at once. -/
theorem cmdLull_outsideMesh {c : Chip} {v : Nat} {a : Admitted} (h : c.admittedAs v 10 = some a)
    (hmode : c.straps.mode ≠ .mesh) : c.cmdLull v = c.finish v a 0x0A040001 0 0 := by
  simp [Chip.cmdLull, h, hmode]

/-- The chip once the arrival of a LULL has left (R681, R682): the leader takes its own at once, and a
lost one ends the wait. -/
def Chip.lullSent (c : Chip) (leader ident : Nat) : Fate → Chip
  | .mine => c.arrival (c.address.getD 0) ident
  | .failed => c.packetLost 2 leader 0
  | .gone => c

/-- R681: in mesh mode the arrival goes to LEADER, and the command waits. -/
theorem cmdLull_mesh {c c1 c3 : Chip} {v : Nat} {a : Admitted} {fate : Fate} (h : c.admittedAs v 10 = some a)
    (hmode : c.straps.mode = .mesh) (hleader : c.dget (ent 0x4830 1) ≠ 0xFFFF)
    (hc1 : c1 = (c.takeUp v).dinc (ent 0x4830 4))
    (hroute : Chip.route
      { c1 with mesh := { c1.mesh with waits := c1.mesh.waits ++
          [⟨v, { kind := .command, tag := a.tag, opcode := 10, cookie := a.cookie, irq := a.irq, holds := true },
            a.arg 8 4, c.dget (ent 0x4830 1)⟩] } }
      { dest := c.dget (ent 0x4830 1), src := c.address.getD 0, slice := if v = 0 ∧ c.onTunnel 0 then 0xFF else c.slice
        class_ := 0, ptype := 2, hops := 0, exit := 0xFF, entry := 0xFF, tag := 0, arg := a.arg 8 4, payload := []
        input := 6 } = (c3, fate)) :
    c.cmdLull v = c3.lullSent (c.dget (ent 0x4830 1)) (a.arg 8 4) fate := by
  subst hc1
  simp only [Chip.cmdLull, h, hmode, hleader, hroute]
  cases fate <;> rfl

theorem does_lull {s : State} {v : Nat} {c : Chip} (hs : s.on = true) (hv : v < 16) (ha : s.chip.admits = true)
    (hc : s.chip.cmdLull v = c) : Does (.lull v) s c :=
  does_of_command hs hv ha (f := fun c => c.cmdLull v) rfl hc

/-- Settles O24: the command finishes with the code (`cmdLull_outsideMesh`), and its voice takes the completion
(`finish_voice`). -/
theorem lullOutsideMeshModeFails : Obligations.LullOutsideMeshModeFails := by
  intro s v a hs hv hadmits ha hmode hdrain
  have hvoice := finish_voice a 0x0A040001 0 0 hdrain
  exact ⟨_, does_lull hs hv hadmits (cmdLull_outsideMesh ha hmode), by rw [hvoice], by rw [hvoice]⟩

/-! ### MOVE_TENSOR and PIN_TENSOR (R605, R606, R613) -/

/-- A move that its checks allow waits for its turn, and its entry names the tensor. -/
theorem moveTensor_waits {c : Chip} {v : Nat} {a : Admitted} {x : Tensor} {kind : MoveKind} (h : c.admittedAs v 4 = some a)
    (hx : c.tensor? (a.arg 8 4) = some x) (hkind : x.moveKind (a.arg 0x0C 1) (a.arg 0x0D 1) (a.arg 0x10 8) = some kind)
    (hcode : c.moveCheck v (a.arg 8 4) (a.arg 0x0C 1) (a.arg 0x0D 1) (a.arg 0x10 8) a.born = 0) :
    c.moveTensor v = (let c1 := (c.takeUp v).ledgerName v .ring a.tag [a.arg 8 4]
      { c1 with moves := c1.moves ++ [{ tensor := a.arg 8 4, kind, voice := v
                                        cpl := some { kind := .command, tag := a.tag, opcode := 4, cookie := a.cookie
                                                      irq := a.irq, holds := true } }] }) := by
  simp only [Chip.moveTensor, h, hx, hkind, hcode, Option.bind_some]

/-- A move that a check refuses completes with its code. -/
theorem moveTensor_refused {c : Chip} {v : Nat} {a : Admitted} (h : c.admittedAs v 4 = some a)
    (hcode : c.moveCheck v (a.arg 8 4) (a.arg 0x0C 1) (a.arg 0x0D 1) (a.arg 0x10 8) a.born ≠ 0) : c.moveTensor v =
      c.finish v a (c.moveCheck v (a.arg 8 4) (a.arg 0x0C 1) (a.arg 0x0D 1) (a.arg 0x10 8) a.born) 0 0 := by
  simp only [Chip.moveTensor, h]
  split
  · next hzero _ => exact absurd hzero hcode
  · rfl

/-- R613: a pin or unpin that no check refuses. -/
theorem pinTensor_allowed {c : Chip} {v : Nat} {a : Admitted} {x : Tensor} (h : c.admittedAs v 5 = some a)
    (hx : c.tensor? (a.arg 8 4) = some x) (hwrite : c.writeCheck v (a.arg 8 4) = 0) (htier : a.arg 0x0C 1 ≤ 2)
    (hpin : a.arg 0x0D 1 = 0 ∨ a.arg 0x0D 1 = 1 ∧ (x.home = a.arg 0x0C 1 ∨ x.work = a.arg 0x0C 1) ∧
      (x.pinTier = 0xFF ∨ x.pinTier = a.arg 0x0C 1)) :
    c.pinTensor v = (c.setTensor (a.arg 8 4) (x.pinned (a.arg 0x0C 1) (a.arg 0x0D 1 == 1) (c.lutHeld (a.arg 8 4)))).finish
      v a 0 0 0 := by
  have hgood : firstCode [0, 0] = 0 := by decide
  obtain hpin | ⟨hpin, hhas, hfree⟩ := hpin
  · simp [Chip.pinTensor, h, hx, hwrite, hpin, htier.not_gt, hgood]
  · obtain hhas | hhas := hhas <;> obtain hfree | hfree := hfree <;>
      simp [Chip.pinTensor, h, hx, hwrite, hpin, htier.not_gt, hgood, hhas, hfree]

/-- R335: a held lookup stays pinned. -/
theorem pinned_unpin {x : Tensor} {tier : Nat} (held : Bool) (h : x.pinTier = tier) :
    x.pinned tier false held = { x with pinTier := if held then x.pinTier else 0xFF, voicePin := false } := by
  simp [Tensor.pinned, h]

/-! ### CUE_ARM and CUE_CANCEL (R280, R281, R871) -/

/-- The arm that a CUE_ARM command asks for. -/
def Admitted.armWait (a : Admitted) (v : Nat) : ArmWait :=
  { voice := v, slot := a.arg 8 2, write := none, tag := a.tag, cookie := a.cookie, irq := a.irq, action := a.arg 10 1
    remaining := a.arg 12 4, target := a.arg 16 8, period := a.arg 24 8, arg := a.arg 32 8 }

theorem armsNow_iff (c : Chip) : c.armsNow = true ↔ c.armRateFree = true ∧ c.armQueue = [] := by
  simp [Chip.armsNow]

theorem takeUp_armsNow (c : Chip) (v : Nat) : (c.takeUp v).armsNow = c.armsNow := rfl

/-- R871: an arm that nothing holds back takes effect now. -/
theorem cmdCueArm_now {c : Chip} {v : Nat} {a : Admitted} (h : c.admittedAs v 6 = some a) (hnow : c.armsNow = true) :
    c.cmdCueArm v = (c.takeUp v).armCommand (a.armWait v) := by
  simp [Chip.cmdCueArm, h, takeUp_armsNow, hnow, Admitted.armWait]

/-- R871: any other waits. -/
theorem cmdCueArm_later {c : Chip} {v : Nat} {a : Admitted} (h : c.admittedAs v 6 = some a) (hlater : c.armsNow ≠ true) :
    c.cmdCueArm v = (c.takeUp v).queueArm (a.armWait v) := by
  simp [Chip.cmdCueArm, h, takeUp_armsNow, hlater, Admitted.armWait]

theorem does_cueArm {s : State} {v : Nat} {c : Chip} (hs : s.on = true) (hturn : s.turn v ⟨2, 0⟩ = true) (hv : v < 16)
    (ha : s.chip.admits = true) (hc : s.chip.cmdCueArm v = c) : Does (.cueArm v) s c :=
  does_of_dictCommand (o := .cueArm v) hs (inOrder_of_turn hturn rfl) hv ha rfl (fun _ => rfl) hc

theorem cmdCueCancel_slot {c c1 : Chip} {v : Nat} {a : Admitted} {gone : Bool} (h : c.admittedAs v 7 = some a)
    (hlow : 256 ≤ a.arg 8 2) (hhigh : a.arg 8 2 < 1024) (hcancel : c.cancelSlot v (a.arg 8 2) = some (c1, gone)) :
    c.cmdCueCancel v = c1.finish v a (if gone then 0x0C050001 else 0) 0 0 := by
  simp [Chip.cmdCueCancel, h, hlow.not_gt, hhigh.not_ge, hcancel]

/-- R70: the first 256 slots are the engine's own. -/
theorem cmdCueCancel_engineSlot {c : Chip} {v : Nat} {a : Admitted} (h : c.admittedAs v 7 = some a) (hlow : a.arg 8 2 < 256) :
    c.cmdCueCancel v = c.finish v a 0x0A020001 0 0 := by
  simp [Chip.cmdCueCancel, h, hlow]

theorem does_cueCancel {s : State} {v : Nat} {c : Chip} (hs : s.on = true) (hv : v < 16) (ha : s.chip.admits = true)
    (hc : s.chip.cmdCueCancel v = c) : Does (.cueCancel v) s c :=
  does_of_command hs hv ha (f := fun c => c.cmdCueCancel v) rfl hc

/-! ### DICT_OP (R282, R283) -/

/-- A READ or DESCRIBE of a voice with host memory leaves its whole result in BUFFER. -/
theorem cmdDictQuery_buffer {c : Chip} {v op : Nat} {a : Admitted} {d : List Byte} (h : c.admittedAs v 8 = some a)
    (hop : a.arg 8 1 = op) (hown : dictOpCode v a = 0) (hv : v ≠ 15)
    (hr : (if op = 4 then c.callWake.dictDescribe v (a.arg 10 2) (a.arg 9 1)
      else c.callWake.dictRead v (a.arg 10 2) (a.arg 9 1)) = (0, d)) :
    c.cmdDictQuery v op = (let c1 := c.callWake.noteReply v op (a.arg 10 2) (a.arg 9 1) 0 d
      (Chip.hostWritten { c1 with hostMem := c1.hostMem.writeBytes (a.arg 16 8) d } v (a.arg 16 8) d.length).finish v a 0
        d.length (if d.length ≤ 8 then leNat d else 0)) := by
  simp [Chip.cmdDictQuery, h, hop, hown, hr, hv]

/-- V15 has no host memory: a READ that fits the completion is answered in it. -/
theorem cmdDictQuery_usb {c : Chip} {a : Admitted} {d : List Byte} (h : c.admittedAs 15 8 = some a) (hop : a.arg 8 1 = 1)
    (hown : dictOpCode 15 a = 0) (hr : c.callWake.dictRead 15 (a.arg 10 2) (a.arg 9 1) = (0, d)) (hfits : d.length ≤ 8) :
    c.cmdDictQuery 15 1 =
      (c.callWake.noteReply 15 1 (a.arg 10 2) (a.arg 9 1) 0 d).finish 15 a 0 d.length (leNat d) := by
  simp [Chip.cmdDictQuery, h, hop, hown, hr, hfits, hfits.not_gt]

/-- An INLINE value goes to the server. -/
theorem cmdDictWrite_inline {c : Chip} {v : Nat} {a : Admitted} (h : c.admittedAs v 8 = some a) (hop : a.arg 8 1 = 2)
    (hown : dictOpCode v a = 0) (hinline : a.arg 14 1 = 1) : c.cmdDictWrite v =
      (c.takeUp v).submit { voice := v, via := ⟨2, a.tag⟩, idx := a.arg 10 2, sub := a.arg 9 1
                            data := (a.bytes.drop 32).take (a.arg 12 2), cookie := a.cookie, irq := a.irq } := by
  simp [Chip.cmdDictWrite, h, hop, hown, hinline]

theorem hostReady_local {c : Chip} {v addr : Nat} (len : Nat) (h : c.remote v addr = false) :
    c.hostReady v addr len = (c, true) := by
  simp [Chip.hostReady, h]

/-- So does a value in host memory that the engine reaches without packets. -/
theorem cmdDictWrite_buffer {c : Chip} {v : Nat} {a : Admitted} (h : c.admittedAs v 8 = some a) (hop : a.arg 8 1 = 2)
    (hown : dictOpCode v a = 0) (hinline : a.arg 14 1 ≠ 1) (hlocal : c.remote v (a.arg 16 8) = false) : c.cmdDictWrite v =
      (c.takeUp v).submit { voice := v, via := ⟨2, a.tag⟩, idx := a.arg 10 2, sub := a.arg 9 1
                            data := c.hostMem.readBytes (a.arg 16 8) (a.arg 12 2), cookie := a.cookie, irq := a.irq } := by
  simp [Chip.cmdDictWrite, h, hop, hown, hinline, hostReady_local _ hlocal]

theorem does_dictOpRead {s : State} {v : Nat} {c : Chip} (hs : s.on = true) (hv : v < 16) (ha : s.chip.admits = true)
    (hc : s.chip.cmdDictQuery v 1 = c) : Does (.dictOpRead v) s c :=
  does_of_dictCommand (o := .command v 1) hs (inOrder_read _ _ rfl) hv ha rfl (fun _ => rfl) hc

theorem does_dictOpDescribe {s : State} {v : Nat} {c : Chip} (hs : s.on = true) (hv : v < 16) (ha : s.chip.admits = true)
    (hc : s.chip.cmdDictQuery v 4 = c) : Does (.dictOpDescribe v) s c :=
  does_of_dictCommand (o := .command v 4) hs (inOrder_read _ _ rfl) hv ha rfl (fun _ => rfl) hc

theorem does_dictOpWrite {s : State} {v : Nat} {c : Chip} (hs : s.on = true) (hturn : s.turn v ⟨2, 0⟩ = true) (hv : v < 16)
    (ha : s.chip.admits = true) (hc : s.chip.cmdDictWrite v = c) : Does (.dictOpWrite v) s c :=
  does_of_dictCommand (o := .command v 2) hs (inOrder_of_turn hturn rfl) hv ha rfl (fun _ => rfl) hc

/-- Settles O48, a clause at a time: each command is the voice's admitted one, and its effect in the clause's case is the
lemma's. -/
theorem voiceCommandsComplete : Obligations.VoiceCommandsComplete := by
  refine ⟨?admission, ?fence, ?fenceEnd, ?fenceHeld, ?lull, ?lullMesh, ?move, ?moveBad, ?pin, ?unpin, ?cueArm, ?cueArmLater,
    ?cueCancel, ?cueCancelBad, ?opRead, ?opDescribe, ?opReadUsb, ?opWriteInline, ?opWrite⟩
  case admission =>
    exact fun s v b hs hadmits hfirst hb => does_of_run hs (f := Chip.admitNext) rfl (admitNext_ready hadmits hfirst hb)
  case fence =>
    exact fun s v a hs hv hadmits ha hop =>
      does_of_command hs hv hadmits (f := fun c => c.cmdFence v) rfl (cmdFence_admitted (admittedAs_some ha hop))
  case fenceEnd =>
    exact fun s v k hs hv hfence hledger hcpl hwaiting hwrites =>
      does_fenceComplete hs hv (fenceEnds_done hfence hledger hcpl hwaiting hwrites)
  case fenceHeld => exact fun s v hs hv h => does_fenceComplete hs hv (fenceEnds_held h)
  case lull =>
    exact fun s v a hs hv hadmits ha hop hmode =>
      does_lull hs hv hadmits (cmdLull_outsideMesh (admittedAs_some ha hop) hmode)
  case lullMesh =>
    intro s v a c1 c3 fate hs hv hadmits ha hop hmode hleader hc1 hroute
    refine does_lull hs hv hadmits ((cmdLull_mesh (admittedAs_some ha hop) hmode hleader hc1 hroute).trans ?_)
    cases fate <;> rfl
  case move =>
    exact fun s v a x kind hs hv hadmits ha hop hx hkind hcode =>
      does_of_command hs hv hadmits (f := fun c => c.moveTensor v) rfl
        (moveTensor_waits (admittedAs_some ha hop) hx hkind hcode)
  case moveBad =>
    exact fun s v a hs hv hadmits ha hop hcode =>
      does_of_command hs hv hadmits (f := fun c => c.moveTensor v) rfl (moveTensor_refused (admittedAs_some ha hop) hcode)
  case pin =>
    intro s v a x tier hs hv hadmits ha hop hx hwrite htier hle hpin hhas hfree
    subst htier
    refine does_of_command hs hv hadmits (f := fun c => c.pinTensor v) rfl ?_
    rw [pinTensor_allowed (admittedAs_some ha hop) hx hwrite hle (.inr ⟨hpin, hhas, hfree⟩), hpin]
    rfl
  case unpin =>
    intro s v a x hs hv hadmits ha hop hx hwrite hle hpin htier
    refine does_of_command hs hv hadmits (f := fun c => c.pinTensor v) rfl ?_
    rw [pinTensor_allowed (admittedAs_some ha hop) hx hwrite hle (.inl hpin), hpin]
    exact congrArg (fun y => (s.chip.setTensor (a.arg 8 4) y).finish v a 0 0 0) (pinned_unpin _ htier)
  case cueArm =>
    exact fun s v a hs hturn hv hadmits ha hop hrate hqueue =>
      does_cueArm hs hturn hv hadmits (cmdCueArm_now (admittedAs_some ha hop) ((armsNow_iff _).2 ⟨hrate, hqueue⟩))
  case cueArmLater =>
    intro s v a hs hturn hv hadmits ha hop hlater
    have hheld : s.chip.armsNow ≠ true := by
      rw [Ne, armsNow_iff, not_and_or, Bool.not_eq_true]
      exact hlater
    exact does_cueArm hs hturn hv hadmits (cmdCueArm_later (admittedAs_some ha hop) hheld)
  case cueCancel =>
    exact fun s v a c1 gone hs hv hadmits ha hop hlow hhigh hcancel =>
      does_cueCancel hs hv hadmits (cmdCueCancel_slot (admittedAs_some ha hop) hlow hhigh hcancel)
  case cueCancelBad =>
    exact fun s v a hs hv hadmits ha hop hlow =>
      does_cueCancel hs hv hadmits (cmdCueCancel_engineSlot (admittedAs_some ha hop) hlow)
  case opRead =>
    exact fun s v a d hs hv hadmits ha hop hread hown hr =>
      does_dictOpRead hs (hv.trans (by decide)) hadmits
        (cmdDictQuery_buffer (admittedAs_some ha hop) hread hown hv.ne hr)
  case opDescribe =>
    exact fun s v a d hs hv hadmits ha hop hdescribe hown hr =>
      does_dictOpDescribe hs (hv.trans (by decide)) hadmits
        (cmdDictQuery_buffer (admittedAs_some ha hop) hdescribe hown hv.ne hr)
  case opReadUsb =>
    exact fun s a d hs hadmits ha hop hread hown hr hfits =>
      does_dictOpRead hs (by decide) hadmits (cmdDictQuery_usb (admittedAs_some ha hop) hread hown hr hfits)
  case opWriteInline =>
    exact fun s v a hs hturn hv hadmits ha hop hwrite hown hinline =>
      does_dictOpWrite hs hturn hv hadmits (cmdDictWrite_inline (admittedAs_some ha hop) hwrite hown hinline)
  case opWrite =>
    exact fun s v a hs hturn hv hadmits ha hop hwrite hown hinline hlocal =>
      does_dictOpWrite hs hturn hv hadmits (cmdDictWrite_buffer (admittedAs_some ha hop) hwrite hown hinline hlocal)

end Sys2Proof.Machine
end

section
/-! SUPPORT. The USB port's bus reset (R303, R304) and the quotas of the voices (R311). -/

namespace Sys2Proof.Machine

/-! ### A bus reset (R303, R304) -/

theorem usbBusReset_detached {c : Chip} (h : c.usb.attached = false) : c.usbBusReset = c := by
  simp [Chip.usbBusReset, h]

/-- R303: the device is not configured, takes a speed, and counts the reset. -/
theorem usbBusReset_attached {c : Chip} (h : c.usb.attached = true) : c.usbBusReset =
    (let f := c.usbUnconfigure.fresh .usbSpeed
     (f.1.dset (ent 0x1810 2) (1 + f.2 % 2)).dinc (ent 0x1810 5)) := by
  simp [Chip.usbBusReset, h]

theorem dget_dset_other {c : Chip} {key j : Nat} (value : Nat) (h : j ≠ key) : (c.dset key value).dget j = c.dget j :=
  (Chip.dget_dset ..).trans (if_neg h)

theorem dget_dinc_other {c : Chip} {key j : Nat} (h : j ≠ key) : (c.dinc key).dget j = c.dget j := dget_dset_other _ h

/-- Table 6.2: a voice that is bound anew keeps its journal. -/
theorem rebind_journal (c : Chip) (v : Nat) : ((c.rebind v).keep v).journal = (c.keep v).journal ∧
    ((c.rebind v).keep v).journalSeq = (c.keep v).journalSeq := by
  simp [Chip.rebind]

/-- R293: of the dictionary entries only the device address changes. -/
theorem usbUnconfigure_dget {c : Chip} {key : Nat} (h : key ≠ ent 0x1810 3) : c.usbUnconfigure.dget key = c.dget key :=
  dget_dset_other (c := { c with usb := { c.usb with
    pendingWrite := none, statusWaits := false, configured := false, halted := false, reply := none } }) 0 h

theorem usbUnconfigure_journal (c : Chip) : (c.usbUnconfigure.keep 15).journal = (c.keep 15).journal ∧
    (c.usbUnconfigure.keep 15).journalSeq = (c.keep 15).journalSeq := rebind_journal _ 15

/-- Settles O25: detached nothing changes, and attached the reset goes through `usbUnconfigure`, a new speed and the count. -/
theorem busResetIsNoVoiceReset : Obligations.BusResetIsNoVoiceReset := by
  intro s hs
  refine ⟨_, does_of_run hs (f := Chip.usbBusReset) rfl rfl, ?_⟩
  cases hattached : s.chip.usb.attached with
  | false =>
    rw [usbBusReset_detached hattached]
    exact ⟨rfl, rfl, rfl, rfl, rfl, rfl, rfl, fun _ _ _ _ => rfl⟩
  | true =>
    obtain ⟨hjournal, hseq⟩ := usbUnconfigure_journal s.chip
    rw [usbBusReset_attached hattached]
    exact ⟨rfl, rfl, rfl, rfl, rfl, hjournal, hseq, fun key hspeed haddress hresets =>
      (dget_dinc_other hresets).trans ((dget_dset_other _ hspeed).trans (usbUnconfigure_dget haddress))⟩

/-! ### Quotas (R311) -/

/-- The row of quota item `k` at B+1 of V1 to V15 (Table 6.20). -/
def quotaRow (k : Nat) : Entry := entries8041.rows.getD k subZero

/-- The bytes of a quota: QUOTA_CUES is a U16, the others U32. -/
def quotaLength (k : Nat) : Nat := if k = 4 then 2 else 4

theorem findEntry_quota : ∀ w < 16, 1 ≤ w → ∀ k < 5, findEntry (vIdx w 1) (k + 1) = some (quotaRow k) := by decide

theorem quotaRow_form : ∀ k < 5, (quotaRow k).writable = true ∧ (quotaRow k).cond = .any ∧
    (quotaRow k).goodLength (quotaLength k) = true := by decide

/-- B+1 of a voice lies among the voices' indices alone. -/
theorem vIdx_range {w : Nat} (hw : w ≤ 15) :
    0x8000 ≤ vIdx w 1 ∧ vIdx w 1 ≤ 0x83FF ∧ (vIdx w 1 - 0x8000) / 0x40 = w ∧
    vIdx w 1 % 0x40 = 1 := by
  unfold vIdx; omega

/-- No unit of Table 16.2 stands behind a voice's entry. -/
theorem unitOf_voice {idx : Nat} (sub : Nat) (h : 0x8000 ≤ idx) : unitOf idx sub = none := by
  unfold unitOf
  repeat rw [if_neg (by omega)]

/-- Check 6 of Table 4.7: no state but the engine's decides about a voice's entry. -/
theorem ownState_voice (c : Chip) (v : Nat) {idx : Nat} (sub : Nat) (e : Entry) (h : 0x8000 ≤ idx) :
    c.ownState v idx sub e = 0 := by
  have hbinding : idx ≠ 0x1020 := by omega
  have hrestore : idx ≠ 0x1101 := by omega
  unfold Chip.ownState
  refine if_neg ?_
  repeat rw [if_neg (by omega)]
  simp [hbinding, hrestore]

theorem ownCheck_voice (c : Chip) (v : Nat) {idx : Nat} (sub value : Nat) (data : List Byte) (hlow : 0x8000 ≤ idx)
    (hhigh : idx ≤ 0x83FF) :
    c.ownCheck v idx sub value data = c.voiceCheck ((idx - 0x8000) / 0x40) (idx % 0x40) sub value := by
  unfold Chip.ownCheck
  iterate 9 rw [if_neg (by omega)]
  exact if_pos ⟨hlow, hhigh⟩

/-- A quota takes a value of its type's length. -/
theorem wrongLength_quota {w k : Nat} (hw : w ≤ 15) (hk : k < 5) :
    wrongLength (vIdx w 1) (k + 1) (quotaLength k) (quotaRow k) = false := by
  obtain ⟨hlow, -⟩ := vIdx_range hw
  obtain ⟨-, -, hgood⟩ := quotaRow_form k hk
  rw [wrongLength, if_neg (by omega), hgood]
  rfl

/-- Nothing but its value stands against a write of V0 to a quota. -/
theorem earlyCodes_quota {c : Chip} {w k : Nat} (hc : c.engine = .config ∨ c.engine = .ready ∨ c.engine = .run)
    (hw : w ≤ 15) (hk : k < 5) :
    c.earlyCodes 0 (vIdx w 1) (k + 1) (quotaLength k) (quotaRow k) = [0, 0, 0, 0, 0, 0] := by
  obtain ⟨hlow, -⟩ := vIdx_range hw
  obtain ⟨hwritable, hcond, -⟩ := quotaRow_form k hk
  have hcue : ¬ vIdx w 1 < 0x2D00 := by omega
  have hbinding : vIdx w 1 ≠ 0x1020 := by omega
  simp [Chip.earlyCodes, Chip.foreign, Chip.unwritable, hwritable, hcue, hbinding, wrongLength_quota hw hk,
    writeState_any _ _ hcond hc, ownState_voice _ _ _ _ hlow, unitOf_voice _ hlow]

/-- R311: the sum of the quotas with the new value exceeds what is in service. -/
theorem voiceCheck_quota {c : Chip} {w k value : Nat}
    (hover : c.capacity k < c.sumWith (fun x => ent (vIdx x 1) (k + 1)) w value) :
    c.voiceCheck w 1 (k + 1) value = 0x0A030003 := by
  simp [Chip.voiceCheck, hover]

/-- A quota in range that exceeds the capacity aborts with 0x0A030003. -/
theorem writeCode_quota {c : Chip} {w k value : Nat} (hc : c.engine = .config ∨ c.engine = .ready ∨ c.engine = .run)
    (hw1 : 1 ≤ w) (hw : w ≤ 15) (hk : k < 5) (hrange : (quotaRow k).inRange value = true)
    (hvalue : value < 256 ^ quotaLength k)
    (hover : c.capacity k < c.sumWith (fun x => ent (vIdx x 1) (k + 1)) w value) :
    c.writeCode 0 (vIdx w 1) (k + 1) (leBytes (quotaLength k) value) = 0x0A030003 := by
  obtain ⟨hlow, hhigh, hvoice, hentry⟩ := vIdx_range hw
  have hown : ∀ data, c.ownCheck 0 (vIdx w 1) (k + 1) value data = 0x0A030003 := fun data => by
    rw [ownCheck_voice _ _ _ _ _ hlow hhigh, hvoice, hentry, voiceCheck_quota hover]
  have hread : leNat (leBytes (quotaLength k) value) = value := (leNat_leBytes ..).trans (Nat.mod_eq_of_lt hvalue)
  have hcode : firstCode [0x0A030003, 0, 0, 0, 0, 0, 0, 0] = 0x0A030003 := by decide
  simp [Chip.writeCode, findEntry_quota w (by omega) hw1 k hk, length_leBytes, wrongLength_quota hw hk,
    earlyCodes_quota hc hw hk, hread, hown, hrange, hcode]

/-- Settles O36: of V0's write only the sum can be refused (`writeCode_quota`). -/
theorem quotasFitTheCapacity : Obligations.QuotasFitTheCapacity := by
  intro s via w k value hs hturn hvia hc hw1 hw hk hrange hvalue hover
  have hanswers : s.chip.silent = false :=
    (serves_of_alive (by obtain h | h | h := hc <;> simp [Chip.alive, h])).1
  exact does_of_refused hs hturn rfl hvia hanswers
    (writeCode_quota (c := s.chip.callWake) hc hw1 hw hk (hrange _ (findEntry_quota w (by omega) hw1 k hk)) hvalue hover)
    (by decide)

end Sys2Proof.Machine
end

section
/-! SUPPORT. The PCI Express endpoint: PERST_N, function resets, VF Enable, D3hot and failures of host memory (R250 to R260,
R305, R314, R847). -/

namespace Sys2Proof.Machine

/-! ### PERST_N (R847) -/

/-- R847: the moves in host memory fail, the link is down, and the VFs' voices are bound to none. -/
theorem perstLow_first {c : Chip} (h : c.pcie.perstLow = false) : c.perstLow =
    (let c1 := (c.moves.filter (fun m => c.onPcie m.voice && c.usesHost m)).foldl Chip.moveFails c
     Chip.each { c1 with pcie := { c1.pcie with perstLow := true, trained := false, vfEnable := false, numVfs := 0, fns := [] } }
       (List.range 13) (fun (c : Chip) v =>
         let d := c.setKeep v { c.keep v with d3 := false }
         if v ≠ 0 ∧ (d.keep v).binding = 1 then d.unbind v else d)) := by
  simp [Chip.perstLow, h]

/-- Table 6.3: whatever the free value, the width that the link trains to is one of the table's. -/
theorem linkWidth_mem (n : Nat) : [4, 2, 1].getD (n % 3) 4 ∈ [1, 2, 4] :=
  have hwidths : ∀ k < 3, [4, 2, 1].getD k 4 ∈ [1, 2, 4] := by decide
  hwidths _ (Nat.mod_lt _ (by decide))

theorem linkRate_mem (n : Nat) : [160, 80, 50, 25].getD (n % 4) 160 ∈ [25, 50, 80, 160] :=
  have hrates : ∀ k < 4, [160, 80, 50, 25].getD k 160 ∈ [25, 50, 80, 160] := by decide
  hrates _ (Nat.mod_lt _ (by decide))

/-! ### Functions (R250, R305) -/

theorem functionReset_pf {c : Chip} (hretired : c.isRetired .pcie = false) (htrained : c.pcie.trained = true) :
    c.functionReset 0 = (let c1 := (((c.each c.vfVoices Chip.voiceReset).clearVfs).voiceReset 0).resetFn 0
      c1.setKeep 0 { c1.keep 0 with d3 := false }) := by
  simp [Chip.functionReset, hretired, htrained]

theorem functionReset_vf {c : Chip} {fn : Nat} (hretired : c.isRetired .pcie = false) (htrained : c.pcie.trained = true)
    (henable : c.pcie.vfEnable = true) (hlow : 1 ≤ fn) (hhigh : fn ≤ c.pcie.numVfs) :
    c.functionReset fn = (let c1 := (c.voiceReset fn).resetFn fn
      c1.setKeep fn { c1.keep fn with d3 := false }) := by
  have hvf : fn ≠ 0 := by omega
  simp [Chip.functionReset, hretired, htrained, hvf, henable, hhigh]

theorem does_functionLevelReset {s : State} {fn : Nat} {c : Chip} (hs : s.on = true) (hfn : fn ≤ 12)
    (hc : s.chip.functionReset fn = c) : Does (.functionLevelReset fn) s c :=
  does_of_run hs (f := fun c => if fn ≤ 12 then c.functionReset fn else c) rfl ((if_pos hfn).trans hc)

theorem vfEnableClear_enabled {c : Chip} (h : c.pcie.vfEnable = true) :
    c.vfEnableClear = (c.each c.vfVoices Chip.voiceReset).clearVfs := if_pos h

/-- R250: the VFs take their voices. -/
theorem setVfs_disabled {c : Chip} {n : Nat} (henable : c.pcie.vfEnable = false) (hretired : c.isRetired .pcie = false)
    (hn : n ≤ c.pcie.identity.totalVfs) (htrained : c.pcie.trained = true) : c.setVfs n =
      Chip.each { c with pcie := { c.pcie with vfEnable := true, numVfs := n } } (rangeFrom 1 12) Chip.rebind := by
  simp [Chip.setVfs, henable, hretired, hn.not_gt, htrained]

/-! ### D3hot (R259) -/

theorem enterD3_pcie {c : Chip} {fn : Nat} (hfn : c.hasFn fn = true) (hpcie : c.onPcie fn = true) :
    c.enterD3 fn = (c.ringStop fn).setKeep fn { (c.ringStop fn).keep fn with d3 := true } := by
  simp [Chip.enterD3, hfn, hpcie]

/-- A voice that has left the endpoint keeps its ring. -/
theorem enterD3_elsewhere {c : Chip} {fn : Nat} (hfn : c.hasFn fn = true) (hpcie : c.onPcie fn = false) :
    c.enterD3 fn = c.setKeep fn { c.keep fn with d3 := true } := by
  simp [Chip.enterD3, hfn, hpcie]

theorem does_d3hotEntry {s : State} {fn : Nat} {c : Chip} (hs : s.on = true) (hfn : fn ≤ 12) (hc : s.chip.enterD3 fn = c) :
    Does (.d3hotEntry fn) s c :=
  does_of_run hs (f := fun c => if fn ≤ 12 then c.enterD3 fn else c) rfl ((if_pos hfn).trans hc)

/-! ### Failures of host memory (R260, R314) -/

/-- R260: the failure is reported where the voice reaches its host over PCI Express. -/
def Chip.reported (c : Chip) (v : Nat) (e : HostError) : Chip := if c.onPcie v then c.reportError v e else c

/-- The report leaves the moves and what they use. -/
theorem reported_move (c : Chip) (v w : Nat) (e : HostError) :
    (c.reported v e).moves.find? (fun m => m.voice == w && (c.reported v e).usesHost m) =
      c.moves.find? (fun m => m.voice == w && c.usesHost m) := by
  unfold Chip.reported
  split <;> rfl

/-- A failure that is no move's stops the voice with its cause. -/
theorem hostTrouble_access {c : Chip} {v cause : Nat} {e : HostError} (hv : v < 16) (hlow : 1 ≤ cause) (hhigh : cause ≤ 3)
    (hmove : cause ≠ 3 ∨ c.moves.find? (fun m => m.voice == v && c.usesHost m) = none) :
    c.hostTrouble v cause e = (c.reported v e).hostFailure v cause := by
  have hgood : ¬(15 < v ∨ cause < 1 ∨ 3 < cause) := by omega
  rw [← reported_move c v v e] at hmove
  unfold Chip.reported at hmove ⊢
  obtain hcause | hnone := hmove
  · simp only [Chip.hostTrouble, hgood, if_false, beq_eq_false_iff_ne.2 hcause]
  · simp only [Chip.hostTrouble, hgood, if_false, hnone]
    cases cause == 3 <;> rfl

/-- Cause 3 with a move in host memory: the voice's oldest one fails. -/
theorem hostTrouble_move {c : Chip} {v : Nat} {e : HostError} {m : Move} (hv : v < 16)
    (hmove : c.moves.find? (fun m => m.voice == v && c.usesHost m) = some m) :
    c.hostTrouble v 3 e = (c.reported v e).moveFails m := by
  have hgood : ¬(15 < v ∨ 3 < 1 ∨ 3 < 3) := by omega
  rw [← reported_move c v v e] at hmove
  unfold Chip.reported at hmove ⊢
  simp only [Chip.hostTrouble, hgood, if_false, hmove]
  rfl

theorem does_hostMemoryFailure {s : State} {v cause : Nat} {e : HostError} {c : Chip} (hs : s.on = true)
    (hc : s.chip.hostTrouble v cause e = c) : Does (.hostMemoryFailure v ⟨cause, e⟩) s c :=
  does_of_run hs (f := fun c => c.hostTrouble v cause e) rfl hc

/-- Settles O49, a clause at a time: each command is a `run`, and its effect in the clause's case is the lemma's. -/
theorem pcieEventsComplete : Obligations.PcieEventsComplete := by
  refine ⟨?perstLow, ?perstHigh, ?flrPf, ?flrVf, ?vfClear, ?vfSet, ?d3, ?d3tunnel, ?d0, ?hostFailure, ?hostFailureTunnel,
    ?hostFailureMove⟩
  case perstLow => exact fun s hs h => does_of_run hs (f := Chip.perstLow) rfl (perstLow_first h)
  case perstHigh =>
    exact fun s hs => ⟨_, _, linkWidth_mem _, linkRate_mem _, does_of_run hs (f := Chip.perstHigh) rfl rfl⟩
  case flrPf =>
    exact fun s hs hretired htrained =>
      does_functionLevelReset hs (Nat.zero_le _) (functionReset_pf hretired htrained)
  case flrVf =>
    exact fun s fn hs hretired htrained henable hlow hhigh hmost =>
      does_functionLevelReset hs (hhigh.trans hmost) (functionReset_vf hretired htrained henable hlow hhigh)
  case vfClear =>
    exact fun s hs henable => does_of_run hs (f := Chip.vfEnableClear) rfl (vfEnableClear_enabled henable)
  case vfSet =>
    exact fun s n hs henable hretired hn htrained =>
      does_of_run hs (f := fun c => c.setVfs n) rfl (setVfs_disabled henable hretired hn htrained)
  case d3 => exact fun s fn hs hle hfn hpcie => does_d3hotEntry hs hle (enterD3_pcie hfn hpcie)
  case d3tunnel => exact fun s fn hs hle hfn hpcie => does_d3hotEntry hs hle (enterD3_elsewhere hfn hpcie)
  case d0 =>
    exact fun s fn hs hle hfn =>
      does_of_run hs (f := fun c => if fn ≤ 12 then c.leaveD3 fn else c) rfl ((if_pos hle).trans (if_pos hfn))
  case hostFailure =>
    intro s v cause e hs hv hlow hhigh hpcie hmove
    refine does_hostMemoryFailure hs ((hostTrouble_access hv hlow hhigh hmove).trans ?_)
    rw [Chip.reported, if_pos hpcie]
  case hostFailureTunnel =>
    intro s v cause e hs hv hlow hhigh hpcie hmove
    refine does_hostMemoryFailure hs ((hostTrouble_access hv hlow hhigh hmove).trans ?_)
    rw [Chip.reported, hpcie]
    rfl
  case hostFailureMove =>
    intro s v e m hs hv hpcie hmove
    refine does_hostMemoryFailure hs ((hostTrouble_move hv hmove).trans ?_)
    rw [Chip.reported, if_pos hpcie]
    rfl

end Sys2Proof.Machine
end

section
/-! SUPPORT. Camera channels: the packets of a link, extraction runs and virtual frames (R317 to R327, R332, R343 to R347,
R375). -/

namespace Sys2Proof.Machine

/-! ### Commands of blocks that work -/

/-- A command of a working block completes with the effect it works. -/
theorem does_of_work {i : Instr} {s : State} {f : Chip → Chip} {c : Chip} (hs : s.live = true) (he : exec i s = work f s)
    (hc : f s.chip = c) : Does i s c := by
  obtain ⟨hon, halive⟩ : s.on = true ∧ s.chip.alive = true := by simpa [State.live] using hs
  exact does_of_run hon he ((if_pos halive).trans hc)

/-- The same where the core clocks run (R740). -/
theorem does_of_ungated {i : Instr} {s : State} {f : Chip → Chip} {c : Chip} (hs : s.live = true)
    (hgated : s.chip.gated = false) (he : exec i s = work (fun c => if c.gated then c else f c) s) (hc : f s.chip = c) :
    Does i s c :=
  does_of_work hs he ((if_neg (Bool.eq_false_iff.1 hgated)).trans hc)

/-! ### Packets of a link (R317 to R323, R327) -/

/-- A packet of a link that feeds one enabled channel has its effect on that channel. -/
theorem does_of_link {i : Instr} {s : State} {link ch : Nat} {f : Chip → Nat → Chip} {c : Chip} (hs : s.live = true)
    (hlink : s.chip.channelsOf link = [ch]) (he : exec i s = work (fun c => c.each (c.channelsOf link) f) s)
    (hc : f s.chip ch = c) : Does i s c :=
  does_of_work hs he ((congrArg (s.chip.each · f) hlink).trans hc)

/-- What CSI_FRAME_START and CSI_FRAME_END do on a channel of their link, where `act` is the start or the end. -/
def Chip.frameMark (act : Chip → Nat → Chip) (vc : Nat) (c : Chip) (ch : Nat) : Chip :=
  if c.gated then c.dinc (camKey ch 45) else if c.dget (camKey ch 4) = vc then act c ch else c

theorem frameMark_taken (act : Chip → Nat → Chip) {vc ch : Nat} {c : Chip} (hgated : c.gated = false)
    (hvc : c.dget (camKey ch 4) = vc) : c.frameMark act vc ch = act c ch := by
  simp [Chip.frameMark, hgated, hvc]

theorem frameMark_gated (act : Chip → Nat → Chip) (vc ch : Nat) {c : Chip} (hgated : c.gated = true) :
    c.frameMark act vc ch = c.dinc (camKey ch 45) := if_pos hgated

theorem does_csiFrameStart {s : State} {link vc ch : Nat} {c : Chip} (hs : s.live = true)
    (hlink : s.chip.channelsOf link = [ch]) (hc : s.chip.frameMark Chip.startFrame vc ch = c) :
    Does (.csiFrameStart link vc) s c :=
  does_of_link (f := Chip.frameMark Chip.startFrame vc) hs hlink rfl hc

theorem does_csiFrameEnd {s : State} {link vc ch : Nat} {c : Chip} (hs : s.live = true)
    (hlink : s.chip.channelsOf link = [ch]) (hc : s.chip.frameMark Chip.endFrame vc ch = c) :
    Does (.csiFrameEnd link vc) s c :=
  does_of_link (f := Chip.frameMark Chip.endFrame vc) hs hlink rfl hc

theorem does_csiLongPacket {s : State} {link ch : Nat} {p : LongPacket} {c : Chip} (hs : s.live = true)
    (hlink : s.chip.channelsOf link = [ch]) (hc : s.chip.camPacket ch p = c) : Does (.csiLongPacket link p) s c :=
  does_of_link (f := fun c ch => c.camPacket ch p) hs hlink rfl hc

/-- R320: a header with a multi-bit ECC error drops its packet. -/
theorem camPacket_ecc {c : Chip} {ch : Nat} {p : LongPacket} (hgated : c.gated = false) (hecc : p.eccMulti = true) :
    c.camPacket ch p = c.dinc (camKey ch 40) := by
  simp [Chip.camPacket, hgated, hecc]

/-- R317: a packet of another virtual channel or data type, or outside a frame, is discarded. -/
theorem camPacket_other {c : Chip} {ch : Nat} {p : LongPacket} (hgated : c.gated = false) (hecc : p.eccMulti = false)
    (hother : p.vc ≠ c.dget (camKey ch 4) ∨ p.format ≠ c.dget (camKey ch 5) ∨ (c.cam ch).current = none) :
    c.camPacket ch p = c.dinc (camKey ch 45) := by
  simp only [Chip.camPacket, hgated, hecc, Bool.false_eq_true, if_false]
  exact if_pos hother

section
variable {c : Chip} {ch d : Nat} {p : LongPacket} (hgated : c.gated = false) (hecc : p.eccMulti = false)
  (hvc : p.vc = c.dget (camKey ch 4)) (hformat : p.format = c.dget (camKey ch 5)) (hcurrent : (c.cam ch).current = some d)
include hgated hecc hvc hformat hcurrent

/-- R321, R322: a row of another length than WIDTH is counted, and padded or cut; a bad CRC is counted, and its row is zeros. -/
theorem camPacket_row : c.camPacket ch p =
    (let px := unpackRow p.format p.payload
     let c1 := if px.length = c.camWidth ch then c else c.dinc (camKey ch 42)
     if p.crcOk then c1.acceptRow ch (c1.convertRow ch (tabGet {} (c.cam ch).frames d).black px) false
     else
       let c2 := c1.dinc (camKey ch 41)
       c2.acceptRow ch (List.replicate (c2.camWidth ch) 0) true) := by
  cases hcrc : p.crcOk <;> simp [Chip.camPacket, hgated, hecc, hvc, hformat, hcurrent, hcrc]

end

/-! ### Extraction runs (R343 to R347) -/

theorem startRun_idle {c : Chip} {ch : Nat} {r : CamRun} (hasked : (c.cam ch).asked = some r) (hon : c.camOn ch = true)
    (hrun : (c.cam ch).run = none) : c.startRun ch =
      c.setCam ch { c.cam ch with asked := none, run := some (c.readParams ch r.slot r.serial) } := by
  simp [Chip.startRun, hasked, hon, hrun]

/-- R346: behind a run in progress the request waits; one that waits already is superseded and counted. -/
theorem startRun_behind {c : Chip} {ch : Nat} {r : CamRun} (hasked : (c.cam ch).asked = some r) (hon : c.camOn ch = true)
    (hrun : (c.cam ch).run.isSome = true) : c.startRun ch =
      (let c1 := c.setCam ch { c.cam ch with asked := none, waiting := some r }
       if (c.cam ch).waiting.isSome then c1.dinc (camKey ch 49) else c1) := by
  simp [Chip.startRun, hasked, hon, hrun]

/-- R346, R347: with no run in progress the pending one leaves the queue, and starts if its pyramid is there. -/
theorem startPending_free {c : Chip} {ch : Nat} {r : CamRun} (hwaiting : (c.cam ch).waiting = some r)
    (hrun : (c.cam ch).run = none) : c.startPending ch =
      (let c1 := c.setCam ch { c.cam ch with waiting := none }
       if c.frameThere ch r.slot r.serial then
         c1.setCam ch { c.cam ch with waiting := none, run := some (c.readParams ch r.slot r.serial) }
       else c1.dinc (camKey ch 50)) := by
  simp [Chip.startPending, hwaiting, hrun]

theorem frameThere_iff {c : Chip} {ch slot serial : Nat} :
    c.frameThere ch slot serial = true ↔ (tabGet {} (c.cam ch).frames slot).serial = serial := beq_iff_eq

/-- A run whose channel is off or whose pyramid is lost ends without a list. -/
theorem endRun_gone {c : Chip} {ch : Nat} {r : CamRun} (hrun : (c.cam ch).run = some r)
    (hgone : c.camOn ch = false ∨ c.frameThere ch r.slot r.serial = false) :
    c.endRun ch = c.setCam ch { c.cam ch with run := none } := by
  have hskip : (!c.camOn ch || !c.frameThere ch r.slot r.serial) = true := by simpa using hgone
  simp only [Chip.endRun, hrun, hskip, if_true]

/-- R345: a run does not end before its frame. -/
theorem endRun_early {c : Chip} {ch : Nat} {r : CamRun} (hrun : (c.cam ch).run = some r) (hon : c.camOn ch = true)
    (hthere : c.frameThere ch r.slot r.serial = true) (hended : (tabGet {} (c.cam ch).frames r.slot).ended = none) :
    c.endRun ch = c := by
  simp [Chip.endRun, hrun, hon, hthere, hended]

/-- R446: the list of a run that ends reaches the instances. -/
theorem runEnds_listed {c : Chip} {ch : Nat} {r : CamRun} {l : CamPrev} (hrun : (c.cam ch).run = some r)
    (hprev : ((c.endRun ch).cam ch).prev = some l) : c.runEnds ch =
      if ((c.endRun ch).cam ch).nextList ≠ (c.cam ch).nextList then (c.endRun ch).estTakeList ch l.list r.slot
      else c.endRun ch := by
  simp only [Chip.runEnds, hrun, hprev]

theorem runEnds_unlisted {c : Chip} {ch : Nat} {r : CamRun} (hrun : (c.cam ch).run = some r)
    (hprev : ((c.endRun ch).cam ch).prev = none) : c.runEnds ch = c.endRun ch := by
  simp only [Chip.runEnds, hrun, hprev]

/-- Without a new list nothing reaches the instances. -/
theorem runEnds_unwritten {c : Chip} {ch : Nat} (h : ((c.endRun ch).cam ch).nextList = (c.cam ch).nextList) :
    c.runEnds ch = c.endRun ch := by
  simp only [Chip.runEnds]
  split
  · exact if_neg (not_not_intro h)
  · rfl

/-! ### Virtual frames in bench mode (R375) -/

section
variable {c : Chip} {ch : Nat} (hon : c.camOn ch = true) (hsource : c.dget (camKey ch 34) = 1) (hgated : c.gated = false)
  (hmode : c.straps.mode ≠ .mesh)
include hon hsource hgated hmode

/-- A named frame starts at the first frame start after its naming, and its due rows follow. -/
theorem virtualDelivery_starts (hnamed : (c.cam ch).named ≠ [])
    (hlater : laterMod m32 c.epoch.pos.frame ((c.cam ch).namedAt / m32) = true) : c.virtualDelivery ch =
      (let c0 := c.startFrame ch
       (c0.setCam ch { c0.cam ch with
          virtualFrame := some c.epoch.pos.frame, bands := (c0.cam ch).named, named := [] }).deliverRows ch
            c.epoch.pos.frame) := by
  simp [Chip.virtualDelivery, hon, hsource, hgated, hmode, hnamed, hlater]

/-- With no frame named the one in progress continues. -/
theorem virtualDelivery_continues {f : Nat} (hnamed : (c.cam ch).named = []) (hframe : (c.cam ch).virtualFrame = some f) :
    c.virtualDelivery ch = c.deliverRows ch f := by
  simp [Chip.virtualDelivery, hon, hsource, hgated, hmode, hnamed, hframe]

end

/-! ### The commands -/

/-- Settles O51, a clause at a time: each command is a `work`, and its effect in the clause's case is the lemma's. -/
theorem cameraCommandsComplete : Obligations.CameraCommandsComplete := by
  refine ⟨?fs, ?fsGated, ?fe, ?feGated, ?packet, ?packetRow, ?packetCrc, ?packetLength, ?packetEcc, ?packetOther,
    ?triggerExpiry, ?runStart, ?runPending, ?runReplaces, ?pendingStart, ?pendingGone, ?runEnd, ?runEndEarly, ?runEndGone,
    ?virtualStart, ?virtualRows⟩
  case fs => exact fun s link vc ch hs hgated hlink hvc => does_csiFrameStart hs hlink (frameMark_taken _ hgated hvc)
  case fsGated => exact fun s link vc ch hs hgated hlink => does_csiFrameStart hs hlink (frameMark_gated _ _ _ hgated)
  case fe => exact fun s link vc ch hs hgated hlink hvc => does_csiFrameEnd hs hlink (frameMark_taken _ hgated hvc)
  case feGated => exact fun s link vc ch hs hgated hlink => does_csiFrameEnd hs hlink (frameMark_gated _ _ _ hgated)
  case packet => exact fun s link ch p hs hlink => does_csiLongPacket hs hlink rfl
  case packetRow =>
    intro s link ch d p hs hlink hgated hecc hvc hformat hcurrent hcrc hlength
    refine does_csiLongPacket hs hlink ((camPacket_row hgated hecc hvc hformat hcurrent).trans ?_)
    simp only [hcrc, hlength, if_true]
  case packetCrc =>
    intro s link ch d p hs hlink hgated hecc hvc hformat hcurrent hcrc hlength
    refine does_csiLongPacket hs hlink ((camPacket_row hgated hecc hvc hformat hcurrent).trans ?_)
    simp only [hcrc, hlength, Bool.false_eq_true, if_true, if_false]
  case packetLength =>
    intro s link ch d p hs hlink hgated hecc hvc hformat hcurrent hcrc hlength
    refine does_csiLongPacket hs hlink ((camPacket_row hgated hecc hvc hformat hcurrent).trans ?_)
    simp only [hcrc, hlength, if_true, if_false]
  case packetEcc => exact fun s link ch p hs hlink hgated hecc => does_csiLongPacket hs hlink (camPacket_ecc hgated hecc)
  case packetOther =>
    exact fun s link ch p hs hlink hgated hecc hother =>
      does_csiLongPacket hs hlink (camPacket_other hgated hecc hother)
  case triggerExpiry => exact fun s ch hs => does_of_work hs (f := fun c => c.expireTriggers ch) rfl rfl
  case runStart =>
    exact fun s ch r hs hgated hasked hon hrun =>
      does_of_ungated hs hgated (f := fun c => c.startRun ch) rfl (startRun_idle hasked hon hrun)
  case runPending =>
    intro s ch r hs hgated hasked hon hrun hwaiting
    refine does_of_ungated hs hgated (f := fun c => c.startRun ch) rfl ((startRun_behind hasked hon hrun).trans ?_)
    exact if_neg (by simp [hwaiting])
  case runReplaces =>
    exact fun s ch r hs hgated hasked hon hrun hwaiting =>
      does_of_ungated hs hgated (f := fun c => c.startRun ch) rfl
        ((startRun_behind hasked hon hrun).trans (if_pos hwaiting))
  case pendingStart =>
    exact fun s ch r hs hgated hwaiting hrun hserial =>
      does_of_ungated hs hgated (f := fun c => c.startPending ch) rfl
        ((startPending_free hwaiting hrun).trans (if_pos (frameThere_iff.2 hserial)))
  case pendingGone =>
    exact fun s ch r hs hgated hwaiting hrun hserial =>
      does_of_ungated hs hgated (f := fun c => c.startPending ch) rfl
        ((startPending_free hwaiting hrun).trans (if_neg (mt frameThere_iff.1 hserial)))
  case runEnd =>
    intro s ch r hs hgated hrun _ _ _
    refine does_of_ungated hs hgated (f := fun c => c.runEnds ch) rfl ?_
    cases hprev : ((s.chip.endRun ch).cam ch).prev with
    | none => simp only [runEnds_unlisted hrun hprev, hprev]
    | some l => simp only [runEnds_listed hrun hprev, hprev]
  case runEndEarly =>
    intro s ch r hs hgated hrun hon hthere hended
    have hend := endRun_early hrun hon hthere hended
    exact does_of_ungated hs hgated (f := fun c => c.runEnds ch) rfl ((runEnds_unwritten (by rw [hend])).trans hend)
  case runEndGone =>
    intro s ch r hs hgated hrun hgone
    have hend := endRun_gone hrun hgone
    exact does_of_ungated hs hgated (f := fun c => c.runEnds ch) rfl
      ((runEnds_unwritten (by rw [hend, Chip.cam_setCam_same])).trans hend)
  case virtualStart =>
    exact fun s ch hs hon hsource hgated hmode hnamed hlater =>
      does_of_work hs (f := fun c => c.virtualDelivery ch) rfl
        (virtualDelivery_starts hon hsource hgated hmode hnamed hlater)
  case virtualRows =>
    exact fun s ch f hs hon hsource hgated hmode hnamed hframe =>
      does_of_work hs (f := fun c => c.virtualDelivery ch) rfl
        (virtualDelivery_continues hon hsource hgated hmode hnamed hframe)

end Sys2Proof.Machine
end

section
/-! SUPPORT. Inertial channels, SPI masters and encoders: samples, bursts, outputs, coefficient loads and the quadrature
count (R386 to R398, R404, R411, R415, R426 to R430). -/

namespace Sys2Proof.Machine

/-! ### Samples that enter (R386, R387, R398) -/

/-- What COMB_OUTPUT_SAMPLE does on a chip that works. -/
def Chip.combSample (c : Chip) (ch : Nat) (bs : List Bool) : Chip :=
  if !c.chanOn ch || c.dget (inKey ch 2) != 0 || c.gated || bs.length != 16 then c
  else
    let h := bs.reverse.map (fun b => if b then (1 : Int) else -1) ++ (c.chan ch).comb
    (c.setChan ch { c.chan ch with comb := h.take 45 }).enterSample ch
      { value := combOutput h, sat := false, held := false, cap := c.capture }

/-- R387: sixteen inputs of an enabled PDM channel give one comb output, which enters the chain. -/
theorem combSample_enters {c : Chip} {ch : Nat} {bs : List Bool} (hon : c.chanOn ch = true)
    (hsource : c.dget (inKey ch 2) = 0) (hgated : c.gated = false) (hlength : bs.length = 16) : c.combSample ch bs =
      (let h := bs.reverse.map (fun b => if b then (1 : Int) else -1) ++ (c.chan ch).comb
       (c.setChan ch { c.chan ch with comb := h.take 45 }).enterSample ch
         { value := combOutput h, sat := false, held := false, cap := c.capture }) :=
  if_neg (by simp [hon, hsource, hgated, hlength])

/-- R398: at its capture position the first virtual sample enters, where its value lies in Q1.23. -/
theorem virtualEntry_due {c : Chip} {ch : Nat} {x : VirtualSample} {r : List VirtualSample} (hvirt : (c.chan ch).virt = x :: r)
    (hon : c.chanOn ch = true) (hsource : c.dget (inKey ch 2) = 2) (hgated : c.gated = false)
    (hdue : reached c.posNat x.pos = true) (hlow : -0x800000 ≤ toSigned 32 x.value) (hhigh : toSigned 32 x.value ≤ 0x7FFFFF) :
    c.virtualEntry ch = (c.setChan ch { c.chan ch with virt := r }).enterSample ch
      { value := toSigned 32 x.value, sat := false, held := false, cap := ⟨x.pos, x.period, c.epochNotRunning⟩ } := by
  have henters : (!c.chanOn ch || c.dget (inKey ch 2) != 2 || c.gated || !reached c.posNat x.pos) = false := by
    simp [hon, hsource, hgated, hdue]
  simp only [Chip.virtualEntry, hvirt, henters, Bool.false_eq_true, if_false]
  exact if_pos ⟨hlow, hhigh⟩

theorem virtualEntry_later {c : Chip} {ch : Nat} {x : VirtualSample} {r : List VirtualSample}
    (hvirt : (c.chan ch).virt = x :: r) (hlater : reached c.posNat x.pos = false) : c.virtualEntry ch = c := by
  simp [Chip.virtualEntry, hvirt, hlater]

/-! ### SPI masters (R389 to R395) -/

theorem does_spiDrdyEdge {s : State} {m : Nat} {c : Chip} (hs : s.live = true) (htrigger : s.chip.dget (spiKey m 50) ≠ 0)
    (hc : s.chip.spiTrigger m = c) : Does (.spiDrdyEdge m) s c :=
  does_of_work hs (f := fun c => if c.dget (spiKey m 50) = 0 then c else c.spiTrigger m) rfl ((if_neg htrigger).trans hc)

section
variable {c : Chip} {m : Nat} (hretired : c.isRetired (.spiMaster m) = false) (hgated : c.gated = false)
include hretired hgated

/-- R390: a trigger of an idle master starts a burst. -/
theorem spiTrigger_idle (hrunning : (c.master m).running = none) :
    c.spiTrigger m = c.startBurst m (c.master m) c.capture := by
  simp [Chip.spiTrigger, hretired, hgated, hrunning]

/-- R394: a trigger during a burst becomes pending. -/
theorem spiTrigger_waits (hrunning : (c.master m).running.isSome = true) (hwaiting : (c.master m).waiting = none) :
    c.spiTrigger m = c.setMaster m { c.master m with waiting := some c.capture } := by
  obtain ⟨cap, hcap⟩ := Option.isSome_iff_exists.1 hrunning
  simp [Chip.spiTrigger, hretired, hgated, hcap, hwaiting]

/-- R394, R395: a further trigger supersedes the pending one, which is counted and kept for its held sample. -/
theorem spiTrigger_over {old : Capture} (hrunning : (c.master m).running.isSome = true)
    (hwaiting : (c.master m).waiting = some old) : c.spiTrigger m =
      (c.setMaster m { c.master m with
        waiting := some c.capture, skipped := (c.master m).skipped ++ [old] }).dinc (spiKey m 57) := by
  obtain ⟨cap, hcap⟩ := Option.isSome_iff_exists.1 hrunning
  simp [Chip.spiTrigger, hretired, hgated, hcap, hwaiting]

end

theorem does_spiBurstEnd {s : State} {m : Nat} {rx : List Byte} {c : Chip} (hs : s.live = true)
    (hc : s.chip.spiEnd m rx = c) : Does (.spiBurstEnd m rx) s c :=
  does_of_work hs (f := fun c => c.spiEnd m rx) rfl hc

/-- R389: bytes beyond RX_LEN reach no channel. -/
theorem spiEnd_take (c : Chip) (m : Nat) (rx : List Byte) : c.spiEnd m (rx.take (c.master m).rxLen) = c.spiEnd m rx := by
  simp only [Chip.spiEnd, List.take_take, Nat.min_self]

/-- R391, R394: the chip when a burst has ended and is counted: its master idle, or in the burst of the pending trigger. -/
def Chip.afterBurst (c : Chip) (m : Nat) : Chip :=
  match (c.master m).waiting with
  | some next => (c.dinc (spiKey m 56)).startBurst m {} next
  | none => (c.dinc (spiKey m 56)).setMaster m {}

theorem afterBurst_idle {c : Chip} {m : Nat} (hwaiting : (c.master m).waiting = none) :
    c.afterBurst m = (c.dinc (spiKey m 56)).setMaster m {} := by simp only [Chip.afterBurst, hwaiting]

theorem afterBurst_next {c : Chip} {m : Nat} {next : Capture} (hwaiting : (c.master m).waiting = some next) :
    c.afterBurst m = (c.dinc (spiKey m 56)).startBurst m {} next := by simp only [Chip.afterBurst, hwaiting]

/-- R740: with the core clocks gated a burst's words reach no channel. -/
theorem spiEnd_gated {c : Chip} {m : Nat} {cap : Capture} (rx : List Byte) (hrunning : (c.master m).running = some cap)
    (hgated : (c.afterBurst m).gated = true) : c.spiEnd m rx = c.afterBurst m := by
  simp only [Chip.spiEnd, hrunning]
  exact if_pos (Bool.or_eq_true_iff.2 (.inl hgated))

/-- A master that feeds no channel has no word and no held sample to deliver. -/
theorem spiEnd_noChannel {c : Chip} {m : Nat} {cap : Capture} (rx : List Byte) (hrunning : (c.master m).running = some cap)
    (hnone : (c.afterBurst m).channelsOfMaster m = []) (hskipped : (c.master m).skipped = []) :
    c.spiEnd m rx = c.afterBurst m := by
  have hwords (f : Chip → Nat → Chip) (g : Chip → Capture → Chip) :
      ((c.afterBurst m).each ((c.afterBurst m).channelsOfMaster m) f).each (c.master m).skipped g = c.afterBurst m := by
    rw [hnone, hskipped]
    rfl
  simp only [Chip.spiEnd, hrunning]
  exact ite_eq_left_iff.2 fun _ => hwords _ _

/-! ### Outputs that emerge (R404, R419, R494) -/

/-- R419: an output before the chain has settled is counted and suppressed. -/
theorem emerge_unsettled {c : Chip} {ch : Nat} {o : InOut} {r : List InOut} (hemerging : (c.chan ch).emerging = o :: r)
    (hon : c.chanOn ch = true) (hsettled : o.settled = false) :
    c.emerge ch = ((c.setChan ch { c.chan ch with emerging := r }).dinc (inKey ch 42), none) := by
  simp [Chip.emerge, hemerging, hon, hsettled]

/-- A settled output of an enabled channel is released. -/
theorem emerge_released {c : Chip} {ch : Nat} {o : InOut} {r : List InOut} (hemerging : (c.chan ch).emerging = o :: r)
    (hon : c.chanOn ch = true) (hsettled : o.settled = true) : c.emerge ch = ((c.emerge ch).1, some o) := by
  simp [Chip.emerge, hemerging, hon, hsettled]

/-- What OUTPUT_EMERGE does on a chip that works with its core clocks running: a released output reaches the instances
(R494). -/
def Chip.passOutput (c : Chip) (ch : Nat) : Chip :=
  match c.emerge ch with
  | (c1, some o) => c1.estOutput { ch, value := o.value, stamp := o.stamp, period := o.period, seq := o.seq,
                                   held := o.held, stopped := o.stopped, emerged := c.posNat }
  | (c1, none) => c1

theorem does_outputEmerge {s : State} {ch : Nat} {c : Chip} (hs : s.live = true) (hgated : s.chip.gated = false)
    (hc : s.chip.passOutput ch = c) : Does (.outputEmerge ch) s c :=
  does_of_ungated hs hgated (f := fun c => c.passOutput ch) rfl hc

theorem passOutput_suppressed {c c1 : Chip} {ch : Nat} (h : c.emerge ch = (c1, none)) : c.passOutput ch = c1 := by
  simp only [Chip.passOutput, h]

theorem passOutput_released {c c1 : Chip} {ch : Nat} {o : InOut} (h : c.emerge ch = (c1, some o)) : c.passOutput ch =
    c1.estOutput { ch, value := o.value, stamp := o.stamp, period := o.period, seq := o.seq, held := o.held,
                   stopped := o.stopped, emerged := c.posNat } := by
  simp only [Chip.passOutput, h]

/-! ### Coefficient loads (R411) -/

/-- R411: a load fills the bank that is not active. -/
theorem coefDone_loading {c : Chip} {g : Nat} {vs : List Int} (hloading : (c.grp g).loading = some vs) : c.coefDone g =
    if (c.grp g).active = 0 then c.setGrp g { c.grp g with bank1 := some vs, loading := none }
    else c.setGrp g { c.grp g with bank0 := some vs, loading := none } := by
  simp only [Chip.coefDone, hloading]

/-! ### Encoders (R426 to R430) -/

/-- An edge has its effect on a working block's encoder, and the pins stand at their new levels. -/
theorem does_encoderEdge {s : State} {e : Nat} {a b : Bool} {c : Chip} (hs : s.live = true) (he : e < 4)
    (hc : s.chip.encEdge e a b = c) : Does (.encoderEdge e a b) s { c with board := c.board.withEnc e a b } := by
  obtain ⟨hon, halive⟩ : s.on = true ∧ s.chip.alive = true := by simpa [State.live] using hs
  exact does_of_runPin hon rfl (by simp [he, halive, hc])

/-- R428: an encoder that does not count ignores its pins. -/
theorem encEdge_off {c : Chip} {e : Nat} (a b : Bool) (hcounts : c.encCounts e = false) : c.encEdge e a b = c := by
  simp [Chip.encEdge, hcounts]

section
variable {c : Chip} {e : Nat} {a b : Bool} (hcounts : c.encCounts e = true)
include hcounts

/-- R426: a change of both pins at once is an error, and counts no step. -/
theorem encEdge_both
    (hstep : (quadrature a b + 4 - quadrature (c.board.encLevels e).1 (c.board.encLevels e).2) % 4 = 2) :
    c.encEdge e a b = c.dinc (encKey e 13) := by
  simp [Chip.encEdge, hcounts, hstep]

variable (hinvert : c.dbool (encKey e 2) = false)
include hinvert

/-- R426: a step along the quadrature cycle counts up. -/
theorem encEdge_up
    (hstep : (quadrature a b + 4 - quadrature (c.board.encLevels e).1 (c.board.encLevels e).2) % 4 = 1) :
    c.encEdge e a b = (c.setEnc e { c.enc e with raw := (c.enc e).raw + 1, reverse := false }).dset (encKey e 8)
      ((c.dget (encKey e 8) + 1) % m32) := by
  simp [Chip.encEdge, hcounts, hinvert, hstep]

/-- R426: a step against it counts down. -/
theorem encEdge_down
    (hstep : (quadrature a b + 4 - quadrature (c.board.encLevels e).1 (c.board.encLevels e).2) % 4 = 3) :
    c.encEdge e a b = (c.setEnc e { c.enc e with raw := (c.enc e).raw - 1, reverse := true }).dset (encKey e 8)
      ((c.dget (encKey e 8) + 0xFFFFFFFF) % m32) := by
  simp [Chip.encEdge, hcounts, hinvert, hstep]

end

/-- R429, R430: an index event that qualifies latches the position, is counted and writes a record; INDEX_MODE 2 clears
the count. -/
theorem encIndex_qualified {c : Chip} {e : Nat} (henabled : c.dbool (encKey e 1) = true) (halive : c.encAlive e = true)
    (hmode : c.dget (encKey e 3) ≠ 0) (hpins : c.dget (encKey e 4) ≠ 1 ∨ c.board.encLevels e = (true, true))
    (hp6 : c.gov.p6 = false) (hp7 : c.gov.p7 = false) : c.encIndex e =
      (let p := c.dget (encKey e 8)
       let c1 := (c.dset (encKey e 9) p).dinc (encKey e 12)
       let c2 := if c.dget (encKey e 3) = 2 then c1.dset (encKey e 8) 0 else c1
       c2.encWrite e c.posNat p p 2) := by
  have hqualifies : (!c.dbool (encKey e 1) || !c.encAlive e || c.dget (encKey e 3) == 0 ||
      (c.dget (encKey e 4) == 1 && c.board.encLevels e != (true, true))) = false := by
    rcases hpins with hpins | hpins <;> simp [henabled, halive, hmode, hpins]
  simp only [Chip.encIndex, hqualifies, hp6, hp7, Bool.false_eq_true, if_false]

theorem does_indexEvent {s : State} {e : Nat} {c : Chip} (hs : s.live = true) (he : e < 4) (hc : s.chip.encIndex e = c) :
    Does (.indexEvent e) s c :=
  does_of_work hs (f := fun c => if e < 4 then c.encIndex e else c) rfl ((if_pos he).trans hc)

/-! ### The commands -/

/-- Settles O52, a clause at a time: each command is a `work` or a change of pins, and its effect in the clause's case is
the lemma's. -/
theorem inertialAndEncoderCommandsComplete : Obligations.InertialAndEncoderCommandsComplete := by
  refine ⟨?comb, ?drdyIdle, ?drdyWaits, ?drdyOver, ?drdyOff, ?burstEnd, ?burstEndGated, ?burstEndNoChannel, ?burstEndNext,
    ?emergeUnsettled, ?emerge, ?virtualSample, ?virtualLater, ?coef1, ?coef0, ?sync, ?encUp, ?encDown, ?encBoth, ?encOff,
    ?index1, ?index2⟩
  case comb =>
    intro s ch bs h hs hon hsource hgated hlength hh
    subst hh
    exact does_of_work hs (f := fun c => c.combSample ch bs) rfl (combSample_enters hon hsource hgated hlength)
  case drdyIdle =>
    exact fun s m hs htrigger hretired hgated hrunning =>
      does_spiDrdyEdge hs htrigger (spiTrigger_idle hretired hgated hrunning)
  case drdyWaits =>
    exact fun s m hs htrigger hretired hgated hrunning hwaiting =>
      does_spiDrdyEdge hs htrigger (spiTrigger_waits hretired hgated hrunning hwaiting)
  case drdyOver =>
    exact fun s m old hs htrigger hretired hgated hrunning hwaiting =>
      does_spiDrdyEdge hs htrigger (spiTrigger_over hretired hgated hrunning hwaiting)
  case drdyOff =>
    exact fun s m hs htrigger =>
      does_of_work hs (f := fun c => if c.dget (spiKey m 50) = 0 then c else c.spiTrigger m) rfl (if_pos htrigger)
  case burstEnd =>
    exact fun s m rx _ hs _ => does_spiBurstEnd hs (spiEnd_take _ m rx).symm
  case burstEndGated =>
    intro s m rx cap hs hrunning hwaiting hgated
    rw [← afterBurst_idle hwaiting] at hgated ⊢
    exact does_spiBurstEnd hs (spiEnd_gated rx hrunning hgated)
  case burstEndNoChannel =>
    intro s m rx cap c1 hs hrunning hwaiting hc1 _ hnone hskipped
    obtain rfl := hc1.trans (afterBurst_idle hwaiting).symm
    exact does_spiBurstEnd hs (spiEnd_noChannel rx hrunning hnone hskipped)
  case burstEndNext =>
    intro s m rx cap next c1 hs hrunning hwaiting hc1 _ hnone hskipped
    obtain rfl := hc1.trans (afterBurst_next hwaiting).symm
    exact does_spiBurstEnd hs (spiEnd_noChannel rx hrunning hnone hskipped)
  case emergeUnsettled =>
    exact fun s ch o r hs hgated hemerging hon hsettled =>
      does_outputEmerge hs hgated (passOutput_suppressed (emerge_unsettled hemerging hon hsettled))
  case emerge =>
    exact fun s ch o r hs hgated hemerging hon hsettled =>
      does_outputEmerge hs hgated (passOutput_released (emerge_released hemerging hon hsettled))
  case virtualSample =>
    exact fun s ch x r hs hvirt hon hsource hgated hdue hlow hhigh =>
      does_of_work hs (f := fun c => c.virtualEntry ch) rfl
        (virtualEntry_due hvirt hon hsource hgated hdue hlow hhigh)
  case virtualLater =>
    exact fun s ch x r hs hvirt hlater =>
      does_of_work hs (f := fun c => c.virtualEntry ch) rfl (virtualEntry_later hvirt hlater)
  case coef1 =>
    exact fun s g vs hs hloading hactive =>
      does_of_work hs (f := fun c => c.coefDone g) rfl ((coefDone_loading hloading).trans (if_pos hactive))
  case coef0 =>
    exact fun s g vs hs hloading hactive =>
      does_of_work hs (f := fun c => c.coefDone g) rfl ((coefDone_loading hloading).trans (if_neg hactive))
  case sync => exact fun s hs => does_of_work hs (f := Chip.resetGroups) rfl rfl
  case encUp =>
    exact fun s e a b hs he hcounts hstep hinvert => does_encoderEdge hs he (encEdge_up hcounts hinvert hstep)
  case encDown =>
    exact fun s e a b hs he hcounts hstep hinvert => does_encoderEdge hs he (encEdge_down hcounts hinvert hstep)
  case encBoth => exact fun s e a b hs he hcounts hstep => does_encoderEdge hs he (encEdge_both hcounts hstep)
  case encOff => exact fun s e a b hs he hcounts => does_encoderEdge hs he (encEdge_off a b hcounts)
  case index1 =>
    intro s e hs he henabled halive hmode hpins hp6 hp7
    refine does_indexEvent hs he ((encIndex_qualified henabled halive (by omega) hpins hp6 hp7).trans ?_)
    simp [hmode]
  case index2 =>
    intro s e hs he henabled halive hmode hpins hp6 hp7
    refine does_indexEvent hs he ((encIndex_qualified henabled halive (by omega) hpins hp6 hp7).trans ?_)
    simp [hmode]

end Sys2Proof.Machine
end

section
/-! SUPPORT. Estimator instances: the steps of a frame's processing, closures at their due epochs and EXPORT_COMPLETE (R454,
R455, R456, R458, R476, R477, R478, R498). -/

namespace Sys2Proof.Machine

/-- A command of one of the eight instances completes on a working block with its effect. -/
theorem does_of_estimator {n : Instr} {s : State} {i : Nat} {f : Chip → Nat → Chip} {c : Chip} (hs : s.live = true)
    (hi : i < 8) (he : exec n s = work (fun c => if i < 8 then f c i else c) s) (hc : f s.chip i = c) : Does n s c :=
  does_of_work hs he ((if_pos hi).trans hc)

/-! ### Steps of a frame (R454, R455, R456, R458) -/

theorem does_frameProcessingStart {s : State} {i : Nat} {c : Chip} (hs : s.live = true) (hi : i < 8)
    (hc : s.chip.frameStep i = c) : Does (.frameProcessingStart i) s c :=
  does_of_estimator (f := Chip.frameStep) hs hi rfl hc

section
variable {c c1 : Chip} {i : Nat} (hc1 : (c.takeInjected i).sendClosure i = c1)
include hc1

/-- An estimator that is in none of INIT, TRACKING and LOST processes no frame. -/
theorem frameStep_notProcessing (hinit : (c1.est i).mode ≠ .init) (htracking : (c1.est i).mode ≠ .tracking)
    (hlost : (c1.est i).mode ≠ .lost) : c.frameStep i = c1 := by
  simp [Chip.frameStep, hc1, hinit, htracking, hlost]

variable (hmode : (c1.est i).mode = .tracking) (hgated : c1.computeGated = false)
include hmode hgated

/-- R454: with no frame in processing the next one begins. -/
theorem frameStep_begins (hcur : (c1.est i).cur = none) : c.frameStep i = c1.beginFrame i := by
  simp [Chip.frameStep, hc1, hmode, hgated, hcur]

/-- R458: a frame that waits for its descriptors goes on with them. -/
theorem frameStep_describes {f : EstFrame} (hcur : (c1.est i).cur = some f) (hstage : f.stage = .describe) :
    c.frameStep i = c1.describeStep i f := by
  simp [Chip.frameStep, hc1, hmode, hgated, hcur, hstage]

end

/-! ### Closures (R476, R477, R478) -/

theorem does_closureDue {s : State} {i : Nat} {c : Chip} (hs : s.live = true) (hi : i < 8)
    (hc : s.chip.closureDue i = c) : Does (.closureDue i) s c :=
  does_of_estimator (f := Chip.closureDue) hs hi rfl hc

section
variable {c : Chip} {i : Nat} {q : EstClosure} (hclosure : (c.est i).closure = some q)
include hclosure

/-- Before its due epoch a closure neither applies nor is missed. -/
theorem closureDue_early (hdue : reached c.posNat q.due = false) : c.closureDue i = c := by
  simp [Chip.closureDue, hclosure, hdue]

variable (hdue : reached c.posNat q.due = true)
include hdue

/-- R477: a closure solved by its due epoch is kept for the next frame's start, and counted. -/
theorem closureDue_met {tok : Nat} (hsolved : q.solved = some tok) : c.closureDue i =
    ((c.estClosed i true).setEst i { c.est i with
      closure := none, apply := some (tok, q), loopFlag := some c.now }).dinc (entEst i 0x3030 17) := by
  simp [Chip.closureDue, hclosure, hdue, hsolved]

/-- R478: one that is not solved by then is missed: its loop edge goes, and the miss is counted. -/
theorem closureDue_missed (hsolved : q.solved = none) : c.closureDue i =
    ((c.estClosed i true).setEst i { c.est i with
      closure := none
      edges := (c.est i).edges.filter (fun x => !(x.loop && x.first == q.first && x.second == q.second)) }).dinc
        (entEst i 0x3030 15) := by
  simp [Chip.closureDue, hclosure, hdue, hsolved]

end

/-! ### Exports (R498) -/

/-- R498: the snapshot is written to the tensor of EXPORT, and EXPORT_STATUS is DONE. -/
theorem exportDone_snapshot {c : Chip} {i : Nat} {bs : List Byte} (hsnapshot : (c.est i).snapshot = some bs) :
    c.exportDone i =
      (let c1 := (c.engineWrite (exportTensor i) 0 bs 0x0020 i).1
       (c1.setEst i { c1.est i with snapshot := none }).dset (entEst i 0x3020 6) 2) := by
  simp only [Chip.exportDone, hsnapshot]

/-! ### The commands -/

/-- Settles O53, a clause at a time: each command is one of an estimator's, and its effect in the clause's case is the
lemma's. -/
theorem estimatorCommandsComplete : Obligations.EstimatorCommandsComplete := by
  refine ⟨?frameIdle, ?frameBegin, ?frameResume, ?closureMet, ?closureMissed, ?closureEarly, ?exported⟩
  case frameIdle =>
    exact fun s i hs hi hinit htracking hlost =>
      does_frameProcessingStart hs hi (frameStep_notProcessing rfl hinit htracking hlost)
  case frameBegin =>
    exact fun s i hs hi hmode hgated hcur => does_frameProcessingStart hs hi (frameStep_begins rfl hmode hgated hcur)
  case frameResume =>
    exact fun s i f hs hi hmode hgated hcur hstage =>
      does_frameProcessingStart hs hi (frameStep_describes rfl hmode hgated hcur hstage)
  case closureMet =>
    exact fun s i tok q hs hi hclosure hdue hsolved => does_closureDue hs hi (closureDue_met hclosure hdue hsolved)
  case closureMissed =>
    exact fun s i q hs hi hclosure hdue hsolved => does_closureDue hs hi (closureDue_missed hclosure hdue hsolved)
  case closureEarly =>
    exact fun s i q hs hi hclosure hdue => does_closureDue hs hi (closureDue_early hclosure hdue)
  case exported =>
    exact fun s i bs hs hi hsnapshot =>
      does_of_estimator (f := Chip.exportDone) hs hi rfl (exportDone_snapshot hsnapshot)

end Sys2Proof.Machine
end

section
/-! SUPPORT. The solver lanes: pivots that are regularised, a request's start, its result and its evaluations (R519, R528 to
R531, R538, R541). -/

namespace Sys2Proof.Machine

/-! ### Pivots (R528 to R531) -/

/-- R528: the threshold of a diagonal position whose damped value is h. -/
def Tabl.pivotThreshold (t : Tabl) (h : Nat) : Nat :=
  add64 (mul64 (to64 t.pivotRel) (Fmt.f64.abs h)) (to64 t.pivotAbs)

/-- R531, for both kinds. -/
theorem pivot_nan {t : Tabl} {d : Nat} (h : Nat) (hnan : Fmt.f64.isNan d = true) :
    pivot t h d = (t.pivotThreshold h, true, true) := if_pos hnan

section
variable {t : Tabl} {d : Nat} (h : Nat) (hnan : Fmt.f64.isNan d = false)
include hnan

/-- R529. -/
theorem pivot_cholesky (hkind : t.kind = 0) : pivot t h d =
    if Fmt.f64.lt d (t.pivotThreshold h) then (t.pivotThreshold h, true, false) else (d, false, false) :=
  (if_neg (Bool.eq_false_iff.1 hnan)).trans (if_pos hkind)

/-- R530. -/
theorem pivot_ldlt (hkind : t.kind ≠ 0) : pivot t h d =
    if Fmt.f64.lt (Fmt.f64.abs d) (t.pivotThreshold h) then
      (if Fmt.f64.lt d 0 then (neg64 (t.pivotThreshold h), true, false) else (t.pivotThreshold h, true, false))
    else (d, false, false) :=
  (if_neg (Bool.eq_false_iff.1 hnan)).trans (if_neg hkind)

end

/-- Settles O33: the cases of `pivot` are the NaN, then Cholesky, then LDLᵀ by magnitude and sign. -/
theorem pivotsAreRegularised : Obligations.PivotsAreRegularised := by
  intro t h d
  refine ⟨?nan, ?cholesky, ?positive, ?negative, ?large⟩
  case nan => exact fun hnan => congrArg Prod.fst (pivot_nan h hnan)
  case cholesky =>
    exact fun hnan hkind => (congrArg Prod.fst (pivot_cholesky h hnan hkind)).trans (apply_ite Prod.fst _ _ _)
  case positive =>
    exact fun hnan hkind hsmall hsign =>
      congrArg Prod.fst ((pivot_ldlt h hnan hkind).trans
        ((if_pos hsmall).trans (if_neg (Bool.eq_false_iff.1 hsign))))
  case negative =>
    exact fun hnan hkind hsmall hsign =>
      congrArg Prod.fst ((pivot_ldlt h hnan hkind).trans ((if_pos hsmall).trans (if_pos hsign)))
  case large =>
    exact fun hnan hkind hlarge =>
      congrArg Prod.fst ((pivot_ldlt h hnan hkind).trans (if_neg (Bool.eq_false_iff.1 hlarge)))

/-! ### The start of a request (R519) -/

theorem does_solverRequestStart {s : State} {l : Nat} {c : Chip} (hs : s.live = true) (hc : s.chip.laneStart l = c) :
    Does (.solverRequestStart l) s c :=
  does_of_work hs (f := fun c => c.laneStart l) rfl hc

section
variable {c : Chip} {l : Nat} {r : SolveReq} (hgated : c.computeGated = false) (hretired : c.isRetired (.lane l) = false)
  (hrunning : (c.lane l).running = some r) (hstarted : r.started = false)
include hgated hretired hrunning hstarted

/-- R519: a voice's request starts with its result space and its merge. -/
theorem laneStart_voice (hest : r.est = none) : c.laneStart l = c.startRequest l r := by
  simp [Chip.laneStart, hgated, hretired, hrunning, hstarted, hest]

/-- An estimator's request starts at once. -/
theorem laneStart_estimator (hest : r.est ≠ none) :
    c.laneStart l = c.setLane l { c.lane l with running := some { r with started := true } } := by
  simp [Chip.laneStart, hgated, hretired, hrunning, hstarted, Option.isSome_iff_ne_none.2 hest]

end

/-! ### The result of a request (R504, R541) -/

/-- What SOLVER_RESULT_WRITE does on a chip that works: an estimator's request that ended solved goes on with its frame. -/
def Chip.writeLane (c : Chip) (l : Nat) : Chip :=
  match c.laneResult l with
  | (c1, some r) => c1.estSolved r
  | (c1, none) => c1

theorem does_solverResultWrite {s : State} {l : Nat} {c : Chip} (hs : s.live = true) (hc : s.chip.writeLane l = c) :
    Does (.solverResultWrite l) s c :=
  does_of_work hs (f := fun c => c.writeLane l) rfl hc

section
variable {c : Chip} {l : Nat} {r : SolveReq} (hrunning : (c.lane l).running = some r)
include hrunning

/-- R541: a request that cannot write its result yet waits. -/
theorem writeLane_waits (hwrite : c.canWrite l r = false) : c.writeLane l = c := by
  simp [Chip.writeLane, Chip.laneResult, hrunning, hwrite]

variable (hwrite : c.canWrite l r = true)
include hwrite

/-- The counts of an estimator's solve are free, and its frame goes on. -/
theorem writeLane_estimator {i f : Nat} {kind : EstSolve} (hest : r.est = some (i, kind, f)) : c.writeLane l =
    (let f1 := c.fresh (.estSolve i)
     let f2 := f1.1.fresh (.estSolve i)
     let f3 := f2.1.fresh (.estSolve i)
     let f4 := f3.1.fresh (.estSolve i)
     (((f4.1.countSolved l (f1.2 % m32) (f2.2 % m32) f3.2 f4.2).closeRequest r 0 0).nextRequest l).estSolved r) := by
  simp [Chip.writeLane, Chip.laneResult, hrunning, hwrite, hest]

variable {x : Tablature} (hest : r.est = none) (htab : c.tablature? r.tab = some x)
include hest htab

/-- R504: a voice's request writes RESULT where it still may. -/
theorem writeLane_voice (hcode : c.writeCheck r.voice r.result = 0) : c.writeLane l = c.writeSolved l r x := by
  simp [Chip.writeLane, Chip.laneResult, hrunning, hwrite, hest, htab, hcode]

/-- One whose RESULT it may no longer write fails with the check's code. -/
theorem writeLane_refused (hcode : c.writeCheck r.voice r.result ≠ 0) :
    c.writeLane l = c.failRequest l r (c.writeCheck r.voice r.result) := by
  simp [Chip.writeLane, Chip.laneResult, hrunning, hwrite, hest, htab, hcode]

end

/-! ### Evaluations between iterations (R538) -/

/-- What FACTOR_REEVALUATION does on a chip that works. -/
def Chip.reevaluate (c : Chip) (l : Nat) : Chip :=
  match (c.lane l).running with
  | some r =>
    if r.est.isSome && r.started && !c.computeGated && decide (r.evals + 1 < r.iterations) then
      c.setLane l { c.lane l with running := some { r with evals := r.evals + 1 } }
    else c
  | none => c

theorem does_factorReevaluation {s : State} {l : Nat} {c : Chip} (hs : s.live = true) (hc : s.chip.reevaluate l = c) :
    Does (.factorReevaluation l) s c :=
  does_of_work hs (f := fun c => c.reevaluate l) rfl hc

section
variable {c : Chip} {l : Nat} {r : SolveReq} (hrunning : (c.lane l).running = some r)
include hrunning

/-- R538: each iteration of a started estimator's request but the last has an evaluation after it. -/
theorem reevaluate_counts (hest : r.est.isSome = true) (hstarted : r.started = true) (hgated : c.computeGated = false)
    (hmore : r.evals + 1 < r.iterations) :
    c.reevaluate l = c.setLane l { c.lane l with running := some { r with evals := r.evals + 1 } } := by
  simp [Chip.reevaluate, hrunning, hest, hstarted, hgated, hmore]

theorem reevaluate_last (hlast : r.iterations ≤ r.evals + 1) : c.reevaluate l = c := by
  simp [Chip.reevaluate, hrunning, hlast.not_gt]

end

end Sys2Proof.Machine
end

section
/-! SUPPORT. RUN_PASSAGE, RUN_TABLATURE and SOLVE_DELTA, and the runs of passages on the arrays (R517, R518, R540, R569 to
R584). -/

namespace Sys2Proof.Machine

/-! ### The commands that ask for a solve or a run (R517, R540, R569) -/

/-- A voice's admitted command of a working block completes with its effect. -/
theorem does_of_workCommand {i : Instr} {s : State} {v : Nat} {f : Chip → Chip} {c : Chip} (hs : s.live = true) (hv : v < 16)
    (ha : s.chip.admits = true) (he : exec i s = work (fun c => if v < 16 ∧ c.admits then f c else c) s)
    (hc : f s.chip = c) : Does i s c :=
  does_of_work hs he ((if_pos ⟨hv, ha⟩).trans hc)

theorem does_runTablature {s : State} {v : Nat} {c : Chip} (hs : s.live = true) (hv : v < 16) (ha : s.chip.admits = true)
    (hc : s.chip.runSolve v 2 = c) : Does (.runTablature v) s c :=
  does_of_workCommand hs hv ha (f := fun c => c.runSolve v 2) rfl hc

theorem does_solveDelta {s : State} {v : Nat} {c : Chip} (hs : s.live = true) (hv : v < 16) (ha : s.chip.admits = true)
    (hc : s.chip.runSolve v 3 = c) : Does (.solveDelta v) s c :=
  does_of_workCommand hs hv ha (f := fun c => c.runSolve v 3) rfl hc

theorem does_runPassage {s : State} {v : Nat} {c : Chip} (hs : s.live = true) (hv : v < 16) (ha : s.chip.admits = true)
    (hc : s.chip.runPassage v = c) : Does (.runPassage v) s c :=
  does_of_workCommand hs hv ha (f := fun c => c.runPassage v) rfl hc

/-- R517, R540: a solve that its checks allow is accepted, where its due cue has its ledger entry. -/
theorem runSolve_accepted {c : Chip} {v opcode : Nat} {a : Admitted} (h : c.admittedAs v opcode = some a)
    (hcode : c.solveCheck v a = 0) (hroom : a.arg 0x10 8 = 0 ∨ c.ledgerRoom v = true) :
    c.runSolve v opcode = c.acceptSolve v a := by
  have hentry : ¬(a.arg 0x10 8 ≠ 0 ∧ (!c.ledgerRoom v) = true) := by
    rintro ⟨hdue, hfull⟩
    simp [hroom.resolve_left hdue] at hfull
  simp only [Chip.runSolve, h]
  rw [if_neg (not_not.2 hcode), if_neg hentry]

/-- A solve that a check refuses completes with its code. -/
theorem runSolve_refused {c : Chip} {v opcode : Nat} {a : Admitted} (h : c.admittedAs v opcode = some a)
    (hcode : c.solveCheck v a ≠ 0) : c.runSolve v opcode = c.finish v a (c.solveCheck v a) 0 0 := by
  simp only [Chip.runSolve, h]
  exact if_pos hcode

/-- R569, R571 to R573: the passage is loaded, its tensors are named in the ledger, and the request reaches it. -/
theorem runPassage_accepted {c : Chip} {v : Nat} {a : Admitted} (h : c.admittedAs v 1 = some a)
    (hcode : c.passageCheck v a = 0) : c.runPassage v =
      (let t := a.arg 8 4
       let bind := a.arg 0x10 4
       let ts := resolveSlots (Pass.ofBytes (c.contents t)) (bindingEntries (if bind = 0 then [] else c.contents bind))
       (((c.takeUp v).loadPassage v t).ledgerName v .ring a.tag
         (t :: ts.filter (· ≠ 0) ++ (if bind = 0 then [] else [bind]))).offerRun t
         { voice := v, tag := a.tag, cookie := a.cookie, irq := a.irq, admitted := c.now, born := a.born
           image := c.contents t, tensors := ts }) := by
  simp only [Chip.runPassage, h]
  exact if_neg (not_not.2 hcode)

theorem runPassage_refused {c : Chip} {v : Nat} {a : Admitted} (h : c.admittedAs v 1 = some a)
    (hcode : c.passageCheck v a ≠ 0) : c.runPassage v = c.finish v a (c.passageCheck v a) 0 0 := by
  simp only [Chip.runPassage, h]
  exact if_pos hcode

/-! ### The start of a run (R575) -/

theorem does_passageRunStart {s : State} {p : Nat} {c : Chip} (hs : s.live = true) (hc : s.chip.startPassage p = c) :
    Does (.passageRunStart p) s c :=
  does_of_work hs (f := fun c => c.startPassage p) rfl hc

section
variable {c : Chip} {p : Nat} {q : Passage} {r : PassRun} (hq : c.passage? p = some q) (hr : q.running = some r)
  (hgated : c.computeGated = false)
include hq hr hgated

/-- R582, R631: a run that names a tensor it can no longer use ends with the check's code. -/
theorem startPassage_refused (hstarted : r.started = false) (hcode : c.runCheck r ≠ 0) :
    c.startPassage p = c.failRun p r (c.runCheck r) := by
  simp [Chip.startPassage, hq, hr, hgated, hstarted, hcode]

/-- R575: a voice's run starts when its bytes fit its quota and all its homes are placed. -/
theorem startPassage_placed {total : Nat} {placed : List HomePlace} (hstarted : r.started = false) (hcode : c.runCheck r = 0)
    (hest : r.est = none) (htotal : total = ((Pass.ofBytes r.image).homes.map (·.bytes)).foldl (· + ·) 0)
    (hquota : c.refuses r.voice 0 total = false)
    (hfits : (c.evictFor r.voice 0 total).usage r.voice 0 + total ≤ (c.evictFor r.voice 0 total).limitBytes r.voice 0)
    (hplaced : (c.evictFor r.voice 0 total).placeHomes (Pass.ofBytes r.image).homes [] = (placed, none)) :
    c.startPassage p = (c.evictFor r.voice 0 total).setPassage p
      { q with running := some { r with started := true, homes := placed, whole := [] } } := by
  subst htotal
  simp [Chip.startPassage, hq, hr, hgated, hstarted, hcode, hest, hquota, hfits.not_gt, hplaced]

/-! ### The end of an operator (R577, R579) -/

/-- R577, R579: a fed operator ends with its output in its slot, its counts, and its quadrants free. -/
theorem endOperator_fed {j : Nat} {a : ActiveOp} {o : PassOp} {out : List Byte} {sat nan : Nat}
    (hactive : r.active.find? (fun a => a.op == j) = some a) (hop : (Pass.ofBytes r.image).ops[j]? = some o)
    (hfed : c.opFed p r (Pass.ofBytes r.image) o = true)
    (hout : (Pass.ofBytes r.image).compute o (c.slotBytes r (Pass.ofBytes r.image) o.inp)
      (c.slotBytes r (Pass.ofBytes r.image) o.wgt) (c.slotBytes r (Pass.ofBytes r.image) o.bias) = (out, sat, nan)) :
    c.endOperator p j =
      (let w := Pass.ofBytes r.image
       let quad := a.stolen || (w.home o.home).quad
       let cycles := w.cost o quad * (if quad then 1 else 4)
       let used := (o.reads.filter (fun s => (w.slot s).role == 0 || (w.slot s).role == 2)).map (fun s => r.tensors.getD s 0)
       let c1 := (c.setTierMem 0 (c.tier0.writeBytes (r.slotAddr o.out) out)).each used Chip.useTensor
       (((((c1.dinc (arrayKey a.array 5)).dadd (arrayKey a.array 8) sat).dadd (arrayKey a.array 9) nan).dadd64
         (arrayKey a.array 10) cycles).dadd64 (arrayKey a.array 13) (if o.op ≤ 2 then (w.slot o.wgt).bytes else 0)).setPassage
         p { q with running := some { r with
               active := r.active.filter (fun x => x.op ≠ j), ended := r.ended ++ [j]
               arrays := setBit r.arrays a.array, qcycles := r.qcycles + cycles } }) := by
  have hruns : (c.computeGated || !c.opFed p r (Pass.ofBytes r.image) o) ≠ true := by simp [hgated, hfed]
  simp only [Chip.endOperator, hq, hr, hactive, hop, hout]
  exact if_neg hruns

end

theorem does_operatorEnd {s : State} {p j : Nat} {c : Chip} (hs : s.live = true) (hc : s.chip.endOperator p j = c) :
    Does (.operatorEnd p j) s c :=
  does_of_work hs (f := fun c => c.endOperator p j) rfl hc

/-! ### A cycle of grants (R555, R556, R584) -/

/-- R555, R584: every array grants, then operators are stolen for arrays that no full-array operator holds. -/
theorem grantCycle_ungated {c : Chip} (hgated : c.computeGated = false) : c.grantCycle =
    (let g := c.liveArrays.foldl (fun (acc : Chip × List Nat) a =>
      ((acc.1.grantArray a 4).1, if (acc.1.grantArray a 4).2 then acc.2 ++ [a] else acc.2)) (c, [])
     g.1.stealOps g.2) :=
  if_neg (Bool.eq_false_iff.1 hgated)

/-! ### The end of a run (R581) -/

/-- What PASSAGE_RUN_COMPLETE does on a chip that works: an estimator's run goes on with its frame. -/
def Chip.passRun (c : Chip) (p : Nat) : Chip :=
  match c.completeRun p with
  | (c1, some (r, out)) => match r.est with
    | some (i, desc, f) => c1.modelDone i desc f r.image out
    | none => c1
  | (c1, none) => c1

theorem does_passageRunComplete {s : State} {p : Nat} {c : Chip} (hs : s.live = true) (hc : s.chip.passRun p = c) :
    Does (.passageRunComplete p) s c :=
  does_of_work hs (f := fun c => c.passRun p) rfl hc

section
variable {c : Chip} {p : Nat} {q : Passage} {r : PassRun} (hq : c.passage? p = some q) (hr : q.running = some r)
include hq hr

/-- A run with an operator that has not ended goes on. -/
theorem completeRun_goesOn (hleft : (List.range (Pass.ofBytes r.image).ops.length).all r.ended.contains = false) :
    c.completeRun p = (c, none) := by
  simp only [Chip.completeRun, hq, hr]
  exact if_pos (by rw [hleft, Bool.not_false, Bool.or_true])

variable (hgated : c.computeGated = false) (hstarted : r.started = true)
  (hended : (List.range (Pass.ofBytes r.image).ops.length).all r.ended.contains = true)
include hgated hstarted hended

/-- A run whose operators have all ended is answered to its estimator, or checked once more and its outputs taken. -/
theorem completeRun_ended : c.completeRun p =
    if r.est.isSome then (c.nextRun p, some (r, c.slotBytes r (Pass.ofBytes r.image) 1))
    else if c.runCheck r ≠ 0 then (c.failRun p r (c.runCheck r), none)
    else (((c.takeOutputs r).closeRun r 0 r.arrays r.qcycles).nextRun p, none) := by
  simp only [Chip.completeRun, hq, hr]
  exact if_neg (by rw [hstarted, hgated, hended]; decide)

/-- R581: the outputs of a voice's run become current, and its command completes. -/
theorem completeRun_voice (hest : r.est = none) (hcode : c.runCheck r = 0) :
    c.completeRun p = (((c.takeOutputs r).closeRun r 0 r.arrays r.qcycles).nextRun p, none) := by
  rw [completeRun_ended hq hr hgated hstarted hended, if_neg (by simp [hest]), if_neg (not_not.2 hcode)]

/-- An estimator's run answers its output bytes. -/
theorem completeRun_estimator (hest : r.est.isSome = true) :
    c.completeRun p = (c.nextRun p, some (r, c.slotBytes r (Pass.ofBytes r.image) 1)) :=
  (completeRun_ended hq hr hgated hstarted hended).trans (if_pos hest)

end

theorem passRun_unanswered {c c1 : Chip} {p : Nat} (h : c.completeRun p = (c1, none)) : c.passRun p = c1 := by
  simp only [Chip.passRun, h]

theorem passRun_answered {c c1 : Chip} {p i f : Nat} {desc : Bool} {r : PassRun} {out : List Byte}
    (h : c.completeRun p = (c1, some (r, out))) (hest : r.est = some (i, desc, f)) :
    c.passRun p = c1.modelDone i desc f r.image out := by
  simp only [Chip.passRun, h, hest]

/-! ### The commands -/

/-- Settles O54, a clause at a time: each command is a `work`, and its effect in the clause's case is the lemma's. -/
theorem solverAndArrayCommandsComplete : Obligations.SolverAndArrayCommandsComplete := by
  refine ⟨?start, ?startEst, ?result, ?resultLost, ?resultEst, ?resultWaits, ?reeval, ?reevalLast, ?runPassage,
    ?runPassageBad, ?runTablature, ?runTablatureBad, ?solveDelta, ?solveDeltaBad, ?passStart, ?passStartFails, ?grant,
    ?opEnd, ?passDone, ?passDoneEst, ?passNotDone⟩
  case start =>
    exact fun s l r hs hgated hretired hrunning hstarted hest =>
      does_solverRequestStart hs (laneStart_voice hgated hretired hrunning hstarted hest)
  case startEst =>
    exact fun s l r hs hgated hretired hrunning hstarted hest =>
      does_solverRequestStart hs (laneStart_estimator hgated hretired hrunning hstarted hest)
  case result =>
    exact fun s l r x hs hrunning hwrite hest htab hcode =>
      does_solverResultWrite hs (writeLane_voice hrunning hwrite hest htab hcode)
  case resultLost =>
    exact fun s l r x hs hrunning hwrite hest htab hcode =>
      does_solverResultWrite hs (writeLane_refused hrunning hwrite hest htab hcode)
  case resultEst =>
    exact fun s l i f kind r hs hrunning hwrite hest =>
      does_solverResultWrite hs (writeLane_estimator hrunning hwrite hest)
  case resultWaits =>
    exact fun s l r hs hrunning hwrite => does_solverResultWrite hs (writeLane_waits hrunning hwrite)
  case reeval =>
    exact fun s l r hs hrunning hest hstarted hgated hmore =>
      does_factorReevaluation hs (reevaluate_counts hrunning hest hstarted hgated hmore)
  case reevalLast =>
    exact fun s l r hs hrunning hlast => does_factorReevaluation hs (reevaluate_last hrunning hlast)
  case runPassage =>
    exact fun s v a hs hv ha hadmitted hop hcode =>
      does_runPassage hs hv ha (runPassage_accepted (admittedAs_some hadmitted hop) hcode)
  case runPassageBad =>
    exact fun s v a hs hv ha hadmitted hop hcode =>
      does_runPassage hs hv ha (runPassage_refused (admittedAs_some hadmitted hop) hcode)
  case runTablature =>
    exact fun s v a hs hv ha hadmitted hop hcode hroom =>
      does_runTablature hs hv ha (runSolve_accepted (admittedAs_some hadmitted hop) hcode hroom)
  case runTablatureBad =>
    exact fun s v a hs hv ha hadmitted hop hcode =>
      does_runTablature hs hv ha (runSolve_refused (admittedAs_some hadmitted hop) hcode)
  case solveDelta =>
    exact fun s v a hs hv ha hadmitted hop hcode hroom =>
      does_solveDelta hs hv ha (runSolve_accepted (admittedAs_some hadmitted hop) hcode hroom)
  case solveDeltaBad =>
    exact fun s v a hs hv ha hadmitted hop hcode =>
      does_solveDelta hs hv ha (runSolve_refused (admittedAs_some hadmitted hop) hcode)
  case passStart =>
    exact fun s p q r total placed hs hq hr hgated hstarted hcode hest htotal hquota hfits hplaced =>
      does_passageRunStart hs (startPassage_placed hq hr hgated hstarted hcode hest htotal hquota hfits hplaced)
  case passStartFails =>
    exact fun s p q r hs hq hr hgated hstarted hcode =>
      does_passageRunStart hs (startPassage_refused hq hr hgated hstarted hcode)
  case grant =>
    exact fun s hs hgated => does_of_work hs (f := Chip.grantCycle) rfl (grantCycle_ungated hgated)
  case opEnd =>
    exact fun s p j q r a o out sat nan hs hq hr hgated hactive hop hfed hout =>
      does_operatorEnd hs (endOperator_fed hq hr hgated hactive hop hfed hout)
  case passDone =>
    exact fun s p q r hs hq hr hgated hstarted hended hest hcode =>
      does_passageRunComplete hs (passRun_unanswered (completeRun_voice hq hr hgated hstarted hended hest hcode))
  case passDoneEst =>
    exact fun s p i f d q r hs hq hr hgated hstarted hended hest =>
      does_passageRunComplete hs
        (passRun_answered (completeRun_estimator hq hr hgated hstarted hended (by simp [hest])) hest)
  case passNotDone =>
    exact fun s p q r hs hq hr _ hleft =>
      does_passageRunComplete hs (passRun_unanswered (completeRun_goesOn hq hr hleft))

end Sys2Proof.Machine
end

section
/-! SUPPORT. The granules of the tiers, and the charge of a copy as its size rounded up to the granule (R614, Table 12.2). -/

namespace Sys2Proof.Machine

theorem granule_pos (tier : Nat) : 0 < granule tier := by
  unfold granule
  split
  · decide
  · split <;> decide

theorem granule_dvd_charge (tier size : Nat) : granule tier ∣ charge tier size :=
  Nat.dvd_mul_left ..

/-- Rounding up drops what `size + granule - 1` has beyond a whole number of granules; a remainder is below the granule,
so both bounds of R614 follow. -/
theorem charge_add_mod (tier size : Nat) :
    charge tier size + (size + granule tier - 1) % granule tier = size + granule tier - 1 :=
  Nat.div_add_mod' ..

theorem le_charge (tier size : Nat) : size ≤ charge tier size := by
  have hmod := Nat.mod_lt (size + granule tier - 1) (granule_pos tier)
  have hsum := charge_add_mod tier size
  omega

theorem charge_lt (tier size : Nat) : charge tier size < size + granule tier := by
  have hpos := granule_pos tier
  have hsum := charge_add_mod tier size
  omega

/-- Settles O32: the charge is a whole number of granules, and by `charge_add_mod` it stands less than one above the size. -/
theorem chargesRoundUpToTheGranule : Obligations.ChargesRoundUpToTheGranule := fun tier size =>
  ⟨Nat.mod_eq_zero_of_dvd (granule_dvd_charge tier size), le_charge tier size, charge_lt tier size⟩

end Sys2Proof.Machine
end

section
/-! SUPPORT. What every command keeps: the queue, an engine held in RESET (R804, R856), the straps (R805), retired units (R774)
and FAULTED (R782, R807). Each is a case of `exec_cases`: an ordinary command, or one of the resets. -/

namespace Sys2Proof.Machine

/-! ### The queue -/

/-- Settles O1: the laws of `step` on the two forms of the queue. -/
theorem stepRunsTheFrontCommand : Obligations.StepRunsTheFrontCommand :=
  ⟨step_front, step_idle⟩

theorem Ordinary.pending {s t : State} {o : Host.Outcome State Fault Refusal} (h : Ordinary s o) (ho : o = .next t) :
    t.pending = s.pending := by
  obtain ⟨hheld, hrunning⟩ := h
  cases hoff : s.chip.off with
  | true =>
    obtain ⟨pin, -, hnext⟩ := hheld hoff
    cases hnext.symm.trans ho; rfl
  | false =>
    obtain ⟨c, r, hnext⟩ := hrunning hoff
    cases hnext.symm.trans ho; rfl

theorem runReset_pending {f : Chip → Chip} {s t : State} (ho : runReset f s = .next t) : t.pending = s.pending := by
  cases ho; rfl

theorem powerOnReset_pending {mode ident : Nat} {s t : State} (ho : exec (.powerOnReset mode ident) s = .next t) :
    t.pending = s.pending := by
  cases hclock : s.chip.board.refclk with
  | false => exact runReset_pending ((exec_powerOnReset_noClock mode ident s hclock).symm.trans ho)
  | true =>
    by_cases hmode : mode % 4 = 3
    · cases (exec_powerOnReset_test mode ident s hclock hmode).symm.trans ho
    · exact runReset_pending ((exec_powerOnReset_cold mode ident s hclock hmode).symm.trans ho)

theorem refclk25Return_pending {mode ident : Nat} {s t : State} (ho : exec (.refclk25Return mode ident) s = .next t) :
    t.pending = s.pending := by
  cases hclock : s.chip.board.refclk with
  | true => cases (exec_refclk25Return_clocked mode ident s hclock).symm.trans ho; rfl
  | false =>
    cases hporst : s.chip.board.porstLow with
    | true => exact runReset_pending ((exec_refclk25Return_held mode ident s hclock hporst).symm.trans ho)
    | false =>
      by_cases hmode : mode % 4 = 3
      · cases (exec_refclk25Return_test mode ident s hclock hporst hmode).symm.trans ho
      · exact runReset_pending ((exec_refclk25Return_cold mode ident s hclock hporst hmode).symm.trans ho)

/-- Settles O2: an ordinary command and every reset answer with the queue they found. -/
theorem commandsLeaveTheQueue : Obligations.CommandsLeaveTheQueue := by
  intro i s t ho
  obtain h | ⟨mode, ident, rfl⟩ | rfl | ⟨mode, ident, rfl⟩ | rfl | ⟨ir, rfl⟩ := exec_cases i
  · exact (exec_ordinary i h s).pending ho
  · exact powerOnReset_pending ho
  · exact runReset_pending (f := Chip.refclkLost) ho
  · exact refclk25Return_pending ho
  · exact runReset_pending (f := fun c => c.warmReset 2) ho
  · exact runReset_pending (f := fun c => { c with tap := Tap.load ir c.board.porstLow }) ho

/-! ### Commands that are no cold reset -/

/-- What a command that is no cold reset makes of the chip: a held engine's pins move, a running one keeps what stays until a
cold reset, WARMRST_N falls, or the test access port takes an instruction. -/
theorem exec_warm_cases {i : Instr} {s t : State} (hwarm : i.coldReset = false) (ho : exec i s = .next t) :
    (s.chip.off = true ∧ ∃ pin : Board → Board, (∀ b, (pin b).porstLow = b.porstLow ∧ (pin b).refclk = b.refclk) ∧
      t.chip = { s.chip with board := pin s.chip.board }) ∨
    (s.chip.off = false ∧ ∃ c : Chip, t.chip = c.untilColdReset s.chip) ∨
    t.chip = s.chip.warmReset 2 ∨ (∃ tap : Tap, t.chip = { s.chip with tap := tap }) := by
  obtain h | ⟨mode, ident, rfl⟩ | rfl | ⟨mode, ident, rfl⟩ | rfl | ⟨ir, rfl⟩ := exec_cases i
  · obtain ⟨hheld, hrunning⟩ := exec_ordinary i h s
    cases hoff : s.chip.off with
    | true =>
      obtain ⟨pin, hpin, hnext⟩ := hheld hoff
      cases hnext.symm.trans ho
      exact .inl ⟨rfl, pin, hpin, rfl⟩
    | false =>
      obtain ⟨c, r, hnext⟩ := hrunning hoff
      cases hnext.symm.trans ho
      exact .inr (.inl ⟨rfl, c, rfl⟩)
  · cases hwarm
  · cases hwarm
  · cases hwarm
  · cases ho; exact .inr (.inr (.inl rfl))
  · cases ho; exact .inr (.inr (.inr ⟨_, rfl⟩))

/-- Settles O4: of a held engine an ordinary command moves pins alone, and it does not notice a warm reset. -/
theorem heldEngineKeepsEverything : Obligations.HeldEngineKeepsEverything := by
  intro i s t hoff hwarm ho
  obtain ⟨-, pin, hpin, hchip⟩ | ⟨hon, -⟩ | hchip | ⟨tap, hchip⟩ := exec_warm_cases hwarm ho
  · rw [hchip]; exact ⟨rfl, hpin s.chip.board⟩
  · cases hoff.symm.trans hon
  · rw [hchip, warmReset_off _ _ hoff]; exact ⟨rfl, rfl, rfl⟩
  · rw [hchip]; exact ⟨rfl, rfl, rfl⟩

/-- Settles O6: what stays until a cold reset holds the retired units, and so does a warm reset. -/
theorem retiredUnitsStayRetired : Obligations.RetiredUnitsStayRetired := by
  intro i s t u hwarm ho hu
  obtain ⟨-, pin, -, hchip⟩ | ⟨-, c, hchip⟩ | hchip | ⟨tap, hchip⟩ := exec_warm_cases hwarm ho
  · rw [hchip]; exact hu
  · rw [hchip]; exact until_retired c s.chip u hu
  · obtain ⟨-, -, -, -, hretired⟩ := warmReset_keeps s.chip 2
    rw [hchip]; exact hretired u hu
  · rw [hchip]; exact hu

/-! ### The straps -/

theorem coldReset_of_ordinary {i : Instr} (h : ordinaryCommand i = true) : i.coldReset = false := by
  unfold Instr.coldReset
  split
  case h_4 => rfl
  all_goals cases h

theorem warmReset_straps (c : Chip) (cause : Nat) : (c.warmReset cause).straps = c.straps := by
  obtain ⟨hstraps, -⟩ := warmReset_keeps c cause
  exact hstraps

/-- R856: the loss of REFCLK_25 samples no straps. -/
theorem refclkLost_straps (c : Chip) : c.refclkLost.straps = c.straps := by
  obtain ⟨-, -, hstraps⟩ := held_cleared c
  exact hstraps

/-- R805: a cold reset samples MODE and ID. -/
theorem coldReset_straps (c : Chip) (mode ident : Nat) : (c.coldReset mode ident).straps = strapsOf mode ident := by
  simp only [Chip.coldReset, until_straps]

/-- Settles O5: POWER_ON_RESET with the clock running is a cold reset, and no command outside the two samples the straps. -/
theorem strapsAreSampledOnlyAtColdResets : Obligations.StrapsAreSampledOnlyAtColdResets := by
  constructor
  · intro i s t hpor hreturn ho
    cases hcold : i.coldReset with
    | true =>
      obtain h | ⟨mode, ident, rfl⟩ | rfl | ⟨mode, ident, rfl⟩ | rfl | ⟨ir, rfl⟩ := exec_cases i
      · cases (coldReset_of_ordinary h).symm.trans hcold
      · exact absurd rfl (hpor mode ident)
      · cases ho; exact refclkLost_straps s.chip
      · exact absurd rfl (hreturn mode ident)
      · cases hcold
      · cases hcold
    | false =>
      obtain ⟨-, pin, -, hchip⟩ | ⟨-, c, hchip⟩ | hchip | ⟨tap, hchip⟩ := exec_warm_cases hcold ho
      · rw [hchip]
      · rw [hchip]; exact until_straps c s.chip
      · rw [hchip]; exact warmReset_straps s.chip 2
      · rw [hchip]
  · intro mode ident s t hclock ho
    by_cases hmode : mode % 4 = 3
    · cases (exec_powerOnReset_test mode ident s hclock hmode).symm.trans ho
    · cases (exec_powerOnReset_cold mode ident s hclock hmode).symm.trans ho
      exact coldReset_straps ..

/-! ### FAULTED and warm resets without effect -/

theorem warmReset_faulted {c : Chip} (cause : Nat) (h : c.engine = .faulted) : c.warmReset cause = c := by
  obtain ⟨-, hfaulted, -⟩ := warmReset_keeps c cause
  exact hfaulted h

/-- A function that does not answer takes no write. -/
theorem regWrite_unanswered {c : Chip} {fn : Nat} (offset value be : Nat) (ha : c.answers fn = false) :
    c.regWrite fn offset value be = c := by
  simp [Chip.regWrite, ha]

/-- R782, R807: in FAULTED the key of WARM_RESET_REQ resets nothing. -/
theorem does_warmResetReq_faulted (s : State) (hs : s.on = true) (h : s.chip.engine = .faulted) :
    Does (.warmResetReqWrite 0x57525354) s s.chip := by
  refine does_of_run hs (exec_warmResetReqWrite _ s) ?_
  cases ha : s.chip.answers 0 with
  | true => exact (regWrite_warmResetReq ha).trans (warmReset_faulted 3 h)
  | false => exact regWrite_unanswered _ _ _ ha

theorem leaves_warmrstNFall_faulted (s : State) (h : s.chip.engine = .faulted) : Leaves .warmrstNFall s s.chip := by
  simpa only [warmReset_faulted 2 h] using leaves_warmrstNFall s

/-- Settles O7: what stays until a cold reset holds FAULTED, and a warm reset leaves a FAULTED chip. -/
theorem faultedIsLeftOnlyAtAColdReset : Obligations.FaultedIsLeftOnlyAtAColdReset := by
  refine ⟨fun i s t hwarm hfaulted ho => ?_, leaves_warmrstNFall_faulted, does_warmResetReq_faulted⟩
  obtain ⟨-, pin, -, hchip⟩ | ⟨-, c, hchip⟩ | hchip | ⟨tap, hchip⟩ := exec_warm_cases hwarm ho
  · rw [hchip]; exact hfaulted
  · rw [hchip]; exact until_faulted c s.chip hfaulted
  · rw [hchip, warmReset_faulted 2 hfaulted]; exact hfaulted
  · rw [hchip]; exact hfaulted

/-- Settles O26: with PORST_N low an engine is held in RESET, which notices no warm reset and runs no command. -/
theorem warmResetsWithoutEffect : Obligations.WarmResetsWithoutEffect := by
  have held : ∀ s : State, s.chip.board.porstLow = true → s.chip.off = true := fun s h => by simp [Chip.off, h]
  refine ⟨fun s hnone => ?_, fun s value hporst => ?_, does_warmResetReq_faulted⟩
  · obtain hporst | hfaulted := hnone
    · simpa only [warmReset_off _ 2 (held s hporst)] using leaves_warmrstNFall s
    · exact leaves_warmrstNFall_faulted s hfaulted
  · rw [exec_warmResetReqWrite]; exact run_off _ s (held s hporst)

end Sys2Proof.Machine
end

section
/-! SUPPORT. Routing in dimension order, and a full retry buffer (R662, R668). -/

namespace Sys2Proof.Machine

/-! ### Dimension order (R668) -/

/-- One hop of a packet that is not at its destination. -/
def hopToward (dest here : Nat) : Nat := if here = dest then here else stepTo here (dimensionPort here dest)

theorem hopsBetween_self (here : Nat) : hopsBetween here here = 0 := by simp [hopsBetween]

theorem eq_of_hopsBetween_zero {here dest : Nat} (h : hopsBetween here dest = 0) : here = dest := by
  simp only [hopsBetween] at h
  omega

/-- Every hop comes one string nearer (`hop`), so as many hops as strings lie between reach the destination. -/
theorem hopToward_iterate {here dest : Nat} (hhere : here < 1024) (hdest : dest < 1024) :
    (hopToward dest)^[hopsBetween here dest] here = dest := by
  induction hn : hopsBetween here dest generalizing here with
  | zero => exact eq_of_hopsBetween_zero hn
  | succ n ih =>
    have hne : here ≠ dest := by
      rintro rfl
      rw [hopsBetween_self] at hn
      cases hn
    obtain ⟨hnext, hnear⟩ := hop here dest hhere hdest hne
    rw [Function.iterate_succ_apply, hopToward, if_neg hne]
    exact ih hnext (by omega)

theorem bit_of_lt {n k : Nat} (h : n < 2 ^ k) : bit n k = false := by
  simp [bit, Nat.div_eq_of_lt h]

/-- R668: without a VALID detour a packet takes the port of dimension order, where that is usable. -/
theorem routeOf_undetoured {c : Chip} {here dest : Nat} (h : tabGet 0 c.mesh.detours dest < 0x80) :
    c.routeOf here dest =
      if c.usable (dimensionPort here dest) = true then some (dimensionPort here dest, false) else none := by
  have hinvalid : bit (tabGet 0 c.mesh.detours dest) 7 = false := bit_of_lt h
  simp [Chip.routeOf, hinvalid]

/-- Settles O34: `hopToward_iterate` and `routeOf_undetoured`. -/
theorem dimensionOrderReachesTheDestination : Obligations.DimensionOrderReachesTheDestination :=
  ⟨fun _ _ hhere hdest => hopToward_iterate hhere hdest, fun _ _ _ h => routeOf_undetoured h⟩

/-! ### A full retry buffer (R662) -/

/-- R665: a packet has one flit or more, so that none starts beside 512 that are unacknowledged. -/
theorem canStart_full {x : StringPort} (h : 512 ≤ x.retry.length) (k : Packet) : x.canStart k = false := by
  have hroom : ¬ x.retry.length + flitsOf k ≤ 512 := by simp only [flitsOf]; omega
  simp [StringPort.canStart, hroom]

theorem pick_full {x : StringPort} (h : 512 ≤ x.retry.length) : x.pick = none :=
  List.find?_eq_none.2 (fun k _ => by simp [canStart_full h])

/-- The sender's walk ends where no packet can start. -/
theorem pump_of_pick_none {c : Chip} {p : Nat} (h : (c.str p).pick = none) (n : Nat) : c.pump p n = c := by
  cases n with
  | zero => rfl
  | succ n => simp [Chip.pump, h]

/-- Settles O31: of the waiting packets none can start (`pick_full`). -/
theorem aRetryBufferThatIsFullHoldsDataBack : Obligations.ARetryBufferThatIsFullHoldsDataBack :=
  fun _ _ h => pump_of_pick_none (pick_full h) _

end Sys2Proof.Machine
end

section
/-! SUPPORT. The applied level (R743), the event ring (R786, R787), the signature (R794, R796) and the calibration slot that boot
takes (R828). -/

namespace Sys2Proof.Machine

/-! ### The applied level (R743) -/

/-- R743: after the first entry to READY. -/
theorem targetLevel_started {c : Chip} (h : c.gov.started = true) :
    c.targetLevel = max (Nat.min c.floor (Nat.max c.ceiling (c.dget (govKey 4)))) (max c.tl c.cl) := by
  simp only [Chip.targetLevel, h, if_true]
  rfl

/-- Settles O35: the level is the target (`relevel_level`), the greatest of the three. -/
theorem theAppliedLevelIsTheSlowest : Obligations.TheAppliedLevelIsTheSlowest := by
  intro c hp7 hhold hstarted
  simp only [relevel_level c hp7 hhold, targetLevel_started hstarted]
  refine ⟨le_max_left _ _, le_max_of_le_right (le_max_left _ _), le_max_of_le_right (le_max_right _ _), ?_⟩
  obtain h | h := max_choice (Nat.min c.floor (Nat.max c.ceiling (c.dget (govKey 4)))) (max c.tl c.cl)
  · exact .inl h
  · rw [h]; exact .inr (max_choice _ _)

/-! ### The event ring (R786, R787) -/

/-- R786: the ring holds one event more, cut to 4,096. -/
theorem log_ring_length (c : Chip) (code block inst detail detail2 : Nat) :
    (c.log code block inst detail detail2).faults.ring.length = Nat.min 4096 (c.faults.ring.length + 1) := by
  simp only [Chip.log]
  split <;> split <;> exact (List.length_take ..).trans (congrArg (Nat.min 4096) (insertEvent_length ..))

theorem dget_dsat (c : Chip) (key top j : Nat) :
    (c.dsat key top).dget j = if j = key then Nat.min top (c.dget key + 1) else c.dget j := Chip.dget_dset ..

/-- R787: an event written to a full ring overwrites the oldest one, and counts. -/
theorem log_overflows (c : Chip) (code block inst detail detail2 : Nat) :
    (c.log code block inst detail detail2).dget (ent 0x5820 4) =
      if 4096 ≤ c.faults.ring.length then Nat.min 0xFFFFFFFF (c.dget (ent 0x5820 4) + 1) else c.dget (ent 0x5820 4) := by
  have hpersist : ∀ (b : Bool) (d : Chip), (if b then d.dsat (ent 0x5820 9) 0xFFFFFFFF else d).dget (ent 0x5820 4) =
      d.dget (ent 0x5820 4) := fun b d => by
    cases b
    · rfl
    · exact (dget_dsat ..).trans (if_neg (by decide))
  refine (hpersist ..).trans ?_
  split
  · exact (dget_dsat ..).trans (if_pos rfl)
  · rfl

/-- Settles O29: what one event changes of the ring, of its latest SEQ and of OVERFLOWS. -/
theorem theEventRingHoldsTheLatest4096 : Obligations.TheEventRingHoldsTheLatest4096 := by
  intro c code block inst detail detail2
  obtain ⟨-, -, -, hlatest, -⟩ := log_keeps c code block inst detail detail2
  exact ⟨log_ring_length .., hlatest, log_overflows ..⟩

/-! ### The signature (R794 to R796) -/

/-- R795: the signature of the challenge is stored, and the unit is no longer BUSY. -/
theorem signed_of_signing {c : Chip} (h : c.faults.signing = true) : c.signed =
    { c with faults := { c.faults with signing := false, signature := padTo 64 (Config.signature c.challenge) } } := by
  simp [Chip.signed, h]

/-- Settles O28: the second nonce replaces the first, and what completes is the signature of its challenge. -/
theorem theLatestNonceIsSigned : Obligations.TheLatestNonceIsSigned := by
  intro c old new
  have hsigned := signed_of_signing (c := (c.takeNonce old).takeNonce new) rfl
  rw [hsigned]
  exact ⟨rfl, rfl, rfl, rfl⟩

/-! ### The slot that boot takes (R828) -/

/-- R834: reading the headers changes no slot. -/
theorem chooseSlot_readHeaders (f : Flash) : f.readHeaders.chooseSlot = f.chooseSlot := rfl

/-- Loading the calibration notes in CAL_DEFAULT whether a slot is active. -/
theorem loadCalibration_calDefault (c : Chip) (level : Nat) :
    (c.loadCalibration level).flash.calDefault = c.flash.chooseSlot.isNone := by
  rw [← chooseSlot_readHeaders]; rfl

/-- ACTIVE_SLOT reads the slot that boot chose, or 0xFF. -/
theorem loadCalibration_activeSlot (c : Chip) (level : Nat) :
    (c.loadCalibration level).dget (ent 0x6000 1) = c.flash.chooseSlot.getD 0xFF := by
  rw [← chooseSlot_readHeaders]
  refine (dget_dset_other level (key := ent 0x1018 3) (by decide)).trans ?_
  refine (dget_dset_other level (key := ent 0x1018 2) (by decide)).trans ?_
  refine (dget_dset_other _ (key := ent 0x6000 2) (by decide)).trans ?_
  exact Chip.dget_dset_same ..

/-- Settles O27: `Flash.chooseSlot` by the two slots' validity, and what loading notes of its choice. -/
theorem bootTakesTheLaterSlot : Obligations.BootTakesTheLaterSlot := by
  intro f
  refine ⟨fun ha hb => ?_, fun ha hb => ?_, fun ha hb => ?_, fun ha hb => ?_, ?_⟩
  case refine_5 =>
    rintro c level rfl
    exact ⟨loadCalibration_calDefault c level, loadCalibration_activeSlot c level⟩
  all_goals simp [Flash.chooseSlot, ha, hb]

end Sys2Proof.Machine
end

section
/-! SUPPORT. Strings: lane lock, training, the rack tick, and the flits, the replay and the credits of a link (R638 to R664). -/

namespace Sys2Proof.Machine

/-- A command of one of the six strings completes on a running engine with its effect. -/
theorem does_of_strRun {i : Instr} {s : State} {p : Nat} {f : Chip → Chip} {c : Chip} (hs : s.on = true) (hp : p < 6)
    (he : exec i s = strRun p f s) (hc : f s.chip = c) : Does i s c :=
  does_of_run hs he ((if_pos hp).trans hc)

/-! ### Lane lock (R643 to R647) -/

section
variable {c : Chip} {p lane : Nat} {hs : List (BitVec 2)} {r : Nat × Nat} (hst : c.strState p = 2)
  (hhealthy : (c.healthy p).contains lane = true) (hsearching : (c.str p).locked.contains lane = false)
include hst hhealthy hsearching

/-- R643: the lane goes on searching. -/
theorem laneLocks_searches (hsearch : searchLock (tabGet (0, 0) (c.str p).search lane) hs = (r, false)) :
    c.laneLocks p lane hs = c.setStr p { c.str p with search := tabSet (c.str p).search lane r } := by
  simp only [Chip.laneLocks, hsearch, hst, hhealthy, hsearching]
  rfl

/-- R643, R646: the lane locks, and with the last healthy one the string goes to IDENT. -/
theorem laneLocks_locks (hsearch : searchLock (tabGet (0, 0) (c.str p).search lane) hs = (r, true)) :
    c.laneLocks p lane hs =
      (let c1 := c.setStr p { c.str p with search := tabSet (c.str p).search lane r, locked := (c.str p).locked ++ [lane]
                                           firstLock := some ((c.str p).firstLock.getD c.now) }
       if (c.healthy p).all (((c.str p).locked ++ [lane]).contains ·) then c1.setStrState p 3 else c1) := by
  simp only [Chip.laneLocks, hsearch, hst, hhealthy, hsearching]
  rfl

end

/-- R644, R647: of an UP string every active lane that has lost lock retires and the others train again; with none left the
string is DOWN. -/
theorem lanesLost_up {c : Chip} {p : Nat} {hs : List LaneHeaders} {w : Tab (List Bool) × List Nat} (hst : c.strState p = 6)
    (hw : (c.str p).watch hs = w) : c.lanesLost p hs =
      (let c1 := c.setStr p { c.str p with windows := w.1 }
       let lost := (c.str p).active.filter (w.2.contains ·)
       if lost = [] then c1
       else if (c.str p).active.all (w.2.contains ·) then (c1.dinc (strKey p 17)).setStrState p 1
       else ((c1.dinc (strKey p 17)).retireLanes p lost 9).enterLocking p) := by
  have hst1 : (c.setStr p { c.str p with windows := w.1 }).strState p = 6 := hst
  simp [Chip.lanesLost, hw, hst1]

/-- R646: 10 ms after the first lock the lanes without lock retire. -/
theorem lockTimeout_due {c : Chip} {p t : Nat} (hst : c.strState p = 2) (hfirst : (c.str p).firstLock = some t)
    (hdue : t + 2500000 ≤ c.now) : c.lockTimeout p =
      (c.retireLanes p ((c.healthy p).filter (fun l => !(c.str p).locked.contains l)) 9).setStrState p 3 := by
  simp [Chip.lockTimeout, hfirst, hst, hdue.not_gt]

theorem lockTimeout_early {c : Chip} {p t : Nat} (hfirst : (c.str p).firstLock = some t) (hearly : c.now < t + 2500000) :
    c.lockTimeout p = c := by
  simp [Chip.lockTimeout, hfirst, hearly]

/-! ### Training (R648 to R653) -/

/-- R651: the address that most ports imply. -/
theorem learnAddress_learns {c : Chip} {t a : Nat} {r : List Nat} (hannounced : c.mesh.announcedAt = some t)
    (hmode : c.straps.mode = .mesh) (hconfigured : c.dget (ent 0x4810 1) = 0) (hlearned : c.mesh.learned = none)
    (hdue : t + 250000 ≤ c.now) (himplied : c.mesh.implied.map (·.2) = a :: r) : c.learnAddress =
      (let votes := fun (a : Nat) => c.mesh.implied.countP (fun (q : Nat × Nat) => q.2 == a)
       { c with mesh := { c.mesh with
           learned := some (r.foldl (fun best b => if votes best < votes b then b else best) a) } }) := by
  simp [Chip.learnAddress, hannounced, hmode, hconfigured, hlearned, hdue.not_gt, himplied]

/-- What PLAN_CHECK does with an announcement that is recorded (Table 13.7). -/
def Chip.planned (c : Chip) (p : Nat) (f : Ident) : Chip :=
  match c.planStatus p f with
  | none => c
  | some 1 => (c.dset (strKey p 6) 1).setStrState p 4
  | some st => ((c.dset (strKey p 6) st).setStrState p 7).cablePlan p st f

theorem planCheck_ident {c : Chip} {p : Nat} {f : Ident} (hst : c.strState p = 3) :
    c.planCheck p f = (c.announced p f).planned p f := by
  rw [Chip.planCheck, if_neg (not_not.2 hst)]
  rfl

/-- The plan check waits for an address. -/
theorem planned_waits {c : Chip} {p : Nat} {f : Ident} (h : c.planStatus p f = none) : c.planned p f = c := by
  simp [Chip.planned, h]

theorem planned_ok {c : Chip} {p : Nat} {f : Ident} (h : c.planStatus p f = some 1) :
    c.planned p f = (c.dset (strKey p 6) 1).setStrState p 4 := by
  simp [Chip.planned, h]

/-- R653: the string is MISWIRED, with its event. -/
theorem planned_bad {c : Chip} {p st : Nat} {f : Ident} (h : c.planStatus p f = some st) (hbad : st ≠ 1) :
    c.planned p f = ((c.dset (strKey p 6) st).setStrState p 7).cablePlan p st f := by
  simp [Chip.planned, h]

section
variable {c : Chip} {p : Nat} {fs : List LaneFlit} (hst : c.strState p = 3)
include hst

theorem trained_unannounced (hnone : trainIdent fs = none) :
    c.trained p fs = c.dadd (strKey p 15) ((trainControls fs).countP (fun q => badControlBody q.2)) := by
  simp [Chip.trained, hst, hnone]

/-- R653: an announcement goes to the plan check. Counting the bad control flits leaves the string's STATE. -/
theorem trained_announced {f : Ident} {c1 : Chip} (hf : trainIdent fs = some f)
    (hc1 : (c.dadd (strKey p 15) ((trainControls fs).countP (fun q => badControlBody q.2))).announced p f = c1) :
    c.trained p fs = c1.planned p f := by
  have hst1 : (c.dadd (strKey p 15) ((trainControls fs).countP (fun q => badControlBody q.2))).strState p = 3 :=
    (dget_dset_other _ (by simp [strKey, ent])).trans hst
  subst hc1
  simp [Chip.trained, hst, hf, planCheck_ident hst1]

end

/-- R649: the lanes that have not relocked retire, and the string goes to TEST. -/
theorem rateSwitch_switches {c : Chip} {p : Nat} {re missing : List Nat} (hst : c.strState p = 4)
    (hmissing : (c.bothHealthy p).filter (fun l => !re.contains l) = missing)
    (hdue : missing = [] ∨ (c.str p).since + 2500000 ≤ c.now)
    (hleft : ((c.retireLanes p missing 9).setStrState p 5).healthy p ≠ []) :
    c.rateSwitch p re = (c.retireLanes p missing 9).setStrState p 5 := by
  have hgoes : ¬(c.strState p ≠ 4 ∨ (missing ≠ [] ∧ c.now < (c.str p).since + 2500000)) := by
    rintro (hother | ⟨hsome, hearly⟩)
    · exact hother hst
    · exact hdue.elim hsome hearly.not_ge
  simp only [Chip.rateSwitch, hmissing]
  rw [if_neg hgoes, if_neg (by simpa using hleft)]

/-! ### The rack tick (R648, R654, R655) -/

theorem rclkLost_mesh {c : Chip} (hmode : c.straps.mode = .mesh) : c.rclkLost =
    ((({ c with board := { c.board with rclkIn := false } } : Chip).each (List.range 6)
      (fun (c : Chip) p => if c.strState p = 0 then c else c.setStrState p 1)).dset (ent 0x4810 6) 0).dset (ent 0x4810 7) 0xFF := by
  simp [Chip.rclkLost, hmode]

theorem rclkLost_other {c : Chip} (hmode : c.straps.mode ≠ .mesh) :
    c.rclkLost = { c with board := { c.board with rclkIn := false } } := by
  simp [Chip.rclkLost, hmode]

/-- R655: the first alignment; the round trip is another entry than RT's validity. -/
theorem rtAlign_first {c : Chip} {p sent echo turn elapsed : Nat} (hp : p < 6) (hqualifies : c.rtQualifies p = true)
    (hfirst : (c.dset (strKey p 10) (Nat.min (c.roundTrip echo turn elapsed) 0xFFFF)).dget (ent 0x4810 6) = 0) :
    c.rtAlign p sent echo turn elapsed =
      ((({ (c.dset (strKey p 10) (Nat.min (c.roundTrip echo turn elapsed) 0xFFFF)) with
          mesh := { c.mesh with rtBase := (sent + c.roundTrip echo turn elapsed / 2 + elapsed) % 2 ^ 48, rtAt := c.now } } :
        Chip).dset (ent 0x4810 6) 1).dset (ent 0x4810 7) p) := by
  rw [dget_dset_other _ (by simp only [strKey, ent]; omega)] at hfirst
  simp [Chip.rtAlign, hqualifies, hfirst]

theorem rtAlign_unqualified {c : Chip} {p sent echo turn elapsed : Nat} (h : c.rtQualifies p = false) :
    c.rtAlign p sent echo turn elapsed = c := by
  simp [Chip.rtAlign, h]

/-! ### Received blocks (R638, R641, R658) -/

section
variable {c c1 : Chip} {p : Nat} {b : LaneBlock} {body : List Byte}

/-- Reading a block moves on the lane's history and the count of blocks alone. -/
theorem readBlock_keeps {flit : LinkFlit} (h : c.readBlock p b = (c1, flit)) :
    c1.strState p = c.strState p ∧ (c1.str p).rxSeq = (c.str p).rxSeq ∧ (c1.str p).discarding = (c.str p).discarding ∧
    (c1.str p).dups = (c.str p).dups ∧ (c1.str p).toAck = (c.str p).toAck ∧ (c1.str p).retry = (c.str p).retry ∧
    (c1.str p).replayed = (c.str p).replayed := by
  obtain rfl : (c.readBlock p b).1 = c1 := congrArg Prod.fst h
  simp only [Chip.readBlock, Chip.str_setStr_same, and_true]
  rfl

variable (hst : c.strState p = 6)
include hst

theorem takeBlock_data (h : c.readBlock p b = (c1, .data body)) : c.takeBlock p b = c1.dataFlit p (some body) := by
  simp [Chip.takeBlock, hst, h]

/-- R658: a block with an invalid header stands for a data flit that is not accepted. -/
theorem takeBlock_invalid (h : c.readBlock p b = (c1, .invalid)) : c.takeBlock p b = c1.dataFlit p none := by
  simp [Chip.takeBlock, hst, h]

theorem takeBlock_control (h : c.readBlock p b = (c1, .control body)) : c.takeBlock p b = c1.controlFlit p body := by
  simp [Chip.takeBlock, hst, h]

end

section
variable {c : Chip} {p : Nat} {body : List Byte} (hgood : badControlBody body = false)
include hgood

theorem controlFlit_idle (hcode : fieldAt body 28 1 = 0) : c.controlFlit p body = c := by
  simp [Chip.controlFlit, hgood, hcode]

theorem controlFlit_train (hcode : fieldAt body 28 1 = 1) : c.controlFlit p body = c.enterLocking p := by
  simp [Chip.controlFlit, hgood, hcode]

theorem controlFlit_ack (hcode : fieldAt body 28 1 = 2) : c.controlFlit p body = c.acked p (fieldAt body 0 4) := by
  simp [Chip.controlFlit, hgood, hcode]

theorem controlFlit_nack (hcode : fieldAt body 28 1 = 3) : c.controlFlit p body = c.nacked p (fieldAt body 0 4) := by
  simp [Chip.controlFlit, hgood, hcode]

theorem controlFlit_replay (hcode : fieldAt body 28 1 = 4) : c.controlFlit p body = c.replayed p (fieldAt body 0 4) := by
  simp [Chip.controlFlit, hgood, hcode]

theorem controlFlit_credit (hcode : fieldAt body 28 1 = 5) :
    c.controlFlit p body = c.credited p ((List.range 4).map (fun k => fieldAt body (2 * k) 2)) := by
  simp only [Chip.controlFlit, hgood, hcode]
  rfl

end

/-- A block of one of the six strings has its effect. -/
theorem does_of_flit {i : Instr} {s : State} {p : Nat} {b : LaneBlock} {c : Chip} (hs : s.on = true) (hp : p < 6)
    (he : exec i s = flitRun p b s) (hc : s.chip.takeBlock p b = c) : Does i s c :=
  does_of_strRun hs hp he hc

/-! ### Data flits (R658 to R660) -/

/-- R659: while a replay is awaited every data flit is dropped. -/
theorem dataFlit_discarding {c : Chip} {p : Nat} (body : Option (List Byte)) (h : (c.str p).discarding = true) :
    c.dataFlit p body = c := by
  simp [Chip.dataFlit, h]

section
variable {c : Chip} {p : Nat} (hlistens : (c.str p).discarding = false)
include hlistens

/-- R659: a flit that the replay repeats is dropped. -/
theorem dataFlit_duplicate (body : Option (List Byte)) (h : 0 < (c.str p).dups) :
    c.dataFlit p body = c.setStr p { c.str p with dups := (c.str p).dups - 1 } := by
  simp [Chip.dataFlit, hlistens, h]

variable (hnew : (c.str p).dups = 0)
include hnew

/-- R658, R660: a good flit joins the packet that is arriving, and every 64th is acknowledged at once. -/
theorem dataFlit_accepted {body : List Byte} (hgood : goodBody (seqBytes (c.str p).rxSeq) body = true) :
    c.dataFlit p (some body) =
      (let c1 := ((c.dadd64 (strKey p 14) 1).setStr p { c.str p with
          rxSeq := ((c.str p).rxSeq + 1) % m32, toAck := (c.str p).toAck + 1 }).assemble p (fieldAt body 28 1) (body.take 28)
       if 64 ≤ (c.str p).toAck + 1 then c1.sendAck p else c1) := by
  simp only [Chip.dataFlit, hlistens, hnew, Option.filter, hgood]
  rfl

/-- R659: a flit that is not accepted is counted and answered by NACK. -/
theorem dataFlit_rejected {body : Option (List Byte)} (hbad : body.filter (goodBody (seqBytes (c.str p).rxSeq)) = none) :
    c.dataFlit p body =
      ((c.dinc (strKey p 15)).setStr p { c.str p with discarding := true }).sendControl p 3 [(c.str p).rxSeq] := by
  simp only [Chip.dataFlit, hlistens, hnew, hbad]
  rfl

end

/-! ### Control flits (R659 to R664) -/

theorem nacked_up {c : Chip} {p : Nat} (seq : Nat) (hst : c.strState p = 6) :
    c.nacked p seq = (c.dinc (strKey p 16)).replayFrom p seq := by
  simp [Chip.nacked, hst]

/-- R659: a replay from a SEQ that has not been accepted yet is asked for again. -/
theorem replayed_ahead {c : Chip} {p seq : Nat} (hst : c.strState p = 6) (h : laterMod m32 seq (c.str p).rxSeq = true) :
    c.replayed p seq = c.sendControl p 3 [(c.str p).rxSeq] := by
  simp [Chip.replayed, hst, h]

/-- R659: the flits that a replay repeats are counted as duplicates to come. -/
theorem replayed_behind {c : Chip} {p seq : Nat} (hst : c.strState p = 6) (h : laterMod m32 seq (c.str p).rxSeq = false) :
    c.replayed p seq = c.setStr p { c.str p with
      discarding := false, dups := ((c.str p).rxSeq + m32 - seq % m32) % m32 } := by
  simp [Chip.replayed, hst, h]

/-- R664: the four cumulative counts of a CREDIT flit. -/
theorem credited_four {c : Chip} {p : Nat} (count : Nat → Nat) : c.credited p ((List.range 4).map count) =
    (c.setStr p { c.str p with freed := (List.range 4).map (fun k => count k % 0x10000) }).drain p := by
  simp [Chip.credited, Function.comp_def]

theorem creditDue_up {c : Chip} {p : Nat} (hst : c.strState p = 6) : c.creditDue p =
    (c.setStr p { c.str p with reported := (c.str p).freedHere, reportedAt := c.now }).sendControl p 5 (c.str p).freedHere := by
  simp [Chip.creditDue, hst]

/-- R661: 4 µs after a flit that is still unacknowledged. -/
theorem replayTimeout_due {c : Chip} {p : Nat} {f : SentFlit} {r : List SentFlit} (hst : c.strState p = 6)
    (hretry : (c.str p).retry = f :: r) (hdue : f.at_ + 1000 ≤ c.now) :
    c.replayTimeout p = (c.dinc (strKey p 16)).replayFrom p f.seq := by
  simp [Chip.replayTimeout, hretry, hst, hdue.not_gt]

theorem does_ackSend {s : State} {p : Nat} (hs : s.on = true) (hp : p < 6) (hst : s.chip.strState p = 6)
    (hwaiting : (s.chip.str p).toAck ≠ 0) : Does (.ackSend p) s (s.chip.sendAck p) :=
  does_of_strRun hs hp (f := fun c => if c.strState p = 6 then c.ackDue p else c) rfl
    ((if_pos hst).trans (if_pos ⟨hst, hwaiting⟩))

/-! ### The commands -/

/-- Settles O56, a clause at a time: each command is one of a string's, and its effect in the clause's case is the lemma's. -/
theorem stringCommandsComplete : Obligations.StringCommandsComplete := by
  refine ⟨?laneSearches, ?laneLock, ?laneLockLast, ?lanesLost, ?allLost, ?noneLost, ?locks, ?lockTimeout, ?lockTimeoutEarly,
    ?learn, ?planNone, ?planOk, ?planWaits, ?planBad, ?miswired, ?rate, ?rateLate, ?testDone, ?rclkLost, ?rclkLostField,
    ?rclkBack, ?rtFirst, ?rtOther, ?train, ?idle, ?flit, ?flitAck, ?flitBad, ?flitInvalid, ?flitDropped, ?flitDup, ?nack,
    ?replay, ?replayAhead, ?ack, ?ackSend, ?replayTimeout, ?credit, ?creditSend, ?noNeighbour, ?badControl⟩
  case laneSearches =>
    exact fun s p lane hs r hon hp hst hhealthy hsearching hsearch =>
      does_of_strRun hon hp (f := fun c => c.laneLocks p lane hs) rfl (laneLocks_searches hst hhealthy hsearching hsearch)
  case laneLock =>
    exact fun s p lane hs r hon hp hst hhealthy hsearching hsearch hleft =>
      does_of_strRun hon hp (f := fun c => c.laneLocks p lane hs) rfl
        ((laneLocks_locks hst hhealthy hsearching hsearch).trans (if_neg (Bool.eq_false_iff.1 hleft)))
  case laneLockLast =>
    exact fun s p lane hs r hon hp hst hhealthy hsearching hsearch hlast =>
      does_of_strRun hon hp (f := fun c => c.laneLocks p lane hs) rfl
        ((laneLocks_locks hst hhealthy hsearching hsearch).trans (if_pos hlast))
  case lanesLost =>
    exact fun s p hs w hon hp hst hw hlost hsome =>
      does_of_strRun hon hp (f := fun c => c.lanesLost p hs) rfl
        ((lanesLost_up hst hw).trans ((if_neg hlost).trans (if_neg (Bool.eq_false_iff.1 hsome))))
  case allLost =>
    exact fun s p hs w hon hp hst hw hlost hall =>
      does_of_strRun hon hp (f := fun c => c.lanesLost p hs) rfl
        ((lanesLost_up hst hw).trans ((if_neg hlost).trans (if_pos hall)))
  case noneLost =>
    exact fun s p hs w hon hp hst hw hnone =>
      does_of_strRun hon hp (f := fun c => c.lanesLost p hs) rfl ((lanesLost_up hst hw).trans (if_pos hnone))
  case locks =>
    intro s p hs hp hmode hrole hclock htrains hst hstring hrouter
    refine does_of_strRun hs hp (f := fun c => c.stringLocks p) rfl (if_pos ?_)
    simp [hmode, hp, hrole, hclock, htrains, hst, hstring, hrouter]
  case lockTimeout =>
    exact fun s p t hs hp hst hfirst hdue =>
      does_of_strRun hs hp (f := fun c => c.lockTimeout p) rfl (lockTimeout_due hst hfirst hdue)
  case lockTimeoutEarly =>
    exact fun s p t hs hp hfirst hearly =>
      does_of_strRun hs hp (f := fun c => c.lockTimeout p) rfl (lockTimeout_early hfirst hearly)
  case learn =>
    exact fun s t a r hs hannounced hmode hconfigured hlearned hdue himplied =>
      does_of_run hs (f := Chip.learnAddress) rfl
        (learnAddress_learns hannounced hmode hconfigured hlearned hdue himplied)
  case planNone =>
    exact fun s p fs hs hp hst hnone =>
      does_of_strRun hs hp (f := fun c => c.trained p fs) rfl (trained_unannounced hst hnone)
  case planOk =>
    intro s p fs f c1 hs hp hst hf hc1 hplan
    exact does_of_strRun hs hp (f := fun c => c.trained p fs) rfl ((trained_announced hst hf hc1).trans (planned_ok hplan))
  case planWaits =>
    intro s p fs f c1 hs hp hst hf hc1 hplan
    exact does_of_strRun hs hp (f := fun c => c.trained p fs) rfl ((trained_announced hst hf hc1).trans (planned_waits hplan))
  case planBad =>
    intro s p st fs f c1 hs hp hst hf hc1 hplan hbad
    exact does_of_strRun hs hp (f := fun c => c.trained p fs) rfl
      ((trained_announced hst hf hc1).trans (planned_bad hplan hbad))
  case miswired =>
    exact fun s p hs hp hst hdue => does_of_strRun hs hp (f := fun c => c.miswiredRetry p) rfl (if_pos ⟨hst, hdue⟩)
  case rate =>
    exact fun s p re hs hp hst hall hleft =>
      does_of_strRun hs hp (f := fun c => c.rateSwitch p re) rfl (rateSwitch_switches hst hall (.inl rfl) hleft)
  case rateLate =>
    exact fun s p re hs hp hst hdue hleft =>
      does_of_strRun hs hp (f := fun c => c.rateSwitch p re) rfl
        (rateSwitch_switches hst rfl (.inr hdue) (by simpa using hleft))
  case testDone => exact fun s p ok hs hp _ => does_of_strRun hs hp (f := fun c => c.testComplete p ok) rfl rfl
  case rclkLost =>
    exact fun s hs hmode =>
      does_of_runPin hs (pin := fun b => { b with rclkIn := false }) (f := Chip.rclkLost) rfl (rclkLost_mesh hmode)
  case rclkLostField =>
    exact fun s hs hmode =>
      does_of_runPin hs (pin := fun b => { b with rclkIn := false }) (f := Chip.rclkLost) rfl (rclkLost_other hmode)
  case rclkBack =>
    exact fun s hs => does_of_runPin hs (pin := fun b => { b with rclkIn := true }) (f := Chip.rclkBack) rfl rfl
  case rtFirst =>
    exact fun s p sent echo turn elapsed hs hp hqualifies hfirst =>
      does_of_strRun hs hp (f := fun c => c.rtAlign p sent echo turn elapsed) rfl (rtAlign_first hp hqualifies hfirst)
  case rtOther =>
    exact fun s p sent echo turn elapsed hs hp hother =>
      does_of_strRun hs hp (f := fun c => c.rtAlign p sent echo turn elapsed) rfl (rtAlign_unqualified hother)
  case train =>
    exact fun s p b c1 body hs hp hst h hgood hcode =>
      does_of_flit hs hp rfl ((takeBlock_control hst h).trans (controlFlit_train hgood hcode))
  case idle =>
    exact fun s p b c1 body hs hp hst h hgood hcode =>
      does_of_flit hs hp rfl ((takeBlock_control hst h).trans (controlFlit_idle hgood hcode))
  case flit =>
    intro s p b c1 body hs hp hst h hgood hlistens hnew hfew
    obtain ⟨-, hseq, hdiscarding, hdups, htoAck, -⟩ := readBlock_keeps h
    refine does_of_flit (b := b) hs hp rfl ((takeBlock_data hst h).trans ?_)
    rw [dataFlit_accepted (hdiscarding.trans hlistens) (hdups.trans hnew) (hseq ▸ hgood)]
    exact if_neg (by omega)
  case flitAck =>
    intro s p b c1 body hs hp hst h hgood hlistens hnew hmany
    obtain ⟨-, hseq, hdiscarding, hdups, htoAck, -⟩ := readBlock_keeps h
    refine does_of_flit (b := b) hs hp rfl ((takeBlock_data hst h).trans ?_)
    rw [dataFlit_accepted (hdiscarding.trans hlistens) (hdups.trans hnew) (hseq ▸ hgood)]
    exact if_pos (by omega)
  case flitBad =>
    intro s p b c1 body hs hp hst hlistens hnew h hbad
    obtain ⟨-, hseq, hdiscarding, hdups, -⟩ := readBlock_keeps h
    refine does_of_flit (b := b) hs hp rfl ((takeBlock_data hst h).trans ?_)
    rw [← hseq] at hbad ⊢
    exact dataFlit_rejected (hdiscarding.trans hlistens) (hdups.trans hnew) (by simp [Option.filter, hbad])
  case flitInvalid =>
    intro s p b c1 hs hp hst hlistens hnew h
    obtain ⟨-, hseq, hdiscarding, hdups, -⟩ := readBlock_keeps h
    refine does_of_flit (b := b) hs hp rfl ((takeBlock_invalid hst h).trans ?_)
    rw [← hseq]
    exact dataFlit_rejected (hdiscarding.trans hlistens) (hdups.trans hnew) rfl
  case flitDropped =>
    intro s p b c1 body hs hp hst hdrops h
    obtain ⟨-, -, hdiscarding, -⟩ := readBlock_keeps h
    exact does_of_flit (b := b) hs hp rfl
      ((takeBlock_data hst h).trans (dataFlit_discarding _ (hdiscarding.trans hdrops)))
  case flitDup =>
    intro s p b c1 body hs hp hst hlistens hrepeats h
    obtain ⟨-, -, hdiscarding, hdups, -⟩ := readBlock_keeps h
    refine does_of_flit (b := b) hs hp rfl ((takeBlock_data hst h).trans ?_)
    rw [← hdups] at hrepeats ⊢
    exact dataFlit_duplicate (hdiscarding.trans hlistens) _ hrepeats
  case nack =>
    intro s p b c1 body hs hp hst h hgood hcode
    obtain ⟨hst1, -⟩ := readBlock_keeps h
    exact does_of_flit hs hp rfl
      ((takeBlock_control hst h).trans ((controlFlit_nack hgood hcode).trans (nacked_up _ (hst1.trans hst))))
  case replay =>
    intro s p b c1 body hs hp hst h hgood hcode hbehind
    obtain ⟨hst1, hseq, -⟩ := readBlock_keeps h
    rw [← hseq] at hbehind ⊢
    exact does_of_flit hs hp rfl
      ((takeBlock_control hst h).trans ((controlFlit_replay hgood hcode).trans (replayed_behind (hst1.trans hst) hbehind)))
  case replayAhead =>
    intro s p b c1 body hs hp hst h hgood hcode hahead
    obtain ⟨hst1, hseq, -⟩ := readBlock_keeps h
    rw [← hseq] at hahead ⊢
    exact does_of_flit hs hp rfl
      ((takeBlock_control hst h).trans ((controlFlit_replay hgood hcode).trans (replayed_ahead (hst1.trans hst) hahead)))
  case ack =>
    rintro s p b c1 body _ hs hp hst h hgood hcode rfl
    obtain ⟨-, -, -, -, -, hretry, hreplayed⟩ := readBlock_keeps h
    rw [← hretry, ← hreplayed]
    exact does_of_flit hs hp rfl ((takeBlock_control hst h).trans (controlFlit_ack hgood hcode))
  case ackSend => exact fun s p hs hp hst hwaiting => does_ackSend hs hp hst hwaiting
  case replayTimeout =>
    exact fun s p f r hs hp hst hretry hdue =>
      does_of_strRun hs hp (f := fun c => if c.strState p = 6 then c.replayTimeout p else c) rfl
        ((if_pos hst).trans (replayTimeout_due hst hretry hdue))
  case credit =>
    exact fun s p b c1 body hs hp hst h hgood hcode =>
      does_of_flit hs hp rfl ((takeBlock_control hst h).trans ((controlFlit_credit hgood hcode).trans (credited_four _)))
  case creditSend =>
    exact fun s p hs hp hst =>
      does_of_strRun hs hp (f := fun c => if c.strState p = 6 then c.creditDue p else c) rfl
        ((if_pos hst).trans (creditDue_up hst))
  case noNeighbour =>
    exact fun s p hs hp hst hrole hunlocked hdue =>
      does_of_strRun hs hp (f := fun c => c.noNeighbour p) rfl (if_pos ⟨hst, hrole, hunlocked, hdue⟩)
  case badControl =>
    intro s p b c1 body hs hp hst h hbad
    exact does_of_flit hs hp rfl ((takeBlock_control hst h).trans (if_pos hbad))

end Sys2Proof.Machine
end

section
/-! SUPPORT. Packets at this engine: epoch records, lulls, tunnels, answers of host memory and storage, and virtual streams (R668
to R690). -/

namespace Sys2Proof.Machine

/-! ### A packet that is for this engine (R668, R673, R781) -/

/-- R675: what an edge port stamps is not the type of the packet. -/
theorem stamped_ptype (c : Chip) (k : Packet) : (c.stamped k).ptype = k.ptype := by
  unfold Chip.stamped; split <;> rfl

theorem stamped_payload (c : Chip) (k : Packet) : (c.stamped k).payload = k.payload := by
  unfold Chip.stamped; split <;> rfl

section
variable {c c1 : Chip} {k : Packet} (hin : c.atInput k = true)
include hin

theorem packetIn_gone (hroute : c.route k = (c1, .gone)) : c.packetIn k = c1 := by
  simp [Chip.packetIn, hin, hroute]

/-- R670: no route leads on from the packet's own origin. -/
theorem packetIn_failed (hroute : c.route k = (c1, .failed)) : c.packetIn k = c1.packetLost k.ptype k.dest k.tag := by
  simp [Chip.packetIn, hin, hroute]

/-- R781: in FAULTED a dictionary request alone is served. -/
theorem packetIn_mine (hroute : c.route k = (c1, .mine)) (hserved : c.engine ≠ .faulted ∨ k.ptype = 0x13) :
    c.packetIn k = c1.serve (c.stamped k) := by
  have hrefused : ¬(c.engine = .faulted ∧ k.ptype ≠ 0x13) := fun ⟨hfaulted, hother⟩ =>
    hserved.elim (absurd hfaulted) (absurd · hother)
  simp only [Chip.packetIn, hin, hroute, hrefused]
  rfl

end

theorem packetIn_nowhere {c : Chip} {k : Packet} (hin : c.atInput k = false) : c.packetIn k = c := by
  simp [Chip.packetIn, hin]

theorem packetOf_type {c : Chip} {k : Packet} {t : Nat} (h : k.ptype = t) : c.packetOf [t] k = c.packetIn k := by
  simp [Chip.packetOf, h]

/-- A packet that is for this engine completes on a running engine with its service. -/
theorem does_of_packet {i : Instr} {s : State} {k : Packet} {t : Nat} {c1 c : Chip} (hs : s.on = true)
    (hin : s.chip.atInput k = true) (hroute : s.chip.route k = (c1, .mine)) (hlive : s.chip.engine ≠ .faulted)
    (htype : k.ptype = t) (he : exec i s = run (fun c => c.packetOf [t] k) s) (hc : c1.serve (s.chip.stamped k) = c) :
    Does i s c :=
  does_of_run hs he ((packetOf_type htype).trans ((packetIn_mine hin hroute (.inl hlive)).trans hc))

/-! ### Services by type (Table 13.11) -/

section
variable (c : Chip) {k : Packet}

theorem serve_epoch (h : k.ptype = 1) : c.serve k = c.takeEpoch k := by
  cases k; cases h; rfl

theorem serve_lullArrive (h : k.ptype = 2) : c.serve k = c.arrival k.src k.arg := by
  cases k; cases h; rfl

theorem serve_lullRelease (h : k.ptype = 3) : c.serve k = c.releaseArrived k.arg k.tag := by
  cases k; cases h; rfl

theorem serve_routeFail (h : k.ptype = 4) : c.serve k = c.takeRouteFail k := by
  cases k; cases h; rfl

theorem serve_open (h : k.ptype = 16) : c.serve k = c.takeOpen k := by
  cases k; cases h; rfl

theorem serve_command (h : k.ptype = 17) : c.serve k = c.takeTunnelCommand k := by
  cases k; cases h; rfl

theorem serve_dictReq (h : k.ptype = 19) : c.serve k = c.takeDictReq k := by
  cases k; cases h; rfl

theorem serve_dma (h : k.ptype = 22) : c.serve k = c.takeData k := by
  cases k; cases h; rfl

theorem serve_store (h : k.ptype = 49) : c.serve k = c.takeData k := by
  cases k; cases h; rfl

theorem serve_camData (h : k.ptype = 32) : c.serve k = c.takeCamData k := by
  cases k; cases h; rfl

theorem serve_samples (h : k.ptype = 33) : c.serve k = c.takeSamples k := by
  cases k; cases h; rfl

theorem serve_list (h : k.ptype = 34) : c.serve k = c.takeList k := by
  cases k; cases h; rfl

theorem serve_records (h : k.ptype = 35) : c.serve k = c.takeRecords k := by
  cases k; cases h; rfl

end

/-! ### Epoch records (R677 to R680) -/

section
variable {c : Chip} {k : Packet}

/-- R678: a record in time waits for its RT. -/
theorem takeEpoch_inTime (hactive : c.epoch.active = some 0x30) (hvalid : c.dget (ent 0x4810 6) = 1)
    (hlater : laterMod (2 ^ 48) c.rt (fieldAt k.payload 8 6) = false) : c.takeEpoch k =
      (let d := c.dinc (ent 0x4810 9)
       { d with mesh := { d.mesh with
           records := d.mesh.records ++ [(fieldAt k.payload 0 8, k.arg, fieldAt k.payload 8 6, none)] } }) := by
  simp only [Chip.takeEpoch, hactive, hvalid, hlater, -Nat.reducePow]
  rfl

/-- R680: without a valid RT every record is late. -/
theorem takeEpoch_late (hactive : c.epoch.active = some 0x30) (hinvalid : c.dget (ent 0x4810 6) = 0) : c.takeEpoch k =
    (let d := (c.dinc (ent 0x4810 9)).dinc (ent 0x4810 10)
     { d with mesh := { d.mesh with
         records := d.mesh.records ++ [(fieldAt k.payload 0 8, k.arg, fieldAt k.payload 8 6, some c.now)] } }) := by
  simp [Chip.takeEpoch, hactive, hinvalid]

/-- An engine whose epoch is not the mesh's takes no record. -/
theorem takeEpoch_other (hactive : c.epoch.active ≠ some 0x30) (hpending : c.epoch.pendingSource ≠ some 0x30) :
    c.takeEpoch k = c.dinc (routeKey 8) := by
  simp [Chip.takeEpoch, Chip.admitDrop, hactive, hpending]

end

/-! ### Tunnels (R684 to R686) -/

/-- R684: the chip with the origin of a tunnel voice's OPEN. -/
def Chip.originTaken (c : Chip) (k : Packet) : Chip :=
  c.setTunnel k.tag { c.tunnel k.tag with origin := some (k.src, k.entry) }

section
variable {c : Chip} {k : Packet} (hvoice : c.tunnelVoice k = true)
include hvoice

theorem takeOpen_voice : c.takeOpen k =
    (let d := c.originTaken k
     let x := d.voice k.tag
     if x.state = .idle ∧ !x.resetDrain then (d.setVoice k.tag { x with queue := [], tags := 0 }).ringStart k.tag
     else if x.resetDrain ∧ !(c.tunnel k.tag).opened then
       (d.setTunnel k.tag { d.tunnel k.tag with opened := true }).setVoice k.tag { x with queue := [], tags := 0 }
     else d) := by
  simp only [Chip.takeOpen, hvoice]
  rfl

/-- R685: the first OPEN starts the voice's ring. -/
theorem takeOpen_first (hidle : ((c.originTaken k).voice k.tag).state = .idle)
    (hdrain : ((c.originTaken k).voice k.tag).resetDrain = false) : c.takeOpen k =
      ((c.originTaken k).setVoice k.tag { (c.originTaken k).voice k.tag with queue := [], tags := 0 }).ringStart k.tag := by
  simp [takeOpen_voice hvoice, hidle, hdrain]

/-- A further OPEN moves the origin alone. -/
theorem takeOpen_again (hbusy : ((c.originTaken k).voice k.tag).state ≠ .idle)
    (hdrain : ((c.originTaken k).voice k.tag).resetDrain = false) : c.takeOpen k = c.originTaken k := by
  simp [takeOpen_voice hvoice, hbusy, hdrain]

/-- R306, R685: in the drain of its reset the voice's ring opens once the drain ends. -/
theorem takeOpen_draining (hclosed : (c.tunnel k.tag).opened = false)
    (hdrain : ((c.originTaken k).voice k.tag).resetDrain = true) : c.takeOpen k =
      ((c.originTaken k).setTunnel k.tag { (c.originTaken k).tunnel k.tag with opened := true }).setVoice k.tag
        { (c.originTaken k).voice k.tag with queue := [], tags := 0 } := by
  simp [takeOpen_voice hvoice, hclosed, hdrain]

end

theorem takeOpen_refused {c : Chip} {k : Packet} (h : c.tunnelVoice k = false) : c.takeOpen k = c.dinc (routeKey 8) := by
  simp [Chip.takeOpen, Chip.admitDrop, h]

/-- R685: a command joins the voice's ring, which has room. -/
theorem takeTunnelCommand_joins {c : Chip} {k : Packet} (horigin : c.fromOrigin k = true)
    (hroom : (c.callWake.voice k.tag).queue.length < 256) (henabled : (c.callWake.voice k.tag).ringEnable = true) :
    c.takeTunnelCommand k = c.callWake.takeCommand k.tag k.payload := by
  rw [voice_callWake] at hroom henabled
  simp [Chip.takeTunnelCommand, horigin, hroom.not_ge, henabled]

theorem takeTunnelCommand_refused {c : Chip} {k : Packet} (h : c.fromOrigin k = false) :
    c.takeTunnelCommand k = c.dinc (routeKey 8) := by
  simp [Chip.takeTunnelCommand, Chip.admitDrop, h]

/-- R686: the chip with a new dictionary request noted. -/
def Chip.requestNoted (c : Chip) (k : Packet) : Chip :=
  c.setTunnel k.tag { c.tunnel k.tag with lastReq := some (k.arg, k.payload), lastRsp := [] }

section
variable {c : Chip} {k : Packet} (horigin : c.fromOrigin k = true) (hanswers : c.silent = false)
  (hnew : (c.tunnel k.tag).lastReq ≠ some (k.arg, k.payload))
include horigin hanswers hnew

theorem takeDictReq_read (hop : fieldAt k.payload 0 1 = 1) : c.takeDictReq k =
    (let r := (c.requestNoted k).callWake.dictRead k.tag (fieldAt k.payload 2 2) (fieldAt k.payload 1 1)
     ((c.requestNoted k).callWake.noteReply k.tag 1 (fieldAt k.payload 2 2) (fieldAt k.payload 1 1) r.1 r.2).tunnelAnswer k.tag
       (k.arg % 0x10000) r.1 (if r.1 = 0 then r.2 else [])) := by
  simp only [Chip.takeDictReq, horigin, hanswers, hnew, hop]
  rfl

theorem takeDictReq_describe (hop : fieldAt k.payload 0 1 = 4) : c.takeDictReq k =
    (let r := (c.requestNoted k).callWake.dictDescribe k.tag (fieldAt k.payload 2 2) (fieldAt k.payload 1 1)
     ((c.requestNoted k).callWake.noteReply k.tag 4 (fieldAt k.payload 2 2) (fieldAt k.payload 1 1) r.1 r.2).tunnelAnswer k.tag
       (k.arg % 0x10000) r.1 (if r.1 = 0 then r.2 else [])) := by
  simp only [Chip.takeDictReq, horigin, hanswers, hnew, hop]
  rfl

theorem takeDictReq_write (hop : fieldAt k.payload 0 1 = 2) : c.takeDictReq k =
    (c.requestNoted k).submit { voice := k.tag, via := ⟨5, k.arg % 0x10000⟩, idx := fieldAt k.payload 2 2
                                sub := fieldAt k.payload 1 1, data := k.payload.drop 4 } := by
  simp only [Chip.takeDictReq, horigin, hanswers, hnew, hop]
  rfl

end

/-- A dictionary request in its place completes with its service, in FAULTED too (R781). -/
theorem does_dictReq {s : State} {k : Packet} {c1 c : Chip} (hs : s.on = true)
    (horder : s.round.inOrder (.tunnel k) = true) (hin : s.chip.atInput k = true) (hroute : s.chip.route k = (c1, .mine))
    (htype : k.ptype = 19) (hc : c1.takeDictReq (s.chip.stamped k) = c) : Does (.dictReq k) s c :=
  does_of_runRound (o := .tunnel k) hs horder rfl
    ((packetOf_type htype).trans ((packetIn_mine hin hroute (.inr htype)).trans
      ((serve_dictReq c1 ((stamped_ptype ..).trans htype)).trans hc)))

/-- R158: a request that is no WRITE reads, so it comes last in its update. -/
theorem inOrder_tunnel_read {c : Chip} (r : Round) {k : Packet} {op : Nat} (hop : fieldAt (c.stamped k).payload 0 1 = op)
    (hread : op ≠ 2) : r.inOrder (.tunnel k) = true := by
  rw [stamped_payload] at hop
  exact inOrder_read r _ (if_neg (hop.symm ▸ hread))

/-! ### Answers of host memory and storage (R687, R688) -/

section
variable {c : Chip} {v id : Nat} {d : DmaReq}
  (hasked : c.mesh.dma.find? (fun d => d.voice == v && d.id == id) = some d)
include hasked

theorem answer_arrives (data : List Byte) : c.answer v id 0 data =
    { c with hostMem := c.hostMem.writeBytes d.addr (data.take d.len)
             mesh := { c.mesh with dma := c.mesh.dma.erase d, answered := c.mesh.answered ++ [(v, d.addr, d.len)] } } := by
  simp [Chip.answer, hasked]

theorem answer_fails {status : Nat} (data : List Byte) (hstatus : status ≠ 0) : c.answer v id status data =
    ({ c with mesh := { c.mesh with dma := c.mesh.dma.erase d } } : Chip).hostFailure v 3 := by
  simp [Chip.answer, hasked, hstatus]

/-- R687: no answer within 1 ms. -/
theorem dmaTimedOut_due (hdue : d.at_ + 250000 ≤ c.now) : c.dmaTimedOut v id =
    ({ c with mesh := { c.mesh with dma := c.mesh.dma.erase d } } : Chip).hostFailure v 3 := by
  simp [Chip.dmaTimedOut, hasked, hdue.not_gt]

theorem dmaTimedOut_early (hearly : c.now < d.at_ + 250000) : c.dmaTimedOut v id = c := by
  simp [Chip.dmaTimedOut, hasked, hearly]

end

theorem takeData_dma {c : Chip} {k : Packet} (horigin : c.fromOrigin k = true) :
    c.takeData k = c.answer k.tag k.arg (fieldAt k.payload 0 4) (k.payload.drop 4) := by
  simp [Chip.takeData, horigin]

theorem takeData_store {c : Chip} {k : Packet} (htype : k.ptype = 49) :
    c.takeData k = c.answer k.tag k.arg (fieldAt k.payload 0 4) (k.payload.drop 4) := by
  simp [Chip.takeData, htype]

/-! ### Virtual streams (R689, R690) -/

section
variable {c : Chip} {k : Packet} (hch : k.tag < 6) (hsource : c.dget (camKey k.tag 34) = 1)
include hch hsource

theorem takeCamData_off (hoff : c.camOn k.tag = false ∨ c.gated = true) : c.takeCamData k = c.dinc (camKey k.tag 45) := by
  have hskip : (!c.camOn k.tag || c.gated) = true := by simpa using hoff
  have hnamed : ¬(6 ≤ k.tag ∨ c.dget (camKey k.tag 34) ≠ 1) := by simp [hsource, hch.not_ge]
  rw [Chip.takeCamData, if_neg hnamed, if_pos hskip]

/-- R689: bytes whose rows are all in time and within the line buffer bank are kept whole. -/
theorem takeCamData_kept {n : Nat} {rows : Nat × Nat} (hon : c.camOn k.tag = true) (hgated : c.gated = false)
    (hn : c.camWidth k.tag * pixelBytes (c.dget (camKey k.tag 5)) = n) (hrows : c.openRows k.tag (fieldAt k.payload 0 4) = rows)
    (hlow : rows.1 * n ≤ fieldAt k.payload 4 4)
    (hhigh : fieldAt k.payload 4 4 + (k.payload.drop 8).length ≤ rows.2 * n) (hsome : k.payload.drop 8 ≠ []) :
    c.takeCamData k = c.setCam k.tag { c.cam k.tag with chunks := (c.cam k.tag).chunks ++
      [{ frame := fieldAt k.payload 0 4, offset := fieldAt k.payload 4 4, bytes := k.payload.drop 8 }] } := by
  have hnamed : ¬(6 ≤ k.tag ∨ c.dget (camKey k.tag 34) ≠ 1) := by simp [hsource, hch.not_ge]
  have hskip : rows.1 * n - fieldAt k.payload 4 4 = 0 := Nat.sub_eq_zero_of_le hlow
  have hkept : (k.payload.drop 8).take (rows.2 * n - fieldAt k.payload 4 4) = k.payload.drop 8 :=
    List.take_of_length_le (by omega)
  simp only [Chip.takeCamData, hnamed, hon, hgated, hn, hrows, hskip, List.drop_zero, Nat.add_zero, hkept,
    List.isEmpty_eq_false_iff.2 hsome]
  rfl

end

section
variable {c : Chip} {k : Packet}

theorem takeSamples_virtual (hch : k.tag < 16) (hsource : c.dget (inKey k.tag 2) = 2) (hgated : c.gated = false) :
    c.takeSamples k =
      c.setChan k.tag { c.chan k.tag with virt := (c.chan k.tag).virt ++ samplesOf k.payload } := by
  simp [Chip.takeSamples, hch.not_ge, hsource, hgated]

theorem takeSamples_other (h : 16 ≤ k.tag ∨ c.dget (inKey k.tag 2) ≠ 2 ∨ c.gated = true) : c.takeSamples k = c := if_pos h

/-- R690: the parts of a list once a packet has come. -/
def Chip.partsWith (c : Chip) (k : Packet) : List (Nat × List Byte) :=
  (c.est k.tag).parts ++ [(fieldAt k.payload 0 4, k.payload.drop 8)]

variable (hi : k.tag < 8) (hsource : c.eget k.tag 0x3000 9 = 1) (hgated : c.gated = false)
include hi hsource hgated

/-- A list waits for the rest of its bytes. -/
theorem takeList_part (hpart : listWhole (c.partsWith k) (fieldAt k.payload 4 4) = false) :
    c.takeList k = c.setEst k.tag { c.est k.tag with parts := c.partsWith k } := by
  rw [Chip.takeList, if_neg (by simp [hi.not_ge, hsource, hgated])]
  exact if_pos (by rw [Bool.not_eq_true']; exact hpart)

/-- A whole list enters. -/
theorem takeList_whole (hwhole : listWhole (c.partsWith k) (fieldAt k.payload 4 4) = true)
    (hmagic : fieldAt ((joinChunks (c.partsWith k)).take (fieldAt k.payload 4 4)) 0 4 = 0x46544C53)
    (hgood : goodInject ((joinChunks (c.partsWith k)).take (fieldAt k.payload 4 4)) = true) :
    c.takeList k = (c.setEst k.tag { c.est k.tag with parts := [] }).estInject k.tag
      ((joinChunks (c.partsWith k)).take (fieldAt k.payload 4 4)) := by
  rw [Chip.takeList, if_neg (by simp [hi.not_ge, hsource, hgated])]
  refine (if_neg (fun h => ?_)).trans (if_pos ⟨hmagic, hgood⟩)
  rw [Bool.not_eq_true'] at h
  cases hwhole.symm.trans h

theorem takeRecords_virtual : c.takeRecords k =
    (let f := c.fresh .injected
     f.1.setEst k.tag { f.1.est k.tag with
       records := (f.1.est k.tag).records ++ recordsOf (f.2 % 16) k.payload (k.payload.length / 32) }) := by
  rw [Chip.takeRecords, if_neg (by simp [hi.not_ge, hsource, hgated])]

end

/-! ### The commands -/

/-- Settles O57, a clause at a time: each command is a packet that is for this engine or goes on, and its effect in the clause's
case is the lemma's. -/
theorem meshPacketsComplete : Obligations.MeshPacketsComplete := by
  refine ⟨?epochRecord, ?epochLate, ?epochOther, ?recordsApply, ?lullArrive, ?lullRelease, ?routeFail, ?openAgain, ?opens,
    ?openDrain, ?openOther, ?command, ?commandOther, ?dictReqRead, ?dictReqDescribe, ?dictReqWrite, ?dma, ?dmaFailed, ?store,
    ?storeFailed, ?dmaTimeout, ?dmaTimeoutEarly, ?camData, ?camDataKept, ?imu, ?imuOther, ?listPart, ?listWhole, ?records,
    ?routeGone, ?routeFailed, ?routeMine, ?routeNone⟩
  case epochRecord =>
    exact fun s k c1 hs hin hroute hlive htype hactive hvalid hlater =>
      does_of_packet hs hin hroute hlive htype rfl
        ((serve_epoch c1 ((stamped_ptype ..).trans htype)).trans (takeEpoch_inTime hactive hvalid hlater))
  case epochLate =>
    exact fun s k c1 hs hin hroute hlive htype hactive hinvalid =>
      does_of_packet hs hin hroute hlive htype rfl
        ((serve_epoch c1 ((stamped_ptype ..).trans htype)).trans (takeEpoch_late hactive hinvalid))
  case epochOther =>
    exact fun s k c1 hs hin hroute hlive htype hactive hpending =>
      does_of_packet hs hin hroute hlive htype rfl
        ((serve_epoch c1 ((stamped_ptype ..).trans htype)).trans (takeEpoch_other hactive hpending))
  case recordsApply => exact fun s hs => does_of_run hs (f := Chip.applyRecords) rfl rfl
  case lullArrive =>
    exact fun s k c1 hs hin hroute hlive htype =>
      does_of_packet hs hin hroute hlive htype rfl (serve_lullArrive c1 ((stamped_ptype ..).trans htype))
  case lullRelease =>
    exact fun s k c1 hs hin hroute hlive htype =>
      does_of_packet hs hin hroute hlive htype rfl (serve_lullRelease c1 ((stamped_ptype ..).trans htype))
  case routeFail =>
    exact fun s k c1 hs hin hroute hlive htype =>
      does_of_packet hs hin hroute hlive htype rfl (serve_routeFail c1 ((stamped_ptype ..).trans htype))
  case openAgain =>
    exact fun s k c1 hs hin hroute hlive htype hvoice hbusy hdrain =>
      does_of_packet hs hin hroute hlive htype rfl
        ((serve_open c1 ((stamped_ptype ..).trans htype)).trans (takeOpen_again hvoice hbusy hdrain))
  case opens =>
    exact fun s k c1 hs hin hroute hlive htype hvoice hidle hdrain =>
      does_of_packet hs hin hroute hlive htype rfl
        ((serve_open c1 ((stamped_ptype ..).trans htype)).trans (takeOpen_first hvoice hidle hdrain))
  case openDrain =>
    rintro s k c1 _ hs hin hroute hlive htype hvoice hclosed rfl hdrain
    exact does_of_packet hs hin hroute hlive htype rfl
      ((serve_open c1 ((stamped_ptype ..).trans htype)).trans (takeOpen_draining hvoice hclosed hdrain))
  case openOther =>
    exact fun s k c1 hs hin hroute hlive htype hvoice =>
      does_of_packet hs hin hroute hlive htype rfl
        ((serve_open c1 ((stamped_ptype ..).trans htype)).trans (takeOpen_refused hvoice))
  case command =>
    exact fun s k c1 hs hin hroute hlive htype horigin hroom henabled =>
      does_of_packet hs hin hroute hlive htype rfl
        ((serve_command c1 ((stamped_ptype ..).trans htype)).trans (takeTunnelCommand_joins horigin hroom henabled))
  case commandOther =>
    exact fun s k c1 hs hin hroute hlive htype horigin =>
      does_of_packet hs hin hroute hlive htype rfl
        ((serve_command c1 ((stamped_ptype ..).trans htype)).trans (takeTunnelCommand_refused horigin))
  case dictReqRead =>
    rintro s k c1 _ _ hs hin hroute htype horigin hanswers hnew hop rfl rfl
    exact does_dictReq hs (inOrder_tunnel_read s.round hop (by decide)) hin hroute htype
      (takeDictReq_read horigin hanswers hnew hop)
  case dictReqDescribe =>
    rintro s k c1 _ _ hs hin hroute htype horigin hanswers hnew hop rfl rfl
    exact does_dictReq hs (inOrder_tunnel_read s.round hop (by decide)) hin hroute htype
      (takeDictReq_describe horigin hanswers hnew hop)
  case dictReqWrite =>
    intro s k c1 hs hturn hin hroute htype horigin hanswers hnew hop
    have hplace : fieldAt k.payload 0 1 = 2 := by rwa [stamped_payload] at hop
    exact does_dictReq hs (inOrder_of_turn hturn (if_pos hplace)) hin hroute htype
      (takeDictReq_write horigin hanswers hnew hop)
  case dma =>
    intro s k c1 d hs hin hroute hlive htype horigin hasked hstatus
    refine does_of_packet hs hin hroute hlive htype rfl
      ((serve_dma c1 ((stamped_ptype ..).trans htype)).trans ((takeData_dma horigin).trans ?_))
    rw [hstatus, answer_arrives hasked]
  case dmaFailed =>
    exact fun s k c1 d hs hin hroute hlive htype horigin hasked hstatus =>
      does_of_packet hs hin hroute hlive htype rfl
        ((serve_dma c1 ((stamped_ptype ..).trans htype)).trans
          ((takeData_dma horigin).trans (answer_fails hasked _ hstatus)))
  case store =>
    intro s k c1 d hs hin hroute hlive htype hasked hstatus
    have hstamped := (stamped_ptype s.chip k).trans htype
    refine does_of_packet hs hin hroute hlive htype rfl
      ((serve_store c1 hstamped).trans ((takeData_store hstamped).trans ?_))
    rw [hstatus, answer_arrives hasked]
  case storeFailed =>
    intro s k c1 d hs hin hroute hlive htype hasked hstatus
    have hstamped := (stamped_ptype s.chip k).trans htype
    exact does_of_packet hs hin hroute hlive htype rfl
      ((serve_store c1 hstamped).trans ((takeData_store hstamped).trans (answer_fails hasked _ hstatus)))
  case dmaTimeout =>
    exact fun s v id d hs hasked hdue =>
      does_of_run hs (f := fun c => c.dmaTimedOut v id) rfl (dmaTimedOut_due hasked hdue)
  case dmaTimeoutEarly =>
    exact fun s v id d hs hasked hearly =>
      does_of_run hs (f := fun c => c.dmaTimedOut v id) rfl (dmaTimedOut_early hasked hearly)
  case camData =>
    exact fun s k c1 hs hin hroute hlive htype hch hsource hoff =>
      does_of_packet hs hin hroute hlive htype rfl
        ((serve_camData c1 ((stamped_ptype ..).trans htype)).trans (takeCamData_off hch hsource hoff))
  case camDataKept =>
    exact fun s k c1 n rows hs hin hroute hlive htype hch hsource hon hgated hn hrows hlow hhigh hsome =>
      does_of_packet hs hin hroute hlive htype rfl
        ((serve_camData c1 ((stamped_ptype ..).trans htype)).trans
          (takeCamData_kept hch hsource hon hgated hn hrows hlow hhigh hsome))
  case imu =>
    exact fun s k c1 hs hin hroute hlive htype hch hsource hgated =>
      does_of_packet hs hin hroute hlive htype rfl
        ((serve_samples c1 ((stamped_ptype ..).trans htype)).trans (takeSamples_virtual hch hsource hgated))
  case imuOther =>
    exact fun s k c1 hs hin hroute hlive htype hother =>
      does_of_packet hs hin hroute hlive htype rfl
        ((serve_samples c1 ((stamped_ptype ..).trans htype)).trans (takeSamples_other hother))
  case listPart =>
    exact fun s k c1 hs hin hroute hlive htype hi hsource hgated hpart =>
      does_of_packet hs hin hroute hlive htype rfl
        ((serve_list c1 ((stamped_ptype ..).trans htype)).trans (takeList_part hi hsource hgated hpart))
  case listWhole =>
    exact fun s k c1 hs hin hroute hlive htype hi hsource hgated hwhole hmagic hgood =>
      does_of_packet hs hin hroute hlive htype rfl
        ((serve_list c1 ((stamped_ptype ..).trans htype)).trans
          (takeList_whole hi hsource hgated hwhole hmagic hgood))
  case records =>
    exact fun s k c1 hs hin hroute hlive htype hi hsource hgated =>
      does_of_packet hs hin hroute hlive htype rfl
        ((serve_records c1 ((stamped_ptype ..).trans htype)).trans (takeRecords_virtual hi hsource hgated))
  case routeGone =>
    exact fun s k c1 hs hin hroute => does_of_run hs (f := fun c => c.packetIn k) rfl (packetIn_gone hin hroute)
  case routeFailed =>
    exact fun s k c1 hs hin hroute => does_of_run hs (f := fun c => c.packetIn k) rfl (packetIn_failed hin hroute)
  case routeMine =>
    exact fun s k c1 hs hin hroute hlive =>
      does_of_run hs (f := fun c => c.packetIn k) rfl (packetIn_mine hin hroute (.inl hlive))
  case routeNone =>
    exact fun s k hs hin => does_of_run hs (f := fun c => c.packetIn k) rfl (packetIn_nowhere hin)

end Sys2Proof.Machine
end

section
/-! SUPPORT. The Breeze link: beacons, the node's own slot, sync words, headers, frames, acknowledgements and what the node
forgets (R705 to R735). -/

namespace Sys2Proof.Machine

/-! ### Beacons of the coordinator (R714, R726, R734) -/

section
variable {c : Chip} (hradio : c.radioOn = true) (hstate : c.bzState = 4) (hdue : c.beaconDue = true)
include hradio hstate hdue

/-- R714: a beacon of its fixed fields alone. -/
theorem sendBeacon_empty (hqueue : c.newSuperframe.oldest = none) : c.sendBeacon =
    c.newSuperframe.transmit (c.newSuperframe.slotStart 0 + 10000) 0 (c.newSuperframe.beaconFields false) := by
  simp [Chip.sendBeacon, hradio, hstate, hdue, hqueue]

section
variable {i : Nat} {m : BreezeMsg} (hqueue : c.newSuperframe.oldest = some (i, m))
include hqueue

/-- R726: the oldest message goes with the beacon. -/
theorem sendBeacon_message (hroom : 28 + m.body.length ≤ c.longest false) : c.sendBeacon =
    (let r := c.newSuperframe.takeSeq i m
     (r.1.transmit (c.newSuperframe.slotStart 0 + 10000) 0 (c.newSuperframe.beaconFields true ++ m.bytes r.2)).leaveQueue i
       (if m.dest = 0xFF then 2 else 4)) := by
  simp [Chip.sendBeacon, hradio, hstate, hdue, hqueue, hroom.not_gt]

/-- R713: a message without room stays in the queue. -/
theorem sendBeacon_long (hlong : c.longest false < 28 + m.body.length) : c.sendBeacon =
    c.newSuperframe.transmit (c.newSuperframe.slotStart 0 + 10000) 0 (c.newSuperframe.beaconFields false) := by
  simp [Chip.sendBeacon, hradio, hstate, hdue, hqueue, hlong]

end

end

theorem sendBeacon_early {c : Chip} (hearly : c.beaconDue = false) : c.sendBeacon = c := by
  simp [Chip.sendBeacon, hearly]

/-! ### The node's own slot (R712, R718, R719, R724) -/

/-- R712, R718: the slot is used, and SLOT_OFFSET shows its predicted offset. -/
def Chip.slotUsed (c : Chip) (t : Nat) : Chip :=
  ({ c with breeze := { c.breeze with used := some t } } : Chip).dset (bzKey 21)
    (Nat.min 0xFFFF (divRne (c.offsetScaled t) 25000000))

theorem ownSlot_other {c : Chip} (h : c.ownStart = none) : c.ownSlot = c := by
  simp [Chip.ownSlot, h]

section
variable {c : Chip} {t : Nat} (hradio : c.radioOn = true) (hown : c.ownStart = some t)
include hradio hown

/-- R719: beyond 20 µs the node only listens. -/
theorem ownSlot_late (hstate : c.bzState = 2 ∨ c.bzState = 3) (hfar : 5000000000 < c.offsetScaled t) :
    c.ownSlot = (c.slotUsed t).dset (bzKey 20) 3 := by
  obtain hstate | hstate := hstate <;> simp [Chip.ownSlot, hradio, hown, hstate, hfar, Chip.slotUsed]

variable (hnear : c.offsetScaled t ≤ 5000000000)
include hnear

theorem ownSlot_quiet (hstate : c.bzState = 3) : c.ownSlot = c.slotUsed t := by
  simp [Chip.ownSlot, hradio, hown, hstate, hnear.not_gt, Chip.slotUsed]

variable (hstate : c.bzState = 2)
include hstate

theorem ownSlot_empty (hqueue : (c.slotUsed t).oldest = none) : c.ownSlot = c.slotUsed t := by
  simp only [Chip.slotUsed] at hqueue
  simp [Chip.ownSlot, hradio, hown, hstate, hnear.not_gt, hqueue, Chip.slotUsed]

variable {i : Nat} {m : BreezeMsg} (hqueue : (c.slotUsed t).oldest = some (i, m))
  (hroom : 4 + m.body.length ≤ (c.slotUsed t).messageRoom m.dest)
include hqueue hroom

/-- R724: a message to every node leaves the queue as it is sent. -/
theorem ownSlot_broadcast (hdest : m.dest = 0xFF) : c.ownSlot =
    (let r := (c.slotUsed t).takeSeq i m
     (r.1.transmit (t + 10000) 1 (m.bytes r.2)).leaveQueue i 2) := by
  simp only [Chip.slotUsed, hdest] at hqueue hroom
  simp [Chip.ownSlot, hradio, hown, hstate, hnear.not_gt, hqueue, hroom.not_gt, hdest, Chip.slotUsed]

/-- R724, R727: a message to one node stays in the queue, and its ACK is awaited. -/
theorem ownSlot_unicast (hdest : m.dest ≠ 0xFF) : c.ownSlot =
    (let r := (c.slotUsed t).takeSeq i m
     let d := if m.sends = 0 then r.1 else r.1.dinc (bzKey 39)
     Chip.transmit { d with breeze := { d.breeze with
       awaiting := some (t + 10000 + c.rampUpdates + (104 + 8 * (4 + m.body.length)) * c.bitUpdates)
       queue := d.breeze.queue.set i { m with seq := some r.2, sends := m.sends + 1 } } } (t + 10000) 2 (m.bytes r.2)) := by
  simp only [Chip.slotUsed] at hqueue hroom
  simp [Chip.ownSlot, hradio, hown, hstate, hnear.not_gt, hqueue, hroom.not_gt, hdest, Chip.slotUsed]

end

/-! What the times on air depend on, which using a slot and taking a SEQ leave. -/

theorem rampUpdates_congr {c d : Chip} (h : d.dget (bzKey 7) = c.dget (bzKey 7)) : d.rampUpdates = c.rampUpdates := by
  simp only [Chip.rampUpdates, h]

theorem bitUpdates_congr {c d : Chip} (hrate : d.dget (bzKey 5) = c.dget (bzKey 5))
    (hlevel : d.dget (ent 0x1018 2) = c.dget (ent 0x1018 2)) : d.bitUpdates = c.bitUpdates := by
  simp only [Chip.bitUpdates, Chip.bitTime, Chip.slowRadio, hrate, hlevel]
  rfl

theorem slotUsed_dget (c : Chip) (t : Nat) {key : Nat} (h : key ≠ bzKey 21) : (c.slotUsed t).dget key = c.dget key :=
  dget_dset_other _ h

/-- R728: a SEQ that is taken shows in TX_SEQ alone. -/
theorem takeSeq_dget (c : Chip) (i : Nat) (m : BreezeMsg) {key : Nat} (h : key ≠ bzKey 17) :
    (c.takeSeq i m).1.dget key = c.dget key := by
  unfold Chip.takeSeq
  split
  · rfl
  · exact dget_dset_other _ h

/-- A unicast counts no other entry than its SEQ, its slot's offset and its repeats. -/
theorem unicast_dget (c : Chip) (t i : Nat) (m : BreezeMsg) {key : Nat} (hoffset : key ≠ bzKey 21) (hseq : key ≠ bzKey 17)
    (hrepeat : key ≠ bzKey 39) :
    (if m.sends = 0 then ((c.slotUsed t).takeSeq i m).1 else ((c.slotUsed t).takeSeq i m).1.dinc (bzKey 39)).dget key =
      c.dget key := by
  split
  · exact (takeSeq_dget _ i m hseq).trans (slotUsed_dget c t hoffset)
  · exact (dget_dinc_other hrepeat).trans ((takeSeq_dget _ i m hseq).trans (slotUsed_dget c t hoffset))

/-! ### Sync words (R705, R706) -/

section
variable {c : Chip} {levels w r : List Nat} {k : Nat} (hradio : c.radioOn = true) (hidle : c.breeze.sync = none)
  (hheard : c.breeze.deaf + levels.length * c.bitUpdates ≤ c.now) (hpreamble : findPreamble levels = some (w, r))
  (hsync : c.syncAt w.sum r 0 = some k) (hlast : r.length = k + 32)
include hradio hidle hheard hpreamble hsync hlast

/-- R706: the reception of a frame begins. -/
theorem syncWord_inWindow {slot : Nat} {ack : Bool} (hwindow : c.syncWindow c.now = some (slot, ack)) :
    c.syncWord levels = c.receiving
      { sum := w.sum, swing := gap (everyOther w).sum (everyOther (w.drop 1)).sum, levels := r
        marks := [(r.length, c.posNat)], start := k, ended := c.now, slot, ack } := by
  simp [Chip.syncWord, hradio, hidle, hheard.not_gt, hpreamble, hsync, hlast, hwindow]

theorem syncWord_outOfSlot (hwindow : c.syncWindow c.now = none) : c.syncWord levels = c.dinc (bzKey 31) := by
  simp [Chip.syncWord, hradio, hidle, hheard.not_gt, hpreamble, hsync, hlast, hwindow]

end

/-- R705: levels without a preamble, or without a sync word after it. -/
theorem syncWord_none {c : Chip} {levels : List Nat}
    (h : (findPreamble levels).all (fun q => (c.syncAt q.1.sum q.2 0).isNone) = true) : c.syncWord levels = c := by
  unfold Chip.syncWord
  split
  · rfl
  · cases hpreamble : findPreamble levels with
    | none => rfl
    | some q =>
      have hnone : c.syncAt q.1.sum q.2 0 = none := by simpa [hpreamble] using h
      simp [hnone]

/-! ### Headers (R700, R706 to R708) -/

theorem takeHeader_hears {c : Chip} {x : BreezeRx} {levels : List Nat} (hsync : c.breeze.sync = some x)
    (hradio : c.radioOn = true) (hfirst : c.breeze.header = none) :
    c.takeHeader levels = c.headerOf (x.hear c.posNat levels) := by
  simp [Chip.takeHeader, hsync, hradio, hfirst]

theorem goodAirHeader_iff (c : Chip) (bs : List Byte) : c.goodAirHeader bs = true ↔ fieldAt bs 2 1 = crc8 (bs.take 2) ∧
    fieldAt bs 0 1 % 8 < 4 ∧ fieldAt bs 1 1 ≤ c.typeRoom (fieldAt bs 0 1 % 8) := by
  simp [Chip.goodAirHeader, and_assoc]

theorem rightWindow_iff (c : Chip) (x : BreezeRx) (ty : Nat) :
    c.rightWindow x ty = true ↔ x.ack = (ty == 3) ∧ (c.bzState = 1 → ty = 0) := by
  by_cases hstate : c.bzState = 1 <;> simp [Chip.rightWindow, hstate]

section
variable {c : Chip} {x : BreezeRx} {bs : List Byte} (hbytes : (x.bytes 32).take 3 = bs) (hlength : bs.length = 3)
include hbytes hlength

/-- R707: a false sync is counted, and the search goes on behind it. -/
theorem headerOf_bad (hbad : fieldAt bs 2 1 ≠ crc8 (bs.take 2) ∨ 4 ≤ fieldAt bs 0 1 % 8 ∨
    c.typeRoom (fieldAt bs 0 1 % 8) < fieldAt bs 1 1) : c.headerOf x = (c.dinc (bzKey 32)).resumeSync x := by
  have hrejected : c.goodAirHeader bs = false := by
    rw [Bool.eq_false_iff, Ne, goodAirHeader_iff]
    rintro ⟨hcrc, htype, hroom⟩
    obtain h | h | h := hbad
    · exact h hcrc
    · exact h.not_gt htype
    · exact h.not_ge hroom
  simp [Chip.headerOf, hbytes, hlength, hrejected]

variable (hcrc : fieldAt bs 2 1 = crc8 (bs.take 2)) (htype : fieldAt bs 0 1 % 8 < 4)
  (hroom : fieldAt bs 1 1 ≤ c.typeRoom (fieldAt bs 0 1 % 8))
include hcrc htype hroom

theorem headerOf_good (hack : x.ack = (fieldAt bs 0 1 % 8 == 3)) (hsearch : c.bzState = 1 → fieldAt bs 0 1 % 8 = 0) :
    c.headerOf x =
      { c with breeze := { c.breeze with sync := some x, header := some (fieldAt bs 0 1, fieldAt bs 1 1) } } := by
  have hgood := (goodAirHeader_iff c bs).2 ⟨hcrc, htype, hroom⟩
  have hwindow := (rightWindow_iff c x (fieldAt bs 0 1 % 8)).2 ⟨hack, hsearch⟩
  simp [Chip.headerOf, hbytes, hlength, hgood, hwindow]

/-- R706, R717: a type that its window does not take. -/
theorem headerOf_wrongWindow
    (hwrong : x.ack ≠ (fieldAt bs 0 1 % 8 == 3) ∨ (c.bzState = 1 ∧ fieldAt bs 0 1 % 8 ≠ 0)) :
    c.headerOf x = c.endReception.dinc (bzKey 31) := by
  have hgood := (goodAirHeader_iff c bs).2 ⟨hcrc, htype, hroom⟩
  have hwindow : c.rightWindow x (fieldAt bs 0 1 % 8) = false := by
    rw [Bool.eq_false_iff, Ne, rightWindow_iff]
    rintro ⟨hack, hsearch⟩
    obtain h | ⟨hstate, h⟩ := hwrong
    · exact h hack
    · exact h (hsearch hstate)
  simp [Chip.headerOf, hbytes, hlength, hgood, hwindow]

end

/-! ### Frames (R702, R709, R724, R729) -/

section
variable {c c1 : Chip} {a n : Nat} (q rssi : Nat) {levels : List Nat} (hheader : c.breeze.header = some (a, n))
  (hradio : c.radioOn = true)
include hheader hradio

section
variable (htype : a % 8 = 1 ∨ a % 8 = 2)
include htype

theorem dataFrame_bad (hpayload : c.takePayload levels = (c1, none)) : c.dataFrame q rssi levels = c1 := by
  obtain htype | htype := htype <;> simp [Chip.dataFrame, Chip.frameType, hheader, hradio, htype, hpayload]

/-- R729: a frame of a node's messages. -/
theorem dataFrame_good {y : BreezeRx} {m : List Byte} (hpayload : c.takePayload levels = (c1, some (y, m))) :
    c.dataFrame q rssi levels = (c1.noteFrame (a / 8) (y.quality m.length) q rssi).takeMessage y (c.airEnd y m.length) (a / 8)
      (a % 8) (y.quality m.length) q rssi m := by
  obtain htype | htype := htype <;>
    simp [Chip.dataFrame, Chip.frameType, Chip.frameSource, hheader, hradio, htype, hpayload]

end

section
variable {y : BreezeRx} {m : List Byte} (htype : a % 8 = 0) (hmember : c.bzState ≠ 4)
  (hpayload : c.takePayload levels = (c1, some (y, m)))
include htype hmember hpayload

/-- R715: a beacon of another fleet. -/
theorem beaconFrame_other (hother : m.length < 24 ∨ fieldAt m 0x14 1 ≠ c.dget (bzKey 3)) :
    c.beaconFrame q rssi levels = c1.dinc (bzKey 35) := by
  simp only [Chip.beaconFrame, Chip.frameType, hheader, hradio, Option.map_some, htype, hpayload, if_neg hmember, if_pos hother]
  rfl

/-- R717, R719, R735: a beacon of the node's own fleet, with the message that follows its fields. -/
theorem beaconFrame_own (hlength : 24 ≤ m.length) (hfleet : fieldAt m 0x14 1 = c.dget (bzKey 3)) :
    c.beaconFrame q rssi levels =
      (let e := c1.takeBeacon y (y.quality m.length) q rssi m
       if bit (fieldAt m 0x15 1) 1 then
         e.takeMessage y (c.airEnd y m.length) 0 0 (y.quality m.length) q rssi (m.drop 24) else e) := by
  have hown : ¬(m.length < 24 ∨ fieldAt m 0x14 1 ≠ c.dget (bzKey 3)) := by simp [hlength.not_gt, hfleet]
  simp only [Chip.beaconFrame, Chip.frameType, hheader, hradio, Option.map_some, htype, hpayload, if_neg hmember, if_neg hown]
  rfl

end

/-- R724: an ACK is counted, and looks for the unicast that awaits it. -/
theorem ackFrame_good {y : BreezeRx} {m : List Byte} (htype : a % 8 = 3)
    (hpayload : c.takePayload levels = (c1, some (y, m))) : c.ackFrame q rssi levels =
      ((c1.noteFrame (a / 8) (y.quality m.length) q rssi).dinc (bzKey 44)).acknowledged (a / 8) (fieldAt m 0 1) := by
  simp [Chip.ackFrame, Chip.frameType, Chip.frameSource, hheader, hradio, htype, hpayload]

end

/-! ### Acknowledgements (R724, R725, R727) -/

/-- R725: the ACK of the unicast that waits takes it from the queue. -/
theorem acknowledged_awaited {c : Chip} {source seq i : Nat} {u : BreezeMsg} (hawaited : c.breeze.awaiting.isSome = true)
    (hqueue : c.oldest = some (i, u)) (hdest : u.dest = source) (hseq : u.seq = some seq) :
    c.acknowledged source seq = c.leaveQueue i 1 := by
  simp [Chip.acknowledged, hqueue, hawaited, hdest, hseq]

theorem acknowledged_unawaited {c : Chip} (source seq : Nat) (h : c.breeze.awaiting = none) :
    c.acknowledged source seq = c := by
  unfold Chip.acknowledged
  split
  · simp [h]
  · rfl

section
variable {c : Chip} {a q t : Nat} (hack : c.breeze.ackDue = some (a, q, t))
include hack

theorem bzSendAck_early (hearly : c.now < t + 25000) : c.bzSendAck = c := by
  simp [Chip.bzSendAck, hack, hearly]

/-- R727: the ACK goes out 100 µs after the frame's last bit. -/
theorem bzSendAck_due (hdue : t + 25000 ≤ c.now)
    (hradio : ({ c with breeze := { c.breeze with ackDue := none } } : Chip).radioOn = true) (hstate : c.bzState ≠ 1) :
    c.bzSendAck = (Chip.transmit { c with breeze := { c.breeze with ackDue := none } } c.now 3
      (leBytes 1 a ++ leBytes 1 q)).dinc (bzKey 45) := by
  have hradio : c.radioOn = true := hradio
  simp [Chip.bzSendAck, hack, hdue.not_gt, hradio, hstate]

end

/-- R727: the chip that awaits no ACK any more, with ACK_TIMEOUTS counted. -/
def Chip.ackMissed (c : Chip) : Chip :=
  ({ c with breeze := { c.breeze with awaiting := none } } : Chip).dinc (bzKey 38)

section
variable {c : Chip} {t : Nat} (hawaited : c.breeze.awaiting = some t)
include hawaited

theorem ackTimedOut_early (hearly : c.now ≤ t + c.ackAfter + 2000) : c.ackTimedOut = c := by
  simp [Chip.ackTimedOut, Chip.ackLate, hawaited, hearly.not_gt]

variable {i : Nat} {m : BreezeMsg} (hlate : t + c.ackAfter + 2000 < c.now)
  (hnone : c.breeze.sync.any (fun x => x.ack) = false) (hqueue : c.ackMissed.oldest = some (i, m))
include hlate hnone hqueue

theorem ackTimedOut_repeats (hleft : m.sends ≤ c.dget (bzKey 10)) : c.ackTimedOut = c.ackMissed := by
  have hwaits : c.ackLate = true := by simp [Chip.ackLate, hawaited, hlate, hnone]
  have hrepeats : ¬ c.dget (bzKey 10) + 1 ≤ m.sends := by omega
  simp only [Chip.ackMissed] at hqueue
  simp only [Chip.ackTimedOut, hwaits, hqueue, hrepeats]
  rfl

/-- R725: after its last repeat the message leaves the queue. -/
theorem ackTimedOut_last (hover : c.dget (bzKey 10) < m.sends) :
    c.ackTimedOut = (c.ackMissed.dinc (bzKey 40)).leaveQueue i 3 := by
  have hwaits : c.ackLate = true := by simp [Chip.ackLate, hawaited, hlate, hnone]
  have hends : c.dget (bzKey 10) + 1 ≤ m.sends := hover
  simp only [Chip.ackMissed] at hqueue
  simp only [Chip.ackTimedOut, hwaits, hqueue, hends]
  rfl

end

/-! ### Beacons that are missed, frames cut off, and sources forgotten (R716, R720, R730) -/

theorem beaconMissed_early {c : Chip}
    (hearly : c.now ≤ c.slotStart (32 * (c.breeze.misses + 1)) + c.syncAfter + 10000) : c.beaconMissed = c := by
  simp [Chip.beaconMissed, Chip.beaconLate, hearly.not_gt]

/-- R720: a beacon is missed; with the fourth in a row the member searches. -/
theorem beaconMissed_late {c : Chip} (hradio : c.radioOn = true) (hstate : c.bzState = 2 ∨ c.bzState = 3)
    (hidle : c.breeze.sync = none) (hlate : c.slotStart (32 * (c.breeze.misses + 1)) + c.syncAfter + 10000 < c.now) :
    c.beaconMissed =
      (let c1 := (c.dinc (bzKey 36)).dinc (bzKey 19)
       if 4 ≤ c.breeze.misses + 1 then c1.bzSearch.dinc (bzKey 37)
       else { c1 with breeze := { c.breeze with misses := c.breeze.misses + 1 } }) := by
  have hmissed : c.beaconLate = true := by simp [Chip.beaconLate, hidle, hlate]
  obtain hstate | hstate := hstate
  all_goals
    simp only [Chip.beaconMissed, hradio, hstate, hmissed]
    rfl

theorem slotOverrun_over {c : Chip} {x : BreezeRx} (hradio : c.radioOn = true) (hstate : c.bzState ≠ 1)
    (hsync : c.breeze.sync = some x) (hover : x.ended < c.slotStart (c.slotAt c.now)) :
    c.slotOverrun = c.endReception.dinc (bzKey 34) := by
  simp [Chip.slotOverrun, Chip.overrun, hradio, hstate, hsync, hover]

section
variable {c : Chip} {src : Nat} {x : BreezeSource} (hsource : tabGet? c.breeze.sources src = some x)
include hsource

theorem forgetSource_unheard (hlong : 16 ≤ (c.dget (bzKey 19) + m32 - x.heard % m32) % m32) :
    c.forgetSource src = { c with breeze := { c.breeze with sources := tabDel c.breeze.sources src } } := by
  simp only [Chip.forgetSource, hsource, if_pos hlong]

theorem forgetSource_heard (hshort : (c.dget (bzKey 19) + m32 - x.heard % m32) % m32 < 16) : c.forgetSource src = c := by
  simp only [Chip.forgetSource, hsource, if_neg hshort.not_ge]

end

/-! ### The commands -/

/-- Settles O58, a clause at a time: each command is a `work`, and its effect in the clause's case is the lemma's. -/
theorem breezeCommandsComplete : Obligations.BreezeCommandsComplete := by
  refine ⟨?beacon, ?beaconMsg, ?beaconLong, ?beaconEarly, ?slotEmpty, ?slotLate, ?slotQuiet, ?slotOther, ?slotBroadcast,
    ?slotUnicast, ?sync, ?syncOff, ?syncNone, ?header, ?headerBad, ?headerWindow, ?frame, ?frameBad, ?beaconOther, ?beaconIn,
    ?ackSend, ?ackSendEarly, ?ackIn, ?ackNone, ?timeout, ?timeoutLast, ?timeoutEarly, ?missed, ?missedLast, ?missedEarly,
    ?overrun, ?forget, ?forgetLater⟩
  case beacon =>
    intro s c1 hs hradio hstate hdue hc1 hqueue
    obtain rfl : s.chip.newSuperframe = c1 := hc1
    exact does_of_work hs (f := Chip.sendBeacon) rfl (sendBeacon_empty hradio hstate hdue hqueue)
  case beaconMsg =>
    intro s c1 i m hs hradio hstate hdue hc1 hqueue hroom
    obtain rfl : s.chip.newSuperframe = c1 := hc1
    exact does_of_work hs (f := Chip.sendBeacon) rfl (sendBeacon_message hradio hstate hdue hqueue hroom)
  case beaconLong =>
    intro s c1 i m hs hradio hstate hdue hc1 hqueue hlong
    obtain rfl : s.chip.newSuperframe = c1 := hc1
    exact does_of_work hs (f := Chip.sendBeacon) rfl (sendBeacon_long hradio hstate hdue hqueue hlong)
  case beaconEarly => exact fun s hs hearly => does_of_work hs (f := Chip.sendBeacon) rfl (sendBeacon_early hearly)
  case slotEmpty =>
    rintro s t _ hs hradio hstate hown hnear rfl hqueue
    exact does_of_work hs (f := Chip.ownSlot) rfl (ownSlot_empty hradio hown hnear hstate hqueue)
  case slotLate =>
    exact fun s t hs hradio hstate hown hfar =>
      does_of_work hs (f := Chip.ownSlot) rfl (ownSlot_late hradio hown hstate hfar)
  case slotQuiet =>
    exact fun s t hs hradio hstate hown hnear =>
      does_of_work hs (f := Chip.ownSlot) rfl (ownSlot_quiet hradio hown hnear hstate)
  case slotOther => exact fun s hs hother => does_of_work hs (f := Chip.ownSlot) rfl (ownSlot_other hother)
  case slotBroadcast =>
    rintro s t i m _ hs hradio hstate hown hnear rfl hqueue hroom hdest
    exact does_of_work hs (f := Chip.ownSlot) rfl (ownSlot_broadcast hradio hown hnear hstate hqueue hroom hdest)
  case slotUnicast =>
    rintro s t i m _ hs hradio hstate hown hnear rfl hqueue hroom hdest
    refine does_of_work hs (f := Chip.ownSlot) rfl
      ((ownSlot_unicast hradio hown hnear hstate hqueue hroom hdest).trans ?_)
    rw [← rampUpdates_congr (unicast_dget s.chip t i m (by decide) (by decide) (by decide)),
      ← bitUpdates_congr (unicast_dget s.chip t i m (by decide) (by decide) (by decide))
        (unicast_dget s.chip t i m (by decide) (by decide) (by decide))]
    rfl
  case sync =>
    exact fun s levels w r k slot ack hs hradio hidle hheard hpreamble hsync hlast hwindow =>
      does_of_work hs (f := fun c => c.syncWord levels) rfl
        (syncWord_inWindow hradio hidle hheard hpreamble hsync hlast hwindow)
  case syncOff =>
    exact fun s levels w r k hs hradio hidle hheard hpreamble hsync hlast hwindow =>
      does_of_work hs (f := fun c => c.syncWord levels) rfl
        (syncWord_outOfSlot hradio hidle hheard hpreamble hsync hlast hwindow)
  case syncNone =>
    exact fun s levels hs hnone => does_of_work hs (f := fun c => c.syncWord levels) rfl (syncWord_none hnone)
  case header =>
    exact fun s x levels bs hs hsync hradio hfirst hbytes hlength hcrc htype hroom hack hsearch =>
      does_of_work hs (f := fun c => c.takeHeader levels) rfl
        ((takeHeader_hears hsync hradio hfirst).trans (headerOf_good hbytes hlength hcrc htype hroom hack hsearch))
  case headerBad =>
    exact fun s x levels bs hs hsync hradio hfirst hbytes hlength hbad =>
      does_of_work hs (f := fun c => c.takeHeader levels) rfl
        ((takeHeader_hears hsync hradio hfirst).trans (headerOf_bad hbytes hlength hbad))
  case headerWindow =>
    exact fun s x levels bs hs hsync hradio hfirst hbytes hlength hcrc htype hroom hwrong =>
      does_of_work hs (f := fun c => c.takeHeader levels) rfl
        ((takeHeader_hears hsync hradio hfirst).trans (headerOf_wrongWindow hbytes hlength hcrc htype hroom hwrong))
  case frame =>
    exact fun s a n q rssi payload crc c1 y m hs hheader hradio htype hpayload =>
      does_of_work hs (f := fun c => c.dataFrame q rssi (payload ++ crc)) rfl
        (dataFrame_good q rssi hheader hradio htype hpayload)
  case frameBad =>
    exact fun s a n q rssi payload crc c1 hs hheader hradio htype hpayload =>
      does_of_work hs (f := fun c => c.dataFrame q rssi (payload ++ crc)) rfl
        (dataFrame_bad q rssi hheader hradio htype hpayload)
  case beaconOther =>
    exact fun s a n q rssi payload crc c1 y m hs hheader hradio htype hmember hpayload hother =>
      does_of_work hs (f := fun c => c.beaconFrame q rssi (payload ++ crc)) rfl
        (beaconFrame_other q rssi hheader hradio htype hmember hpayload hother)
  case beaconIn =>
    rintro s a n q rssi payload crc c1 y m _ _ hs hheader hradio htype hmember hpayload hlength hfleet rfl rfl
    exact does_of_work hs (f := fun c => c.beaconFrame q rssi (payload ++ crc)) rfl
      (beaconFrame_own q rssi hheader hradio htype hmember hpayload hlength hfleet)
  case ackSend =>
    exact fun s a q t hs hack hdue hradio hstate =>
      does_of_work hs (f := Chip.bzSendAck) rfl (bzSendAck_due hack hdue hradio hstate)
  case ackSendEarly =>
    exact fun s a q t hs hack hearly => does_of_work hs (f := Chip.bzSendAck) rfl (bzSendAck_early hack hearly)
  case ackIn =>
    rintro s a n q rssi payload crc c1 _ y m i u hs hheader hradio htype hpayload rfl hawaited hqueue hdest hseq
    exact does_of_work hs (f := fun c => c.ackFrame q rssi (payload ++ crc)) rfl
      ((ackFrame_good q rssi hheader hradio htype hpayload).trans (acknowledged_awaited hawaited hqueue hdest hseq))
  case ackNone =>
    rintro s a n q rssi payload crc c1 _ y m hs hheader hradio htype hpayload rfl hunawaited
    exact does_of_work hs (f := fun c => c.ackFrame q rssi (payload ++ crc)) rfl
      ((ackFrame_good q rssi hheader hradio htype hpayload).trans (acknowledged_unawaited _ _ hunawaited))
  case timeout =>
    exact fun s t i m hs hawaited hlate hnone hqueue hleft =>
      does_of_work hs (f := Chip.ackTimedOut) rfl (ackTimedOut_repeats hawaited hlate hnone hqueue hleft)
  case timeoutLast =>
    exact fun s t i m hs hawaited hlate hnone hqueue hover =>
      does_of_work hs (f := Chip.ackTimedOut) rfl (ackTimedOut_last hawaited hlate hnone hqueue hover)
  case timeoutEarly =>
    exact fun s t hs hawaited hearly =>
      does_of_work hs (f := Chip.ackTimedOut) rfl (ackTimedOut_early hawaited hearly)
  case missed =>
    exact fun s hs hradio hstate hidle hlate hfew =>
      does_of_work hs (f := Chip.beaconMissed) rfl
        ((beaconMissed_late hradio hstate hidle hlate).trans (if_neg (by omega)))
  case missedLast =>
    exact fun s hs hradio hstate hidle hlate hmany =>
      does_of_work hs (f := Chip.beaconMissed) rfl
        ((beaconMissed_late hradio hstate hidle hlate).trans (if_pos (by omega)))
  case missedEarly =>
    exact fun s hs hearly => does_of_work hs (f := Chip.beaconMissed) rfl (beaconMissed_early hearly)
  case overrun =>
    exact fun s x hs hradio hstate hsync hover =>
      does_of_work hs (f := Chip.slotOverrun) rfl (slotOverrun_over hradio hstate hsync hover)
  case forget =>
    exact fun s src x hs hsource hlong =>
      does_of_work hs (f := fun c => c.forgetSource src) rfl (forgetSource_unheard hsource hlong)
  case forgetLater =>
    exact fun s src x hs hsource hshort =>
      does_of_work hs (f := fun c => c.forgetSource src) rfl (forgetSource_heard hsource hshort)

end Sys2Proof.Machine
end

section
/-! SUPPORT. The governor's loops, trips, the rail link, and the entries to and exits from P6 and HOLD (R745 to R770). -/

namespace Sys2Proof.Machine

/-! ### The demand loop (R750) -/

/-- R750: a window of utilisation has been sampled. -/
def Chip.demandSampled (c : Chip) (u : Nat) : Chip :=
  ({ c with gov := { c.gov with demandAt := some c.now } } : Chip).dset (govKey 7) (Nat.min u 100)

theorem demandTick_early {c : Chip} (u : Nat) (h : c.msSince c.gov.demandAt = false) : c.demandTick u = c := by
  simp [Chip.demandTick, h]

section
variable {c : Chip} (u : Nat) (hdue : c.msSince c.gov.demandAt = true)
include hdue

theorem demandTick_off (hoff : c.gov.started = false ∨ c.gov.p7 = true ∨ c.engine = .hold ∨ c.engine = .faulted) :
    c.demandTick u = c.demandSampled u := by
  have hstays : (!c.gov.started || c.gov.p7 || c.engine == .hold || c.engine == .faulted) = true := by
    simpa [or_assoc] using hoff
  simp only [Chip.demandTick, hdue, hstays]
  rfl

/-- R750: D follows the utilisation, within CEILING and FLOOR. -/
theorem demandTick_on {d : Nat} (hstarted : c.gov.started = true) (hp7 : c.gov.p7 = false) (hhold : c.engine ≠ .hold)
    (hfaulted : c.engine ≠ .faulted)
    (hd : (if c.dget (govKey 5) ≤ Nat.min u 100 then c.dget (govKey 4) - 1
      else if Nat.min u 100 < c.dget (govKey 6) then c.dget (govKey 4) + 1 else c.dget (govKey 4)) = d) :
    c.demandTick u = (c.demandSampled u).govern (fun e => e.dset (govKey 4) (e.clampLevel d)) := by
  subst hd
  have hmoves : (!c.gov.started || c.gov.p7 || c.engine == .hold || c.engine == .faulted) = false := by
    simp [hstarted, hp7, hhold, hfaulted]
  simp only [Chip.demandTick, hdue, hmoves]
  rfl

end

/-! ### The thermal and current loops (R752 to R757) -/

theorem thermalRelease_early {c : Chip} {t : Nat} (hcool : c.gov.coolSince = some t) (hearly : c.now < t + 2500000) :
    c.thermalRelease = c := by
  simp only [Chip.thermalRelease, hcool, if_pos hearly]

/-- R754: after 10 ms at or below THROTTLE − HYSTERESIS. -/
theorem thermalRelease_due {c : Chip} {t : Nat} (hcool : c.gov.coolSince = some t) (hdue : t + 2500000 ≤ c.now) :
    c.thermalRelease = ({ c with gov := { c.gov with coolSince := some c.now } } : Chip).govern
      (fun c => c.dset (thermalKey 14) (c.tl - 1)) := by
  simp only [Chip.thermalRelease, hcool, if_neg hdue.not_gt]

/-- R755: the sensors that a sample takes out of service. -/
def Chip.badSensors (c : Chip) (ts : List Int) : List Nat :=
  (List.range 8).filter (fun k => !c.isRetired (.sensor k) && (ts.getD k 0 < -440 || 1200 < ts.getD k 0))

theorem thermalSample_eq (c : Chip) (ts : List Int) : c.thermalSample ts =
    ((c.badSensors ts).foldl (fun (c : Chip) k => c.retireUnit (.sensor k) 8 0) c).thermalTick ts := rfl

theorem thermalSample_good {c : Chip} {ts : List Int} (h : c.badSensors ts = []) :
    c.thermalSample ts = c.thermalTick ts := by
  rw [thermalSample_eq, h, List.foldl_nil]

theorem thermalSample_bad {c : Chip} {ts : List Int} {k : Nat} (h : c.badSensors ts = [k]) :
    c.thermalSample ts = (c.retireUnit (.sensor k) 8 0).thermalTick ts := by
  rw [thermalSample_eq, h, List.foldl_cons, List.foldl_nil]

/-- R756: an estimate of ICORE, with its maximum. -/
def Chip.currentSampled (c : Chip) (i : Nat) : Chip :=
  let c1 := c.dset (railKey 2) (Nat.min i 0xFFFF)
  if c1.dget (railKey 3) < Nat.min i 0xFFFF then c1.dset (railKey 3) (Nat.min i 0xFFFF) else c1

/-- R757: since when the current is low, and the last step of CL. -/
def Chip.withCurrent (c : Chip) (low step : Option Nat) : Chip :=
  { c with gov := { c.gov with lowSince := low, stepAt := step } }

theorem currentStep_below {c c2 : Chip} {i : Nat} (hsampled : c.currentSampled i = c2)
    (hbelow : Nat.min i 0xFFFF ≤ c2.dget (railKey 1)) : c.currentStep i = c2.withCurrent
      (if 10 * Nat.min i 0xFFFF < 9 * c2.dget (railKey 1) then some (c2.gov.lowSince.getD c2.now) else none) none := by
  subst hsampled
  refine (if_pos hbelow).trans (congrArg (fun low => (c.currentSampled i).withCurrent low none) ?_)
  exact ite_congr (decide_eq_true_eq) (fun _ => rfl) (fun _ => rfl)

/-- R757: an estimate above ILIMIT steps CL, once in 50 µs; it is not below 0.9 × ILIMIT. -/
theorem currentStep_above {c c2 : Chip} {i : Nat} (hsampled : c.currentSampled i = c2)
    (habove : c2.dget (railKey 1) < Nat.min i 0xFFFF)
    (hdue : c2.gov.stepAt = none ∨ ∃ t, c2.gov.stepAt = some t ∧ t + 12500 ≤ c2.now) : c.currentStep i =
      (c2.withCurrent none (some c2.now)).govern (fun c => c.dset (railKey 4) (Nat.min 5 (c.cl + 1))) := by
  have hhigh : ¬ 10 * Nat.min i 0xFFFF < 9 * c2.dget (railKey 1) := by omega
  subst hsampled
  refine (if_neg habove.not_ge).trans ((if_pos ?due).trans (congrArg (fun low =>
    ((c.currentSampled i).withCurrent low (some (c.currentSampled i).now)).govern
      (fun c => c.dset (railKey 4) (Nat.min 5 (c.cl + 1)))) ?low))
  case low => exact if_neg (fun hlow => hhigh (of_decide_eq_true hlow))
  case due =>
    simp only [Chip.currentSampled] at hdue
    obtain hnone | ⟨t, hsome, hle⟩ := hdue
    · simp only [hnone]
    · simpa only [hsome, decide_eq_true_eq] using hle

/-- R757: after 10 ms below 0.9 × ILIMIT. -/
theorem currentRelease_due {c : Chip} {t : Nat} (hlow : c.gov.lowSince = some t) (hdue : t + 2500000 ≤ c.now) :
    c.currentRelease = ({ c with gov := { c.gov with lowSince := some c.now } } : Chip).govern
      (fun c => c.dset (railKey 4) (c.cl - 1)) := by
  simp only [Chip.currentRelease, hlow, if_neg hdue.not_gt]

/-! ### Trips (R764, R765) -/

section
variable {c : Chip} {tj : Int} (htj : 920 ≤ tj) (hbefore : 920 ≤ c.temp (thermalKey 1))
include htj hbefore

theorem trip_hold (hengine : c.engine = .config ∨ c.engine = .ready ∨ c.engine = .run) :
    c.trip tj = ((c.noteTj tj).noteTrip).goHold 2 := by
  have hhot : ¬(tj < 920 ∨ c.temp (thermalKey 1) < 920) := by omega
  obtain hengine | hengine | hengine := hengine <;> simp only [Chip.trip, if_neg hhot, hengine]

/-- R764: before CONFIG a trip stops the boot. -/
theorem trip_boot (hengine : c.engine = .boot ∨ c.engine = .selftest) (hfirst : c.gov.bootHot = false) :
    c.trip tj = { (c.noteTj tj).noteTrip with gov := { ((c.noteTj tj).noteTrip).gov with bootHot := true } } := by
  have hhot : ¬(tj < 920 ∨ c.temp (thermalKey 1) < 920) := by omega
  have hnew : ¬ c.gov.bootHot = true := by simp [hfirst]
  obtain hengine | hengine := hengine <;> simp only [Chip.trip, if_neg hhot, hengine, if_neg hnew]

/-- R765: in HOLD a trip replaces the host's cause. -/
theorem trip_inHold (hengine : c.engine = .hold) (hcause : c.dget (govKey 10) ≠ 2) :
    c.trip tj = ((c.noteTj tj).noteTrip).dset (govKey 10) 2 := by
  have hhot : ¬(tj < 920 ∨ c.temp (thermalKey 1) < 920) := by omega
  simp only [Chip.trip, if_neg hhot, hengine, if_neg hcause]

end

theorem trip_cold {c : Chip} {tj : Int} (h : tj < 920 ∨ c.temp (thermalKey 1) < 920) : c.trip tj = c.noteTj tj := if_pos h

/-- R764: a trip in force is not counted again. -/
theorem trip_again {c : Chip} (tj : Int) (h : (c.engine = .hold ∧ c.dget (govKey 10) = 2) ∨
    ((c.engine = .boot ∨ c.engine = .selftest) ∧ c.gov.bootHot = true)) : c.trip tj = c.noteTj tj := by
  unfold Chip.trip
  split
  · rfl
  · obtain ⟨hengine, hcause⟩ | ⟨hengine | hengine, hhot⟩ := h
    · simp only [hengine, if_pos hcause]
    · simp only [hengine, if_pos hhot]
    · simp only [hengine, if_pos hhot]

/-! ### The rail link (R745, R770) -/

theorem railTrouble_fault (c : Chip) : c.railTrouble true = c.enterFaulted 5 := if_pos rfl

theorem railTrouble_few {c : Chip} (h : c.gov.vrFails < 2) :
    c.railTrouble false = { c.dinc (railKey 10) with gov := { c.gov with vrFails := c.gov.vrFails + 1 } } :=
  if_neg (by simp only [Chip.railFailed, decide_eq_true_eq, Bool.false_eq_true, if_false]; omega)

/-- R770: the third failed transaction. -/
theorem railTrouble_third {c : Chip} (h : 2 ≤ c.gov.vrFails) : c.railTrouble false =
    ({ c.dinc (railKey 10) with gov := { c.gov with vrFails := c.gov.vrFails + 1 } } : Chip).enterFaulted 5 :=
  if_pos (by simp only [Chip.railFailed, decide_eq_true_eq, Bool.false_eq_true, if_false]; omega)

theorem vrAlert_fault {c : Chip} {w : Nat} (h : statusShowsOutputFault w = true) :
    c.vrAlert w = ({ c with gov := { c.gov with rail := some .statusWord } } : Chip).enterFaulted 5 := if_pos h

theorem vrAlert_none {c : Chip} {w : Nat} (h : statusShowsOutputFault w = false) :
    c.vrAlert w = { c with gov := { c.gov with rail := some .statusWord } } := if_neg (by simp [h])

/-- R745: the voltage of level `l` is reached, CCLK is that of level `clock`, and READ_VOUT is read. -/
def Chip.settledAt (c : Chip) (l clock : Nat) : Chip :=
  let f := ({ c with gov := { c.gov with volt := l, clock, settle := none, vrFails := 0, rail := some .readVout } } : Chip).fresh .rail
  f.1.dset (railKey 8) (f.2 % 0x10000)

section
variable {c : Chip} {t : Nat} (hsettle : c.gov.settle = some t)
include hsettle

theorem vrSettled_early (hearly : c.now < t) : c.vrSettled = c := by
  simp only [Chip.vrSettled, hsettle, if_pos hearly]

theorem vrSettled_due {l clock : Nat} (hdue : t ≤ c.now)
    (hl : (if c.gov.leaving.isSome then 2 else if c.gov.p7 then 5 else c.dget (govKey 1)) = l)
    (hclock : (if c.gov.p7 then c.gov.clock else l) = clock) : c.vrSettled = c.settledAt l clock := by
  subst hl hclock
  simp only [Chip.vrSettled, hsettle, if_neg hdue.not_gt, Chip.settledAt]

end

/-! ### P6 (R761, R762) -/

section
variable {c : Chip}

theorem idleGate_enters (hready : c.engine = .ready) (hon : c.dbool (govKey 8) = true) (hp6 : c.gov.p6 = false)
    (hledger : c.ledger.all LedgerEntry.ofCue = true) (hidle : c.working = false)
    (hdue : c.gov.workAt + 250 * c.dget (govKey 9) ≤ c.now) :
    c.idleGate = { c.endFrames.dinc (govKey 11) with gov := { c.gov with p6 := true, wake := false } } :=
  if_pos ⟨hready, hon, by simp [hp6], hledger, by simp [hidle], hdue⟩

theorem idleGate_notReady (h : c.engine ≠ .ready) : c.idleGate = c := if_neg (fun hgate => h hgate.1)

/-- R762: the exit resets the groups and restarts IDLE_DELAY. -/
theorem idleGateExit_wakes (hp6 : c.gov.p6 = true) (hwake : c.gov.wake = true) : c.idleGateExit =
    (let c1 := c.dinc (govKey 11)
     (Chip.resetGroups { c1 with gov := { c1.gov with p6 := false, wake := false, workAt := c1.now } }).encLate) :=
  if_pos ⟨hp6, hwake⟩

theorem idleGateExit_asleep (h : c.gov.wake = false) : c.idleGateExit = c := if_neg (by simp [h])

end

/-! ### HOLD (R763, R767) -/

/-- R763: the entry reaches P7. -/
theorem holdComplete_enters {c : Chip} (hhold : c.engine = .hold) (hp7 : c.gov.p7 = false) (hleaving : c.gov.leaving = none) :
    c.holdComplete = (c.endFrames.holdEntered).stopEpoch := by
  have hentered : c.holdEntered.gov.p7 = true := by simp [Chip.holdEntered, hhold, hp7, hleaving]
  simp [Chip.holdComplete, hp7, hentered]

/-! What the exit from HOLD does beside the engine's state. -/

theorem log_engine (c : Chip) (code block inst detail detail2 : Nat) :
    (c.log code block inst detail detail2).engine = c.engine := by
  obtain ⟨-, -, -, -, -, -, h⟩ := log_keeps c code block inst detail detail2
  exact h

theorem noteOverrides_engine (c old : Chip) : (c.noteOverrides old).engine = c.engine := by
  simp only [Chip.noteOverrides]
  repeat' split
  all_goals simp [log_engine]

theorem relevel_engine (c : Chip) : c.relevel.engine = c.engine := by
  simp only [Chip.relevel, Chip.setLevel]
  repeat' split
  all_goals simp [Chip.commandVolts]

theorem boundsChanged_engine (c old : Chip) : (c.boundsChanged old).engine = c.engine := by
  simp only [Chip.boundsChanged, relevel_engine, noteOverrides_engine]
  split <;> rfl

theorem startDemand_engine (c : Chip) : c.startDemand.engine = c.engine := by
  unfold Chip.startDemand
  split
  · rfl
  · exact (relevel_engine _).trans (noteOverrides_engine _ _)

theorem each_engine {α} (xs : List α) (g : Chip → α → Chip) (h : ∀ c x, (g c x).engine = c.engine) (c : Chip) :
    (c.each xs g).engine = c.engine := by
  unfold Chip.each
  induction xs generalizing c with
  | nil => rfl
  | cons x r ih => rw [List.foldl_cons, ih, h]

theorem groupReset_engine (c : Chip) (g : Nat) : (c.groupReset g).engine = c.engine := by
  unfold Chip.groupReset
  split
  · rfl
  · rw [each_engine]
    · rfl
    · exact fun _ _ => rfl

theorem bzWake_engine (c : Chip) : c.bzWake.engine = c.engine := by
  unfold Chip.bzWake
  repeat' split
  all_goals rfl

section
variable {c : Chip} {t : Nat} (hleaving : c.gov.leaving = some t)
include hleaving

theorem holdLeft_early (hearly : c.now < t + 250 * c.dget (railKey 9)) : c.holdLeft = c := by
  have hnotDue : c.holdExitDue = false := by simp [Chip.holdExitDue, hleaving, hearly]
  have hstays : c.holdExited = c := if_neg (by simp [hnotDue])
  simp [Chip.holdLeft, hstays]

/-- R309, R767: the exit leads to READY, and the drains of resets that came in HOLD complete with it. -/
theorem holdLeft_due (hhold : c.engine = .hold) (hdue : t + 250 * c.dget (railKey 9) ≤ c.now) : c.holdLeft =
    (let d := (((Chip.boundsChanged { c.clockFromHold with engine := .ready } c).startDemand).resetGroups).bzWake
     d.each ((List.range 16).filter (fun v => (d.voice v).resetDrain)) Chip.drainEnd) := by
  have hexits : c.holdExited =
      (((Chip.boundsChanged { c.clockFromHold with engine := .ready } c).startDemand).resetGroups).bzWake :=
    if_pos ⟨hhold, by simp [Chip.holdExitDue, hleaving, hdue]⟩
  have hready : c.holdExited.engine = .ready := by
    rw [hexits, bzWake_engine, Chip.resetGroups, each_engine _ _ groupReset_engine, startDemand_engine, boundsChanged_engine]
  rw [← hexits]
  exact if_pos ⟨hhold, by simp [hready]⟩

end

/-! ### The commands -/

/-- Settles O59, a clause at a time: each command is a `run`, and its effect in the clause's case is the lemma's. -/
theorem governorCommandsComplete : Obligations.GovernorCommandsComplete := by
  refine ⟨?demandEarly, ?demandOff, ?demandUp, ?demandDown, ?demandSame, ?thermalRelease, ?thermalReleaseEarly, ?thermal,
    ?thermalBad, ?currentBelow, ?currentAbove, ?currentRelease, ?tripConfig, ?tripReady, ?tripRun, ?tripBoot, ?tripSelftest,
    ?tripHold, ?tripAgain, ?tripCold, ?resume, ?railFault, ?railFail, ?railFailThird, ?alertFault, ?alertNone, ?settle,
    ?settleHeld, ?settleLeaving, ?settleEarly, ?gate, ?gateNot, ?gateExit, ?gateStay, ?held, ?holdExit, ?holdExitEarly⟩
  case demandEarly =>
    exact fun s u hs hearly => does_of_run hs (f := fun c => c.demandTick u) rfl (demandTick_early u hearly)
  case demandOff =>
    exact fun s u hs hdue hoff => does_of_run hs (f := fun c => c.demandTick u) rfl (demandTick_off u hdue hoff)
  case demandUp =>
    exact fun s u hs hdue hstarted hp7 hhold hfaulted hup => does_of_run hs (f := fun c => c.demandTick u) rfl
      (demandTick_on u hdue hstarted hp7 hhold hfaulted (if_pos hup))
  case demandDown =>
    exact fun s u hs hdue hstarted hp7 hhold hfaulted hup hdown => does_of_run hs (f := fun c => c.demandTick u) rfl
      (demandTick_on u hdue hstarted hp7 hhold hfaulted ((if_neg hup.not_ge).trans (if_pos hdown)))
  case demandSame =>
    exact fun s u hs hdue hstarted hp7 hhold hfaulted hup hdown => does_of_run hs (f := fun c => c.demandTick u) rfl
      (demandTick_on u hdue hstarted hp7 hhold hfaulted ((if_neg hup.not_ge).trans (if_neg hdown.not_gt)))
  case thermalRelease =>
    exact fun s t hs hcool hdue => does_of_run hs (f := Chip.thermalRelease) rfl (thermalRelease_due hcool hdue)
  case thermalReleaseEarly =>
    exact fun s t hs hcool hearly => does_of_run hs (f := Chip.thermalRelease) rfl (thermalRelease_early hcool hearly)
  case thermal =>
    exact fun s ts hs hgood => does_of_run hs (f := fun c => c.thermalSample ts) rfl (thermalSample_good hgood)
  case thermalBad =>
    exact fun s ts k hs hbad => does_of_run hs (f := fun c => c.thermalSample ts) rfl (thermalSample_bad hbad)
  case currentBelow =>
    exact fun s i c2 hs hsampled hbelow =>
      does_of_run hs (f := fun c => c.currentStep i) rfl (currentStep_below hsampled hbelow)
  case currentAbove =>
    exact fun s i c2 hs hsampled habove hdue =>
      does_of_run hs (f := fun c => c.currentStep i) rfl (currentStep_above hsampled habove hdue)
  case currentRelease =>
    exact fun s t hs hlow hdue => does_of_run hs (f := Chip.currentRelease) rfl (currentRelease_due hlow hdue)
  case tripConfig =>
    exact fun s tj hs htj hbefore hengine =>
      does_of_run hs (f := fun c => c.trip tj) rfl (trip_hold htj hbefore (.inl hengine))
  case tripReady =>
    exact fun s tj hs htj hbefore hengine =>
      does_of_run hs (f := fun c => c.trip tj) rfl (trip_hold htj hbefore (.inr (.inl hengine)))
  case tripRun =>
    exact fun s tj hs htj hbefore hengine =>
      does_of_run hs (f := fun c => c.trip tj) rfl (trip_hold htj hbefore (.inr (.inr hengine)))
  case tripBoot =>
    exact fun s tj hs htj hbefore hengine hfirst =>
      does_of_run hs (f := fun c => c.trip tj) rfl (trip_boot htj hbefore (.inl hengine) hfirst)
  case tripSelftest =>
    exact fun s tj hs htj hbefore hengine hfirst =>
      does_of_run hs (f := fun c => c.trip tj) rfl (trip_boot htj hbefore (.inr hengine) hfirst)
  case tripHold =>
    exact fun s tj hs htj hbefore hengine hcause =>
      does_of_run hs (f := fun c => c.trip tj) rfl (trip_inHold htj hbefore hengine hcause)
  case tripAgain =>
    exact fun s tj hs hagain => does_of_run hs (f := fun c => c.trip tj) rfl (trip_again tj hagain)
  case tripCold =>
    exact fun s tj hs hcold => does_of_run hs (f := fun c => c.trip tj) rfl (trip_cold hcold)
  case resume =>
    exact fun s tj hs hhot hcool => does_of_run hs (f := fun c => c.tripResume tj) rfl (if_pos ⟨hhot, hcool⟩)
  case railFault =>
    exact fun s hs => does_of_run hs (f := fun c => c.railTrouble true) rfl (railTrouble_fault s.chip)
  case railFail =>
    exact fun s hs hfew => does_of_run hs (f := fun c => c.railTrouble false) rfl (railTrouble_few hfew)
  case railFailThird =>
    exact fun s hs hmany => does_of_run hs (f := fun c => c.railTrouble false) rfl (railTrouble_third hmany)
  case alertFault =>
    exact fun s w hs hfault => does_of_run hs (f := fun c => c.vrAlert w) rfl (vrAlert_fault hfault)
  case alertNone =>
    exact fun s w hs hnone => does_of_run hs (f := fun c => c.vrAlert w) rfl (vrAlert_none hnone)
  case settle =>
    exact fun s t hs hsettle hdue hp7 hleaving => does_of_run hs (f := Chip.vrSettled) rfl
      (vrSettled_due hsettle hdue (by simp [hp7, hleaving]) (by simp [hp7]))
  case settleHeld =>
    exact fun s t hs hsettle hdue hp7 hleaving => does_of_run hs (f := Chip.vrSettled) rfl
      (vrSettled_due hsettle hdue (by simp [hp7, hleaving]) (if_pos hp7))
  case settleLeaving =>
    exact fun s t u hs hsettle hdue hp7 hleaving => does_of_run hs (f := Chip.vrSettled) rfl
      (vrSettled_due hsettle hdue (by simp [hleaving]) (if_pos hp7))
  case settleEarly =>
    exact fun s t hs hsettle hearly => does_of_run hs (f := Chip.vrSettled) rfl (vrSettled_early hsettle hearly)
  case gate =>
    exact fun s hs hready hon hp6 hledger hidle hdue =>
      does_of_run hs (f := Chip.idleGate) rfl (idleGate_enters hready hon hp6 hledger hidle hdue)
  case gateNot =>
    exact fun s hs hengine => does_of_run hs (f := Chip.idleGate) rfl (idleGate_notReady hengine)
  case gateExit =>
    exact fun s hs hp6 hwake => does_of_run hs (f := Chip.idleGateExit) rfl (idleGateExit_wakes hp6 hwake)
  case gateStay =>
    exact fun s hs hasleep => does_of_run hs (f := Chip.idleGateExit) rfl (idleGateExit_asleep hasleep)
  case held =>
    exact fun s hs hhold hp7 hleaving =>
      does_of_run hs (f := Chip.holdComplete) rfl (holdComplete_enters hhold hp7 hleaving)
  case holdExit =>
    exact fun s t hs hhold hleaving hdue =>
      does_of_run hs (f := Chip.holdLeft) rfl (holdLeft_due hleaving hhold hdue)
  case holdExitEarly =>
    exact fun s t hs hleaving hearly =>
      does_of_run hs (f := Chip.holdLeft) rfl (holdLeft_early hleaving hearly)

end Sys2Proof.Machine
end

section
/-! SUPPORT. Detected errors, FAULTED, the calibration store, the signature and the installation (R773 to R796, R822, R823,
R833). -/

namespace Sys2Proof.Machine

section
variable {c : Chip}

/-! ### Retirement and FAULTED (R773, R776, R780) -/

theorem retireUnit_working {u : UnitName} (check address : Nat) (hengine : c.engine ≠ .reset) (hworks : c.isRetired u = false)
    (hframe : c.noFrame u = false) : c.retireUnit u check address =
      (c.each (u :: c.alsoRetires u) (fun c u => c.retireOne u check address)).callWake :=
  if_neg (by simp [hengine, hworks, hframe])

theorem retireUnit_retired {u : UnitName} (check address : Nat) (h : c.isRetired u = true) :
    c.retireUnit u check address = c := if_pos (.inr (.inl h))

/-- R780: the entry to FAULTED ends the work, releases the pins and logs the cause. -/
theorem enterFaulted_working {cause : Nat} (hcause : cause ≤ 10) (hengine : c.engine ≠ .faulted) : c.enterFaulted cause =
    (let c1 := c.endAllWork
     let c2 : Chip := { c1 with
       engine := .faulted
       request := none
       faults := { c1.faults with
         cause
         faultN := true
         signing := false
         signature := if c1.faults.signing then [] else c1.faults.signature } }
     ((c2.releasePins).dset (ent 0x5800 3) c.posNat).log 0x0201 0 0xFFFF cause 0) := by
  have hlow : cause % 16 = cause := Nat.mod_eq_of_lt (by omega)
  simp only [Chip.enterFaulted, if_neg hengine, hlow]

/-! ### The store and the installation (R167, R822, R823, R833) -/

/-- R833: the stored slot becomes the active one. -/
theorem storeDone_storing {x : CalStore} (h : c.flash.storing = some x) : c.storeDone =
    (let f := c.flash.setSlot x.target x.bytes
     let c1 : Chip := { c with flash := { f with
       storing := none
       lastStore := some f.storeAt.1
       calDefault := false
       calAbandoned := false } }
     (((c1.dset (ent 0x1100 2) 2).dset (ent 0x1100 3) f.storeAt.2).dset (ent 0x6000 1) x.target).dset (ent 0x6000 2) x.seq) := by
  simp only [Chip.storeDone, h]

theorem abandonStore_storing (h : c.flash.storing ≠ none) : c.abandonStore =
    (let c1 := c.haltStore
     (Chip.dset { c1 with flash := { c1.flash with calAbandoned := true } } (ent 0x1100 2) 3).log 0x0601 0x00A0 0xFFFF 0 0) :=
  if_neg (by simpa using h)

theorem abandonInstall_installing (h : c.flash.installing ≠ none) :
    c.abandonInstall = Chip.dset { c with flash := { c.flash with installing := none } } (ent 0x6000 13) 3 :=
  if_neg (by simpa using h)

section
variable {x : FwWrite} (hinstalling : c.flash.installing = some x)
include hinstalling

/-- R823: a location that does not read back as the tensor gets no trailer. -/
theorem installDone_differs (hdiffers : (c.contents x.tensor).take x.bytes.length ≠ x.bytes) :
    c.installDone = Chip.dset { c with flash := { c.flash with installing := none } } (ent 0x6000 13) 3 := by
  have hbusy : c.flash.installing ≠ none := by simp [hinstalling]
  simp only [Chip.installDone, hinstalling, if_pos hdiffers]
  exact abandonInstall_installing hbusy

variable (hsame : (c.contents x.tensor).take x.bytes.length = x.bytes)
include hsame

theorem installDone_intoB (hrun : c.dget (ent 0x6000 9) = 0) : c.installDone =
    Chip.dset { c with flash := { c.flash with installing := none, imageB := some x.image } } (ent 0x6000 13) 2 := by
  simp only [Chip.installDone, hinstalling, if_neg (not_not_intro hsame), if_pos hrun]

theorem installDone_intoA (hrun : c.dget (ent 0x6000 9) ≠ 0) : c.installDone =
    Chip.dset { c with flash := { c.flash with installing := none, imageA := some x.image } } (ent 0x6000 13) 2 := by
  simp only [Chip.installDone, hinstalling, if_neg (not_not_intro hsame), if_neg hrun]

end

end

/-! ### The commands -/

/-- R773: the effect of ERROR_DETECTED. -/
def Chip.meetError (unit : UnitName) (check address : Nat) (c : Chip) : Chip :=
  if unitExists unit then c.retireUnit unit check address else c

/-- R779: the effect of FAULTED_ENTRY, with the times at which its causes can be met. -/
def Chip.meetFault (cause : Nat) (c : Chip) : Chip :=
  if 1 ≤ cause ∧ cause ≤ 10 ∧ (c.engine == .boot || (c.engine != .reset && cause != 6 && cause != 10)) = true then
    c.enterFaulted cause
  else c

theorem meetFault_inTime {c : Chip} {cause : Nat} (hone : 1 ≤ cause) (hten : cause ≤ 10) (hreset : c.engine ≠ .reset)
    (htime : c.engine = .boot ∨ (cause ≠ 6 ∧ cause ≠ 10)) : c.meetFault cause = c.enterFaulted cause := by
  refine if_pos ⟨hone, hten, ?_⟩
  obtain hboot | ⟨hsix, hlast⟩ := htime
  · simp [hboot]
  · simp [hreset, hsix, hlast]

/-- Settles O60, a clause at a time: each command is a `run`, and its effect in the clause's case is the lemma's. -/
theorem faultAndFlashCommandsComplete : Obligations.FaultAndFlashCommandsComplete := by
  refine ⟨?error, ?errorAgain, ?faulted, ?store, ?storeLost, ?signed, ?installB, ?installA, ?installDiffers, ?installLost⟩
  case error =>
    exact fun s unit check address hs hexists hengine hworks hframe =>
      does_of_run hs (f := Chip.meetError unit check address) rfl
        ((if_pos hexists).trans (retireUnit_working check address hengine hworks hframe))
  case errorAgain =>
    intro s unit check address hs hretired
    refine does_of_run hs (f := Chip.meetError unit check address) rfl ?_
    rw [Chip.meetError, retireUnit_retired check address hretired, ite_self]
  case faulted =>
    exact fun s cause hs hone hten hreset hengine htime =>
      does_of_run hs (f := Chip.meetFault cause) rfl
        ((meetFault_inTime hone hten hreset htime).trans (enterFaulted_working hten hengine))
  case store => exact fun s x hs hstoring => does_of_run hs (f := Chip.storeDone) rfl (storeDone_storing hstoring)
  case storeLost =>
    exact fun s hs hstoring => does_of_run hs (f := Chip.abandonStore) rfl (abandonStore_storing hstoring)
  case signed => exact fun s hs hsigning => does_of_run hs (f := Chip.signed) rfl (signed_of_signing hsigning)
  case installB =>
    exact fun s x hs hinstalling hrun hsame =>
      does_of_run hs (f := Chip.installDone) rfl (installDone_intoB hinstalling hsame hrun)
  case installA =>
    exact fun s x hs hinstalling hrun hsame =>
      does_of_run hs (f := Chip.installDone) rfl (installDone_intoA hinstalling hsame hrun)
  case installDiffers =>
    exact fun s x hs hinstalling hdiffers =>
      does_of_run hs (f := Chip.installDone) rfl (installDone_differs hinstalling hdiffers)
  case installLost =>
    exact fun s hs hinstalling =>
      does_of_run hs (f := Chip.abandonInstall) rfl (abandonInstall_installing hinstalling)

end Sys2Proof.Machine
end
